-- ==== Sys2Proof/Word.lean ====
section
/-! DEFINITION. The word types of the package and their plainest arithmetic (R8, R9). -/
namespace Sys2Proof

/-- One byte, the smallest addressable unit of memory, of a scratchpad and of an operand cache. -/
abbrev Byte := BitVec 8

/-- A word of a control-core register, of scratchpad and memory operands (R89, R92). -/
abbrev Word64 := BitVec 64

/-- A completion counter, an F32 encoding or an accumulator element. -/
abbrev Word32 := BitVec 32

end Sys2Proof
end

