-- ==== Sys2Proof/Syntax.lean ====
section
/-! DEFINITION. The commands of the package: one constructor of `Instr` for each row of spec/opcode_table.json, with
the operands that the environment of the block supplies (which mast, port or die; what arrives on a pin or a link). -/
namespace Sys2Proof

/-- A byte string of `len` bytes held as a number, least significant byte first (R9). -/
structure Octets where
  len  : Nat
  bits : Nat
deriving DecidableEq, Repr

/-- Who issues a dictionary request: an operator session, a host context, or the partner on a port (R15, R390). -/
inductive Who where
  | operator (session : Nat)
  | host (ctx : Nat)
  | peer (port : Nat)
deriving DecidableEq, Repr

/-- What a request served at the home of its line does there (R207, R208, R236). -/
inductive HomeOp where
  | read
  | write
  | atomic             -- on the home's copy
  | add                -- in the memory controller's path
deriving DecidableEq, Repr

/-- What a far cache or cluster cache asks the home directory for (R203 to R208). -/
inductive LineAsk where
  | read               -- demand fill
  | own                -- ownership with data
  | ownWhole           -- ownership of a whole aligned line, without data (R204)
  | prefetch           -- fill into state F (R216)
  | evict              -- notice that a clean line was dropped
  | writeback          -- modified line returned
  | uncached           -- a read served from the home's far cache, not kept at the requester (R208)
  | atHome (op : HomeOp)   -- served at the home: remote requests, atomics, add-on-writes, engines of the base dies
deriving DecidableEq, Repr

/-- What the message of a ratline flit belongs to: a memory access of a requester, numbered as the model numbers them, or
a chunk of a plan slot. -/
inductive RatLoad where
  | other
  | access (who : Nat)
  | chunk (slot : Nat)
deriving DecidableEq, Repr

/-- A flit on a ratline as its sender forms it: virtual channel, body bytes in use, body (Table 9.2), and on VC 14 whether
it is a response (R302), whether it travels in the detour class (R304), what it belongs to. -/
structure RatBody where
  vc     : Nat
  fill   : Nat
  body   : Nat           -- 56 bytes, least significant byte first
  resp   : Bool := false
  detour : Bool := false
  load   : RatLoad := .other
deriving DecidableEq, Repr

/-- A width word (Table 9.6). -/
structure WidthWord where
  gen   : Nat
  claim : Nat
  map   : Nat
deriving DecidableEq, Repr

/-- A stay or bowsprit flit as it is received (Tables 10.3 and 10.4): header fields, 240-byte body, tag and CRC field. -/
structure StayFlit where
  vc   : Nat
  typ  : Nat
  cls  : Nat
  seq  : Nat
  ack  : Nat
  ackv : Bool
  hops : Nat
  fill : Nat
  dst  : Nat           -- 18 bits, x in [17:12]
  src  : Nat
  rsvd : Nat           -- the reserved header bits, [79:78] above [41:0]
  body : Nat
  tag  : Nat
  crc  : Nat           -- bytes 264 to 267
  crcN : Nat           -- bytes 268 to 271
deriving DecidableEq, Repr

/-- A capability word with the nonce and port number of its message (Tables 10.7 and 10.15). -/
structure CapabilityMsg where
  word  : Nat
  nonce : Octets
  port  : Nat
deriving DecidableEq, Repr

/-- An identity message (Table 10.15): coordinate, torus sizes, certificate chain, signature. -/
structure IdentityMsg where
  coord : Nat          -- x, y, z, 0 as four bytes
  sizes : Nat
  chain : Octets
  sig   : Octets
deriving DecidableEq, Repr

/-- A keying message (Table 10.15). -/
structure KeyingMsg where
  epoch : Nat
  key   : Octets
  sig   : Octets
deriving DecidableEq, Repr

/-- A discovery message (Table 10.15). -/
structure DiscoveryMsg where
  digest : Nat
  coord  : Nat
  sizes  : Nat
  word   : Nat
  port   : Nat
deriving DecidableEq, Repr

/-- A message of virtual channel 14, or a posted write (Tables 10.14 and 10.15), after its flits were framed. -/
structure RemoteMsg where
  vc     : Nat
  ord    : Bool
  status : Nat
  tid    : Nat
  src    : Nat          -- SRC of its flits, 18 bits
  addr   : Nat
  len    : Nat          -- bytes asked for, or carried
  data   : Nat          -- the data bytes, least significant first
deriving DecidableEq, Repr

/-- A plan chunk: the header of Table 11.6, the payload and the trailer of R366. -/
structure Chunk where
  len     : Nat
  index   : Nat
  version : Nat
  step    : Nat
  rank    : Nat
  die     : Nat
  k       : Nat
  half    : Bool
  gf      : Nat
  cp      : Bool
  poison  : Bool
  ctype   : Nat
  phase   : Nat
  planId  : Nat
  payload : Nat
  digest  : Nat
  trailerPoison : Bool
deriving DecidableEq, Repr

/-- A backup request or release (Table 10.15). -/
structure BackupMsg where
  planId : Nat
  phase  : Nat
  step   : Nat
  rank   : Nat
deriving DecidableEq, Repr

/-- The authenticated envelope of a Choan request within a session (Table 12.1): session, sequence number, tag. -/
structure Envelope where
  session : Nat
  seq     : Nat
  tag     : Nat
deriving DecidableEq, Repr

/-- The commands. `m` is a package mast number, `t` a thread, `k` a halyard stream, `d` a die, `p` a port or partition. -/
inductive Instr where
  -- control core (R92), each issued by thread t of mast m from the word at its program counter
  | nop (m t : Nat)
  | add (m t : Nat)
  | sub (m t : Nat)
  | and (m t : Nat)
  | or (m t : Nat)
  | xor (m t : Nat)
  | shl (m t : Nat)
  | shr (m t : Nat)
  | sar (m t : Nat)
  | mul (m t : Nat)
  | slt (m t : Nat)
  | sltu (m t : Nat)
  | seq (m t : Nat)
  | min (m t : Nat)
  | max (m t : Nat)
  | lds (m t : Nat)
  | sts (m t : Nat)
  | ldm (m t : Nat)
  | stm (m t : Nat)
  | amadd (m t : Nat)
  | amswap (m t : Nat)
  | br (m t : Nat)
  | bz (m t : Nat)
  | bnz (m t : Nat)
  | jal (m t : Nat)
  | post (m t : Nat)
  | waitc (m t : Nat)
  | watch (m t : Nat)
  | fetchw (m t : Nat)
  | cinc (m t : Nat)
  | cclr (m t : Nat)
  | start (m t : Nat)
  | halt (m t : Nat)
  | rdsys (m t : Nat)
  | mastThreadFault (m t : Nat)
  | memoryResultReturn (m t : Nat)
  | watchChange (m t : Nat)
  | watchTimeout (m t : Nat)
  | watchEntryFree (m t : Nat)
  | postSlotFree (m t : Nat)
  -- halyard (R112 to R116)
  | copyIn (m k : Nat)
  | copyOut (m k : Nat)
  | mesh (m k : Nat)
  | localCopy (m k : Nat)
  | addOut (m k : Nat)
  | halyardComplete (m k : Nat)
  | meshArrival (m k : Nat)
  | meshAck (m k : Nat)
  -- mainsail (R124 to R157)
  | matmul (m : Nat)
  | aclr (m : Nat)
  | adapt (m : Nat)
  | send (m : Nat)
  | mainsailComplete (m : Nat)
  -- jib (R158 to R185)
  | copy (m : Nat)
  | jibAdd (m : Nat)
  | jibSub (m : Nat)
  | jibMul (m : Nat)
  | fma (m : Nat)
  | jibMin (m : Nat)
  | jibMax (m : Nat)
  | mul3 (m : Nat)
  | exp (m : Nat)
  | log (m : Nat)
  | recip (m : Nat)
  | rsqrt (m : Nat)
  | sqrt (m : Nat)
  | reluGrad (m : Nat)
  | geluGrad (m : Nat)
  | siluGrad (m : Nat)
  | sigmoidGrad (m : Nat)
  | rsum (m : Nat)
  | rsumsq (m : Nat)
  | rmax (m : Nat)
  | rmaxabs (m : Nat)
  | rmstat (m : Nat)
  | rmsstat (m : Nat)
  | norm (m : Nat)
  | skip (m : Nat)
  | jibComplete (m : Nat)
  -- launch and mast power (R105, R106, R117 to R121)
  | launchCopyDone (m : Nat)
  | shutterEntry (m : Nat)
  | shutteredWake (m : Nat)
  | mastPowerRequest (who : Who) (m value : Nat)
  | mastPowerDown (m : Nat)
  | wickWakeDone (m : Nat)
  | darkWakeDone (m : Nat)
  -- memory (R186 to R223). Agents 0 to 15 are far caches, 16 and 17 the lamplighter cluster caches; `wrong` is the
  -- number of symbols in error among the 72 of the granule half that is read (R198)
  | directoryRequest (agent line : Nat) (ask : LineAsk)
  | fillArrival (agent line : Nat)
  | forwardedRead (agent line : Nat)
  | invalidate (agent line : Nat)
  | memAccessComplete (channel wrong : Nat)
  | trackerGrantTimeout (channel : Nat)
  | patrolScrub (stack wrong : Nat)
  | hbmTempSample (stack temp : Nat)
  | hotWindowEnd (d : Nat)
  -- training state (R224 to R258)
  | heldDrainStart (d p pane : Nat)
  | paneDrainEnd (d p pane : Nat)
  | lanternFlush (d : Nat)
  -- trim unit (R259 to R279)
  | trimCheck (d : Nat)
  | trimHeldRecheck (p e : Nat)
  | trimUpdateComplete (p e : Nat)
  -- vertical bond (R280 to R285): a new beat as it is sent, or the next beat of a replay, and the bits the bond flipped
  | bondBeatReceive (m : Nat) (upward : Bool) (beat : Option Nat) (flips : Nat) (sidebandBad : Bool)
  | bondWindowEnd (d : Nat)
  -- ratlines (R286 to R307): a direction is its receiving die and side (0 N, 1 E, 2 S, 3 W)
  | ratlineDataFlit (d side : Nat) (fresh : Option RatBody) (flips : Nat)
  | ratlineNak (d side : Nat)
  | ratlineCredit (d side : Nat)
  | ratlineRetire (d side : Nat)
  | ratlineSwitch (d side : Nat) (spareLocks : Bool)
  | ratlineWidth (d side : Nat) (word : WidthWord)
  | ratlineRetryTimeout (d side : Nat)
  | ratlineControlResend (d side : Nat)
  | ratlineLaneWindowEnd (d side : Nat)
  | ratlineElectricalDone (d side : Nat) (bad : Nat)
  | ratlineMapExchangeDone (d side : Nat)
  | ratlineMapTimeout (d side : Nat)
  | ratlineLinkOff (link : Nat)
  -- stay and bowsprit ports (R308 to R354)
  | stayPresenceDetected (p : Nat)
  | stayRateAlternate (p : Nat)
  | stayElectricalDone (p : Nat) (healthy roundTripNs : Nat) (word : WidthWord)
  | capability (p : Nat) (msg : CapabilityMsg)
  | identity (p : Nat) (msg : IdentityMsg)
  | keying (p : Nat) (msg : KeyingMsg)
  | stayPartnerLost (p : Nat)
  | stayDataFlit (p : Nat) (flit : StayFlit)
  | idle (p : Nat) (flit : StayFlit)
  | nak (p : Nat) (flit : StayFlit)
  | credit (p : Nat) (flit : StayFlit)
  | width (p : Nat) (flit : StayFlit)
  | switch (p : Nat) (flit : StayFlit)
  | keyswitch (p : Nat) (flit : StayFlit)
  | stayRetryTimeout (p : Nat)
  | stayKeyRefresh (p : Nat)
  | stayFecWindowEnd (p : Nat) (uncorrectable : List Nat) (corrected : Nat)
  | stayRetrainDone (p : Nat) (word : WidthWord)
  | stayTagWindowEnd (p : Nat)
  | stayCreditStarved (p vc : Nat)
  | stayShutdownEnd (p : Nat)
  | discoverySend (p : Nat)
  | discovery (p : Nat) (msg : DiscoveryMsg)
  | discoveryStale (entry : Nat)
  | dictRequest (p src tid : Nat) (datagram : Octets)
  | backupRequest (p src : Nat) (msg : BackupMsg)
  | backupRelease (p src : Nat) (msg : BackupMsg)
  | chunk (p src : Nat) (c : Chunk)
  | chunkHoldExpiry (n : Nat)
  | postedWrite (p : Nat) (msg : RemoteMsg)
  | readReq (p : Nat) (msg : RemoteMsg)
  | readResp (p : Nat) (msg : RemoteMsg)
  | writeReq (p : Nat) (msg : RemoteMsg)
  | writeAck (p : Nat) (msg : RemoteMsg)
  -- collective plans (R355 to R389)
  | phaseTrigger (s : Nat)
  | phaseComplete (s : Nat)
  | deadlineMissed (s : Nat)
  | planAbort (who : Who) (s value : Nat)
  | planAbortDone (s : Nat)
  | deferredFlip
  -- Choan, dictionary and commit (R390 to R426)
  | hello
  | discover (fromAddr seq : Nat)
  | sessionInit (fromAddr seq : Nat) (nonce key chain : Octets)
  | sessionConfirm (env : Envelope) (sig : Octets)
  | claim (env : Envelope)
  | close (env : Envelope)
  | read (env : Envelope) (index sub : Nat) (staged : Bool)
  | write (env : Envelope) (index sub : Nat) (value : Octets)
  | readSeg (env : Envelope) (index sub offset length : Nat) (staged : Bool)
  | writeSeg (env : Envelope) (index sub offset : Nat) (data : Octets) (fin : Bool)
  | list (env : Envelope) (first count : Nat)
  | describe (env : Envelope) (index sub : Nat)
  | eventRead (env : Envelope) (rseq count : Nat)
  | eventAck (env : Envelope) (rseq : Nat)
  | subscribe (env : Envelope) (on : Bool)
  | sessionTimeout (session : Nat)
  | eventRingOverflow (ring : Nat)
  | snapshotPost (index : Nat)
  | mailboxAlloc (core : Nat)
  | mailboxSubmit (core slot : Nat)
  | mailboxFree (core slot : Nat)
  | commitRequest (who : Who) (token : Nat)
  | commitChecksDone
  | stagingDiscard (who : Who) (value : Nat)
  | rdidxWrite (core ring value : Nat)
  | registerWrite (who : Who) (index sub : Nat) (value : Octets)
  | grantRequest (m : Nat)
  | pilotRestarted
  -- power, clocks, start-up and reset (R427 to R452)
  | powerOn (tPilot : Nat)
  | powerLoss
  | powerSample (watts millivolts : Nat)
  | capEvaluate
  | powerCapWrite (who : Who) (watts : Nat)
  | thermalThrottle (sensor reading : Nat)
  | thermalWindowEnd (readings : List (Nat × Nat))
  | thermalShutdown (sensor reading : Nat)
  | inputUndervoltage (millivolts : Nat)
  | inputOvervoltage (millivolts : Nat)
  | domainForceDark (d : Nat)
  | domainOff (d : Nat)
  | domainOn (d : Nat)
  | startupStep (fails : Bool) (cause : Nat)
  | hostReady (who : Who) (value : Nat)
  | packageReset (who : Who) (value : Nat)
  | partitionReset (who : Who) (p value : Nat)
  | domainReset (who : Who) (d value : Nat)
  | portReset (who : Who) (sub value : Nat)
  | resetComplete (kind scope : Nat)
  | domainResetTimeout (d : Nat)
  | resetreq (value : Nat)
  -- security (R453 to R475), management port and I3C (R487 to R490)
  | recoveryImage (image : Octets)
  | firmwareImageWrite (who : Who) (kind : Nat) (image : Octets)
  | svnRaise (who : Who) (kind value : Nat)
  | attestationNonce (who : Who) (nonce : Octets)
  | debugToken (who : Who) (token : Octets)
  | debugRelock (who : Who) (value : Nat)
  | debugLifeExpiry
  | partitionStop (who : Who) (p value : Nat)
  | lamplighterAccess (core : Nat) (store : Bool) (addr len data : Nat)
  | mgmtLinkAttempt (links : Bool)
  | ratlineTrainingFramesSeen (d side : Nat)
  | stayControlResend (p : Nat)
  | ratlineIdle (d side : Nat)
  | dynamicAddress (addr : Nat)
deriving DecidableEq, Repr

end Sys2Proof
end

