-- ==== Sys2Proof/Decode.lean ====
section
/-! DEFINITION. Words that spell a command. The spec gives no row of its table a word: a command is named by the event that
it is, so no word spells one (log 4). The fields of a control-core instruction word are read in Machine/Operands.lean. -/
namespace Sys2Proof

/-- The command that a word of `nbits` bits spells by the table's bits: none, for no row gives bits (log 4). -/
def decodeTableWord (nbits w : Nat) : Option Instr :=
  match nbits, w with
  | _, _ => none

end Sys2Proof
end

