-- ==== Sys2Proof/Machine/Maps.lean ====
section
/-! DEFINITION. Sparse data by key: a list of key and value pairs, keys strictly rising, no entry equal to the default
that an unlisted key reads as; equal contents are equal lists. Memory, scratchpads, registers and tables use it. -/
namespace Sys2Proof.Machine

/-- A sparse map from numbers. `FMap Byte` is a list of `Host.Cell`. -/
abbrev FMap (α : Type) := List (Nat × α)

/-- The value at key `k`, or `d` where no entry stands. -/
def FMap.get {α : Type} (m : FMap α) (k : Nat) (d : α) : α :=
  match m with
  | [] => d
  | (j, v) :: r => if j = k then v else FMap.get r k d

/-- Puts `v` at `k`, keeping the keys rising. -/
def FMap.put {α : Type} (m : FMap α) (k : Nat) (v : α) : FMap α :=
  match m with
  | [] => [(k, v)]
  | (j, w) :: r => if k < j then (k, v) :: (j, w) :: r else if k = j then (k, v) :: r else (j, w) :: FMap.put r k v

/-- Removes every entry at `k`. -/
def FMap.erase {α : Type} (m : FMap α) (k : Nat) : FMap α :=
  match m with
  | [] => []
  | (j, w) :: r => if j = k then FMap.erase r k else (j, w) :: FMap.erase r k

/-- Writes `v` at `k`; the default `d` is held by no entry. -/
def FMap.set {α : Type} [DecidableEq α] (m : FMap α) (k : Nat) (d v : α) : FMap α :=
  if v = d then FMap.erase m k else FMap.put m k v

/-- The keys stand in rising order, all above `lo`, and no entry holds the default `d`. -/
def FMap.wfFrom {α : Type} [DecidableEq α] (d : α) (lo : Nat) (m : FMap α) : Bool :=
  match m with
  | [] => true
  | (j, v) :: r => decide (lo ≤ j) && decide (v ≠ d) && FMap.wfFrom d (j + 1) r

/-- The canonical form of a sparse map with default `d`. -/
def FMap.wf {α : Type} [DecidableEq α] (d : α) (m : FMap α) : Bool := FMap.wfFrom d 0 m

/-- Drops every entry whose key lies in `[lo, hi)`. -/
def FMap.clearRange {α : Type} (m : FMap α) (lo hi : Nat) : FMap α :=
  m.filter fun e => !(lo ≤ e.1 && e.1 < hi)

/-- The `n` bytes from `a` upward, least significant first (R9); an unlisted byte reads 0. -/
def FMap.readLE (m : FMap Byte) (a : Nat) : Nat → Nat
  | 0 => 0
  | n + 1 => (FMap.get m a 0#8).toNat + 256 * FMap.readLE m (a + 1) n

/-- Writes the `n` low bytes of `v` from `a` upward, least significant first (R9). -/
def FMap.writeLE (m : FMap Byte) (a : Nat) : Nat → Nat → FMap Byte
  | 0, _ => m
  | n + 1, v => FMap.writeLE (FMap.set m a 0#8 (BitVec.ofNat 8 v)) (a + 1) n (v / 256)

/-- A rising list of numbers as a set: insertion. -/
def insertSorted (k : Nat) : List Nat → List Nat
  | [] => [k]
  | j :: r => if k < j then k :: j :: r else if k = j then j :: r else j :: insertSorted k r

/-- Bits `[hi:lo]` of a word (R8). -/
def field (w hi lo : Nat) : Nat := (w >>> lo) % 2 ^ (hi + 1 - lo)

/-- Bit `i` of a word (R8). -/
def bitOf (w i : Nat) : Bool := w.testBit i

/-- `w` with bit `i` set to `b`. -/
def setBit (w i : Nat) (b : Bool) : Nat :=
  if w.testBit i then (if b then w else w - 2 ^ i) else (if b then w + 2 ^ i else w)

/-- The signed value of the low `n` bits of `v`. -/
def signedOf (n v : Nat) : Int :=
  if (v % 2 ^ n).testBit (n - 1) then (v % 2 ^ n : Int) - 2 ^ n else (v % 2 ^ n : Int)

/-- An integer as an `n`-bit word. -/
def wrapTo (n : Nat) (v : Int) : Nat := (v % (2 ^ n : Int)).toNat

/-- The number of bits set among the low `n` bits of `w`. -/
def popCount (w : Nat) : Nat → Nat
  | 0 => 0
  | n + 1 => popCount w n + (if w.testBit n then 1 else 0)

/-- The bytes of a number, least significant first. -/
def bytesOf : Nat → Nat → List Nat
  | 0, _ => []
  | n + 1, v => v % 256 :: bytesOf n (v / 256)

/-- The number whose bytes these are, least significant first. -/
def ofBytes : List Nat → Nat
  | [] => 0
  | b :: r => b % 256 + 256 * ofBytes r

/-- The bytes of a number with the first byte most significant (the Choan header order of R392). -/
def bytesMsb (n v : Nat) : List Nat := (bytesOf n v).reverse

/-- A byte string from its bytes. -/
def octets (bs : List Nat) : Octets := ⟨bs.length, ofBytes bs⟩

/-- `[0, 1, …, n-1]` folded over a state. -/
def forRange {σ : Type} (n : Nat) (s : σ) (f : Nat → σ → σ) : σ := (List.range n).foldl (fun s i => f i s) s

end Sys2Proof.Machine

namespace Sys2Proof

/-- The bytes of a byte string. -/
def Octets.bytes (o : Octets) : List Nat := Machine.bytesOf o.len o.bits

/-- `len` bytes of `o` from byte `off` (fewer where the string ends). -/
def Octets.slice (o : Octets) (off len : Nat) : Octets :=
  let n := min len (o.len - off)
  ⟨n, (o.bits >>> (8 * off)) % 2 ^ (8 * n)⟩

/-- Two byte strings, one after the other. -/
def Octets.append (a b : Octets) : Octets := ⟨a.len + b.len, a.bits + b.bits <<< (8 * a.len)⟩

end Sys2Proof
end

