-- ==== Sys2Proof/Config.lean ====
section
/-! DEFINITION. What the spec leaves to an implementation or to chance: constants without a body, of which nothing can
be proved but what holds of every value. -/
namespace Sys2Proof

/-- The `n`-th value that the spec leaves open (log 1). -/
opaque Config.freeValue : Nat → Nat

/-- The `n`-th draw from the true random generator (R192, R461). -/
opaque Config.random : Nat → Nat

/-- The set of the home directory in which a line's entry falls, and the number of records that the snapshot ring holds
(R205, R420): the spec gives neither. -/
opaque Config.dirSet : Nat → Nat
opaque Config.snapshotRing : Nat

/-- The second moment that DEN uses where the group keeps none (MV 0): the spec states no v there. A function of the master,
first moment and gradient of the element (R77, R261, log 1). -/
opaque Config.unkeptMoment (w m g : Nat) : Nat

/-- Whether an Ed448 signature (114 bytes as a number) of a message verifies under a public key (log 14). -/
opaque Config.ed448Verify (key : Nat) (msg : Octets) (sig : Nat) : Bool

/-- The Ed448 signature that this device's key makes of a message. -/
opaque Config.ed448Sign (msg : Octets) : Nat

/-- The X448 public key that belongs to a secret. -/
opaque Config.x448Public (secret : Nat) : Nat

/-- The X448 shared secret of a secret and a partner's public key. -/
opaque Config.x448Shared (secret other : Nat) : Nat

/-- The Ed448 key of a certificate chain's leaf (log 14). -/
opaque Config.chainLeaf (chain : Octets) : Nat

/-- Whether a chain is well formed under R458 and leads to the Dvorrin root through a CA: 0 Firmware, 1 Device, 2 Debug
(log 14). -/
opaque Config.chainRooted (chain : Octets) (ca : Nat) : Bool

/-- Whether a chain is well formed under R458 and leads to an anchor key (log 14). -/
opaque Config.chainAnchored (chain : Octets) (anchor : Nat) : Bool

/-- Whether a chain is well formed under R458 and its last certificate is self-signed (log 14). -/
opaque Config.chainSelfSigned (chain : Octets) : Bool

end Sys2Proof
end

