-- ==== Sys2Proof/Machine/Crypto.lean ====
section
/-! DEFINITION. The checksums and the keyed digests that the spec names and does not restate: CRC-16 and CRC-32 of the
links, SHAKE256 and KMAC256 (FIPS 202 and SP 800-185; PRESUMED, log 13). -/
namespace Sys2Proof.Machine

/-- The 25 lanes of the Keccak state after the column-parity step. -/
def keccakTheta (a : List Nat) : List Nat :=
  let c := (List.range 5).map fun x => (List.range 5).foldl (fun v y => v ^^^ a.getD (x + 5 * y) 0) 0
  let rot1 := fun v : Nat => (v <<< 1) % 2 ^ 64 + v >>> 63
  let d := (List.range 5).map fun x => c.getD ((x + 4) % 5) 0 ^^^ rot1 (c.getD ((x + 1) % 5) 0)
  (List.range 25).map fun i => a.getD i 0 ^^^ d.getD (i % 5) 0

/-- The lane rotation offsets, lane x + 5y. -/
def keccakOffsets : List Nat :=
  [0, 1, 62, 28, 27, 36, 44, 6, 55, 20, 3, 10, 43, 25, 39, 41, 45, 15, 21, 8, 18, 2, 61, 56, 14]

/-- The lane rotations followed by the lane permutation. -/
def keccakRhoPi (a : List Nat) : List Nat :=
  (List.range 25).map fun i =>
    let x := i % 5
    let y := i / 5
    let src := (x + 3 * y) % 5 + 5 * x
    let v := a.getD src 0
    let r := keccakOffsets.getD src 0
    (v <<< r) % 2 ^ 64 + v >>> (64 - r)

/-- The row mixing step. -/
def keccakChi (a : List Nat) : List Nat :=
  (List.range 25).map fun i =>
    let y := i / 5 * 5
    let n := a.getD (y + (i + 1) % 5) 0
    a.getD i 0 ^^^ ((2 ^ 64 - 1 - n) &&& a.getD (y + (i + 2) % 5) 0)

/-- The constants of the 24 rounds. -/
def keccakRounds : List Nat :=
  [0x0000000000000001, 0x0000000000008082, 0x800000000000808A, 0x8000000080008000, 0x000000000000808B,
   0x0000000080000001, 0x8000000080008081, 0x8000000000008009, 0x000000000000008A, 0x0000000000000088,
   0x0000000080008009, 0x000000008000000A] ++
  [0x000000008000808B, 0x800000000000008B, 0x8000000000008089, 0x8000000000008003, 0x8000000000008002,
   0x8000000000000080, 0x000000000000800A, 0x800000008000000A, 0x8000000080008081, 0x8000000000008080,
   0x0000000080000001, 0x8000000080008008]

/-- The Keccak permutation. -/
def keccakF (a : List Nat) : List Nat :=
  keccakRounds.foldl (fun st rc =>
    match keccakChi (keccakRhoPi (keccakTheta st)) with
    | [] => []
    | l0 :: r => (l0 ^^^ rc) :: r) a

/-- The lanes of a 136-byte block. -/
def lanesOfBlock (block : Nat) : List Nat := (List.range 25).map fun i => (block >>> (64 * i)) % 2 ^ 64

/-- Absorbs `n` blocks of 136 bytes. -/
def keccakAbsorb (msg : Nat) : Nat → List Nat → List Nat
  | 0, st => st
  | n + 1, st =>
    let block := msg % 2 ^ 1088
    keccakAbsorb (msg >>> 1088) n (keccakF ((List.range 25).map fun i => st.getD i 0 ^^^ (lanesOfBlock block).getD i 0))

/-- The first 136 bytes of the state as a number. -/
def stateBlock (st : List Nat) : Nat :=
  (List.range 17).foldl (fun v i => v + (st.getD i 0) <<< (64 * i)) 0

/-- Squeezes `n` blocks of 136 bytes. -/
def keccakSqueeze : Nat → List Nat → Nat
  | 0, _ => 0
  | n + 1, st => stateBlock st + (keccakSqueeze n (keccakF st)) <<< 1088

/-- The sponge with rate 136 bytes over `len` message bytes, padding suffix `suffix`, `outLen` bytes out. -/
def keccakSponge (suffix len msg outLen : Nat) : Octets :=
  let blocks := len / 136 + 1
  let padded := msg % 2 ^ (8 * len) + suffix <<< (8 * len) ^^^ (0x80 <<< (8 * (136 * blocks - 1)))
  let st := keccakAbsorb padded blocks ((List.range 25).map fun _ => 0)
  ⟨outLen, keccakSqueeze ((outLen + 135) / 136) st % 2 ^ (8 * outLen)⟩

/-- SHAKE256 with `outLen` bytes of output. -/
def shake256 (m : Octets) (outLen : Nat) : Octets := keccakSponge 0x1F m.len m.bits outLen

/-- The number of bytes that `v` needs, at least 1. -/
def byteCount (v : Nat) : Nat := v.log2 / 8 + 1

/-- left_encode of SP 800-185. -/
def leftEncode (v : Nat) : List Nat := byteCount v :: bytesMsb (byteCount v) v

/-- right_encode of SP 800-185. -/
def rightEncode (v : Nat) : List Nat := bytesMsb (byteCount v) v ++ [byteCount v]

/-- encode_string of SP 800-185. -/
def encodeString (o : Octets) : List Nat := leftEncode (8 * o.len) ++ o.bytes

/-- bytepad of SP 800-185 with the rate of the 256-bit functions. -/
def bytePad (bs : List Nat) : List Nat :=
  let z := leftEncode 136 ++ bs
  z ++ List.replicate ((136 - z.length % 136) % 136) 0

/-- The bytes of an ASCII text. -/
def ascii (t : String) : Octets := octets (t.toList.map Char.toNat)

/-- KMAC256 of `m` under `key` with a customisation string, `outLen` bytes of output. -/
def kmac256 (key m : Octets) (outLen : Nat) (custom : String) : Octets :=
  let head := bytePad (encodeString (ascii "KMAC") ++ encodeString (ascii custom))
  let body := bytePad (encodeString key) ++ m.bytes ++ rightEncode (8 * outLen)
  let all := octets (head ++ body)
  keccakSponge 0x04 all.len all.bits outLen

/-- One bit of a CRC register with the polynomial `poly` of `w` bits, the message taken most significant bit first. -/
def crcBit (w poly crc : Nat) (b : Bool) : Nat :=
  let top := crc.testBit (w - 1) != b
  ((crc <<< 1) % 2 ^ w) ^^^ (if top then poly else 0)

/-- The CRC of bits `n - 1` down to 0 of `v`. -/
def crcMsb (w poly : Nat) (v : Nat) : Nat → Nat → Nat
  | 0, crc => crc
  | n + 1, crc => crcMsb w poly v n (crcBit w poly crc (v.testBit n))

/-- One bit of a reflected CRC register. -/
def crcBitRef (poly crc : Nat) (b : Bool) : Nat :=
  let low := crc.testBit 0 != b
  (crc / 2) ^^^ (if low then poly else 0)

/-- The reflected CRC of `n` bits of `v`, least significant bit first. -/
def crcLsb (poly : Nat) : Nat → Nat → Nat → Nat
  | 0, _, crc => crc
  | n + 1, v, crc => crcLsb poly n (v / 2) (crcBitRef poly crc (v.testBit 0))

/-- The CRC-16 of the bond over `n` bytes of `v`: generator 1021h, initial value FFFFh, no final inversion (R283). -/
def crc16 (v n : Nat) : Nat := (bytesOf n v).foldl (fun c b => crcMsb 16 0x1021 b 8 c) 0xFFFF

/-- The CRC-32 of IEEE 802.3 over `n` bytes of `v` (Table 9.2, Table 10.3). -/
def crc32 (v n : Nat) : Nat := crcLsb 0xEDB88320 (8 * n) v 0xFFFFFFFF ^^^ 0xFFFFFFFF

end Sys2Proof.Machine
end

