-- ==== Sys2Proof/Machine/Objects.lean ====
section
/-! DEFINITION. The object dictionary: one row for each line of the spec's object tables (Tables 3.11, 6.7, 7.7, 12.11,
14.10 and those of the other chapters), with type, length, access code, accessor classes and default (R15, R400). -/
namespace Sys2Proof.Machine

/-- A line of an object table: index range, subindex range, type code of Table 12.3, bytes (0 for a TAB), access code
(1 RO, 2 RW, 3 RWS, 4 RWP, 5 WO), accessor mask (1 operator, 2 host, 4 peer), default. -/
structure ObjRow where
  lo : Nat
  hi : Nat
  subLo : Nat
  subHi : Nat
  ty : Nat
  len : Nat
  access : Nat
  mask : Nat
  dflt : Nat
deriving DecidableEq, Repr

/-- The objects of Table 2.8. -/
def objectsNumbers : List ObjRow :=
  [⟨0x6500, 0x6500, 0, 0, 2, 1, 1, 3, 16⟩,
   ⟨0x6500, 0x6500, 1, 16, 1, 1, 3, 3, 0⟩,
   ⟨0x6501, 0x6501, 0, 0, 2, 1, 1, 3, 16⟩,
   ⟨0x6501, 0x6501, 1, 16, 2, 1, 1, 3, 0⟩]

/-- The objects of Table 3.11. -/
def objectsMast : List ObjRow :=
  [⟨0x2320, 0x232F, 0, 0, 2, 1, 1, 3, 192⟩,
   ⟨0x2320, 0x232F, 1, 192, 2, 1, 2, 3, 2⟩,
   ⟨0x2330, 0x233F, 1, 192, 2, 1, 1, 3, 3⟩,
   ⟨0x3800, 0x380F, 1, 1, 5, 8, 1, 3, 0⟩,
   ⟨0x3800, 0x380F, 2, 2, 5, 8, 1, 3, 0⟩,
   ⟨0x3800, 0x380F, 3, 3, 5, 8, 1, 3, 0⟩,
   ⟨0x3800, 0x380F, 4, 4, 4, 4, 1, 3, 0⟩,
   ⟨0x3800, 0x380F, 5, 5, 4, 4, 1, 3, 0⟩,
   ⟨0x3800, 0x380F, 6, 6, 4, 4, 1, 3, 0⟩,
   ⟨0x7130, 0x7130, 0, 0, 2, 1, 1, 3, 16⟩,
   ⟨0x7130, 0x7130, 1, 16, 5, 8, 3, 3, 0⟩]

/-- The objects of chapter 4. -/
def objectsMainsail : List ObjRow :=
  [⟨0x3840, 0x384F, 0, 0, 2, 1, 1, 3, 9⟩,
   ⟨0x3840, 0x384F, 1, 1, 5, 8, 1, 3, 0⟩,
   ⟨0x3840, 0x384F, 2, 2, 5, 8, 1, 3, 0⟩,
   ⟨0x3840, 0x384F, 3, 3, 5, 8, 1, 3, 0⟩,
   ⟨0x3840, 0x384F, 4, 4, 5, 8, 1, 3, 0⟩,
   ⟨0x3840, 0x384F, 5, 5, 5, 8, 1, 3, 0⟩,
   ⟨0x3840, 0x384F, 6, 6, 5, 8, 1, 3, 0⟩,
   ⟨0x3840, 0x384F, 7, 7, 4, 4, 1, 3, 0⟩,
   ⟨0x3840, 0x384F, 8, 8, 4, 4, 1, 3, 0⟩,
   ⟨0x3840, 0x384F, 9, 9, 4, 4, 1, 3, 0⟩]

/-- The objects of chapter 5. -/
def objectsJib : List ObjRow :=
  [⟨0x3850, 0x385F, 0, 0, 2, 1, 1, 3, 8⟩,
   ⟨0x3850, 0x385F, 1, 1, 5, 8, 1, 3, 0⟩,
   ⟨0x3850, 0x385F, 2, 2, 5, 8, 1, 3, 0⟩,
   ⟨0x3850, 0x385F, 3, 3, 5, 8, 1, 3, 0⟩,
   ⟨0x3850, 0x385F, 4, 4, 5, 8, 1, 3, 0⟩,
   ⟨0x3850, 0x385F, 5, 5, 5, 8, 1, 3, 0⟩,
   ⟨0x3850, 0x385F, 6, 6, 5, 8, 1, 3, 0⟩,
   ⟨0x3850, 0x385F, 7, 7, 4, 4, 1, 3, 0⟩,
   ⟨0x3850, 0x385F, 8, 8, 4, 4, 1, 3, 0⟩]

/-- The objects of Table 6.7. -/
def objectsMemory : List ObjRow :=
  [⟨0x3000, 0x300F, 0, 0, 2, 1, 1, 3, 8⟩,
   ⟨0x3000, 0x300F, 1, 1, 5, 8, 1, 3, 0⟩,
   ⟨0x3000, 0x300F, 2, 2, 4, 4, 1, 3, 0⟩,
   ⟨0x3000, 0x300F, 3, 3, 4, 4, 1, 3, 0⟩,
   ⟨0x3000, 0x300F, 4, 4, 2, 1, 1, 3, 0⟩,
   ⟨0x3000, 0x300F, 5, 5, 2, 1, 1, 3, 0⟩,
   ⟨0x3000, 0x300F, 6, 6, 2, 1, 1, 3, 0⟩,
   ⟨0x3000, 0x300F, 7, 7, 4, 4, 1, 3, 0⟩,
   ⟨0x3000, 0x300F, 8, 8, 2, 1, 3, 1, 95⟩,
   ⟨0x3100, 0x310F, 0, 0, 2, 1, 1, 3, 5⟩,
   ⟨0x3100, 0x310F, 1, 1, 4, 4, 1, 3, 0⟩,
   ⟨0x3100, 0x310F, 2, 2, 4, 4, 1, 3, 0⟩,
   ⟨0x3100, 0x310F, 3, 3, 5, 8, 1, 3, 0⟩,
   ⟨0x3100, 0x310F, 4, 4, 5, 8, 1, 3, 0⟩,
   ⟨0x3100, 0x310F, 5, 5, 5, 8, 1, 3, 0⟩,
   ⟨0x3180, 0x3180, 1, 1, 3, 2, 3, 1, 4096⟩,
   ⟨0x3200, 0x320F, 0, 0, 2, 1, 1, 3, 6⟩,
   ⟨0x3200, 0x320F, 1, 1, 5, 8, 1, 3, 0⟩,
   ⟨0x3200, 0x320F, 2, 2, 5, 8, 1, 3, 0⟩,
   ⟨0x3200, 0x320F, 3, 3, 5, 8, 1, 3, 0⟩,
   ⟨0x3200, 0x320F, 4, 4, 5, 8, 1, 3, 0⟩,
   ⟨0x3200, 0x320F, 5, 5, 5, 8, 1, 3, 0⟩,
   ⟨0x3200, 0x320F, 6, 6, 4, 4, 1, 3, 0⟩,
   ⟨0x3280, 0x328F, 0, 0, 2, 1, 1, 3, 6⟩]

/-- The objects of Table 6.7, continued. -/
def objectsMemoryA : List ObjRow :=
  [⟨0x3280, 0x328F, 1, 6, 5, 8, 1, 3, 0⟩,
   ⟨0x3290, 0x3290, 1, 1, 1, 1, 3, 3, 1⟩,
   ⟨0x3290, 0x3290, 2, 2, 2, 1, 3, 3, 16⟩,
   ⟨0x3300, 0x330F, 0, 0, 2, 1, 1, 3, 4⟩,
   ⟨0x3300, 0x330F, 1, 1, 5, 8, 1, 3, 0⟩,
   ⟨0x3300, 0x330F, 2, 2, 3, 2, 1, 3, 65535⟩,
   ⟨0x3300, 0x330F, 3, 3, 4, 4, 1, 3, 0⟩,
   ⟨0x3300, 0x330F, 4, 4, 4, 4, 1, 3, 0⟩,
   ⟨0x3400, 0x3400, 1, 16, 4, 4, 1, 3, 0⟩,
   ⟨0x3400, 0x3400, 17, 17, 4, 4, 1, 3, 0⟩,
   ⟨0x7110, 0x711F, 0, 0, 2, 1, 1, 3, 16⟩,
   ⟨0x7110, 0x711F, 1, 16, 5, 8, 3, 3, 0⟩]

/-- The objects of Table 7.7. -/
def objectsTraining : List ObjRow :=
  [⟨0x3500, 0x350F, 0, 0, 2, 1, 1, 3, 64⟩,
   ⟨0x3500, 0x350F, 1, 64, 10, 32, 3, 3, 0⟩,
   ⟨0x3600, 0x360F, 0, 0, 2, 1, 1, 3, 10⟩,
   ⟨0x3600, 0x360F, 1, 1, 5, 8, 1, 3, 0⟩,
   ⟨0x3600, 0x360F, 2, 2, 5, 8, 1, 3, 0⟩,
   ⟨0x3600, 0x360F, 3, 3, 4, 4, 1, 3, 0⟩,
   ⟨0x3600, 0x360F, 4, 4, 4, 4, 1, 3, 0⟩,
   ⟨0x3600, 0x360F, 5, 5, 4, 4, 1, 3, 0⟩,
   ⟨0x3600, 0x360F, 6, 6, 5, 8, 1, 3, 0⟩,
   ⟨0x3600, 0x360F, 7, 7, 5, 8, 1, 3, 0⟩,
   ⟨0x3600, 0x360F, 8, 8, 5, 8, 1, 3, 0⟩,
   ⟨0x3600, 0x360F, 9, 9, 4, 4, 1, 3, 0⟩,
   ⟨0x3600, 0x360F, 10, 10, 4, 4, 1, 3, 0⟩,
   ⟨0x3610, 0x361F, 0, 0, 2, 1, 1, 3, 16⟩,
   ⟨0x3610, 0x361F, 1, 16, 3, 2, 3, 3, 0⟩,
   ⟨0x3620, 0x3620, 1, 16, 1, 1, 1, 3, 0⟩,
   ⟨0x6000, 0x600F, 0, 0, 2, 1, 1, 3, 5⟩,
   ⟨0x6000, 0x600F, 1, 1, 5, 8, 3, 3, 0⟩,
   ⟨0x6000, 0x600F, 2, 2, 3, 2, 3, 3, 0⟩,
   ⟨0x6000, 0x600F, 3, 3, 3, 2, 3, 3, 0⟩,
   ⟨0x6000, 0x600F, 4, 4, 3, 2, 3, 3, 64⟩,
   ⟨0x6000, 0x600F, 5, 5, 1, 1, 3, 3, 1⟩,
   ⟨0x6100, 0x610F, 1, 5, 5, 8, 1, 3, 0⟩,
   ⟨0x6100, 0x610F, 6, 6, 4, 4, 1, 3, 0⟩]

/-- The objects of Table 7.7, continued. -/
def objectsTrainingA : List ObjRow :=
  [⟨0x6100, 0x610F, 7, 7, 5, 8, 1, 3, 0⟩,
   ⟨0x6180, 0x618F, 1, 8, 3, 2, 3, 3, 65535⟩,
   ⟨0x6190, 0x619F, 1, 8, 11, 0, 1, 3, 0⟩]

/-- The objects of chapter 8. -/
def objectsTrim : List ObjRow :=
  [⟨0x6300, 0x633F, 0, 0, 2, 1, 1, 3, 14⟩,
   ⟨0x6300, 0x633F, 1, 1, 2, 1, 3, 1, 255⟩,
   ⟨0x6300, 0x633F, 2, 2, 4, 4, 3, 3, 0⟩,
   ⟨0x6300, 0x633F, 3, 3, 7, 4, 3, 3, 0⟩,
   ⟨0x6300, 0x633F, 4, 4, 7, 4, 3, 3, 0⟩,
   ⟨0x6300, 0x633F, 5, 5, 7, 4, 3, 3, 0⟩,
   ⟨0x6300, 0x633F, 6, 6, 7, 4, 3, 3, 0⟩,
   ⟨0x6300, 0x633F, 7, 7, 7, 4, 3, 3, 0⟩,
   ⟨0x6300, 0x633F, 8, 8, 7, 4, 3, 3, 0⟩,
   ⟨0x6300, 0x633F, 9, 9, 7, 4, 3, 3, 0⟩,
   ⟨0x6300, 0x633F, 10, 10, 7, 4, 3, 3, 0⟩,
   ⟨0x6300, 0x633F, 11, 11, 7, 4, 3, 3, 0⟩,
   ⟨0x6300, 0x633F, 12, 12, 7, 4, 3, 3, 0⟩,
   ⟨0x6300, 0x633F, 13, 13, 7, 4, 3, 3, 1065353216⟩,
   ⟨0x6300, 0x633F, 14, 14, 4, 4, 1, 3, 0⟩,
   ⟨0x6340, 0x634F, 0, 0, 2, 1, 1, 3, 2⟩,
   ⟨0x6340, 0x634F, 1, 1, 5, 8, 3, 3, 0⟩,
   ⟨0x6340, 0x634F, 2, 2, 3, 2, 3, 3, 0⟩,
   ⟨0x6350, 0x635F, 0, 0, 2, 1, 1, 3, 11⟩,
   ⟨0x6350, 0x635F, 1, 1, 5, 8, 1, 3, 0⟩,
   ⟨0x6350, 0x635F, 2, 2, 5, 8, 1, 3, 0⟩,
   ⟨0x6350, 0x635F, 3, 3, 4, 4, 1, 3, 0⟩,
   ⟨0x6350, 0x635F, 4, 4, 4, 4, 1, 3, 0⟩,
   ⟨0x6350, 0x635F, 5, 5, 4, 4, 1, 3, 0⟩]

/-- The objects of chapter 8, continued. -/
def objectsTrimA : List ObjRow :=
  [⟨0x6350, 0x635F, 6, 6, 5, 8, 1, 3, 0⟩,
   ⟨0x6350, 0x635F, 7, 7, 5, 8, 1, 3, 0⟩,
   ⟨0x6350, 0x635F, 8, 8, 5, 8, 1, 3, 0⟩,
   ⟨0x6350, 0x635F, 9, 9, 5, 8, 1, 3, 0⟩,
   ⟨0x6350, 0x635F, 10, 10, 5, 8, 1, 3, 0⟩,
   ⟨0x6350, 0x635F, 11, 11, 4, 4, 1, 3, 0⟩,
   ⟨0x6360, 0x6360, 1, 1, 4, 4, 3, 1, 32768⟩]

/-- The objects of chapter 9. -/
def objectsRatline : List ObjRow :=
  [⟨0x4800, 0x480F, 0, 0, 2, 1, 1, 3, 24⟩,
   ⟨0x4800, 0x480F, 1, 4, 2, 1, 1, 3, 0⟩,
   ⟨0x4800, 0x480F, 5, 8, 2, 1, 1, 3, 0⟩,
   ⟨0x4800, 0x480F, 9, 12, 5, 8, 1, 3, 0⟩,
   ⟨0x4800, 0x480F, 13, 16, 5, 8, 1, 3, 0⟩,
   ⟨0x4800, 0x480F, 17, 20, 5, 8, 1, 3, 0⟩,
   ⟨0x4800, 0x480F, 21, 24, 4, 4, 1, 3, 0⟩,
   ⟨0x4820, 0x4820, 1, 1, 4, 4, 3, 1, 1000⟩,
   ⟨0x4820, 0x4820, 2, 2, 4, 4, 3, 1, 1000⟩,
   ⟨0x4830, 0x4830, 0, 0, 2, 1, 1, 3, 24⟩,
   ⟨0x4830, 0x4830, 1, 24, 2, 1, 3, 1, 0⟩,
   ⟨0x4840, 0x4840, 0, 0, 2, 1, 1, 3, 13⟩,
   ⟨0x4840, 0x4840, 1, 13, 2, 1, 3, 1, 0⟩,
   ⟨0x4900, 0x490F, 0, 0, 2, 1, 1, 3, 196⟩,
   ⟨0x4900, 0x490F, 1, 1, 5, 8, 1, 3, 0⟩,
   ⟨0x4900, 0x490F, 2, 2, 5, 8, 1, 3, 0⟩,
   ⟨0x4900, 0x490F, 3, 3, 2, 1, 1, 3, 0⟩,
   ⟨0x4900, 0x490F, 4, 4, 2, 1, 1, 3, 0⟩,
   ⟨0x4900, 0x490F, 5, 196, 2, 1, 1, 3, 0⟩]

/-- The objects of chapter 10. -/
def objectsStay : List ObjRow :=
  [⟨0x4000, 0x4000, 0, 0, 2, 1, 1, 7, 6⟩,
   ⟨0x4000, 0x4000, 1, 3, 2, 1, 3, 1, 0⟩,
   ⟨0x4000, 0x4000, 4, 6, 2, 1, 3, 1, 1⟩,
   ⟨0x4010, 0x4016, 0, 0, 2, 1, 1, 3, 18⟩,
   ⟨0x4010, 0x4016, 1, 1, 2, 1, 3, 1, 1⟩,
   ⟨0x4010, 0x4016, 2, 2, 2, 1, 1, 3, 0⟩,
   ⟨0x4010, 0x4016, 3, 3, 2, 1, 1, 3, 0⟩,
   ⟨0x4010, 0x4016, 4, 4, 2, 1, 1, 3, 0⟩,
   ⟨0x4010, 0x4016, 5, 5, 3, 2, 1, 3, 0⟩,
   ⟨0x4010, 0x4016, 6, 6, 2, 1, 1, 3, 0⟩,
   ⟨0x4010, 0x4016, 7, 7, 10, 16, 1, 3, 0⟩,
   ⟨0x4010, 0x4016, 8, 8, 4, 4, 1, 3, 0⟩,
   ⟨0x4010, 0x4016, 9, 9, 4, 4, 1, 3, 0⟩,
   ⟨0x4010, 0x4016, 10, 10, 5, 8, 1, 3, 0⟩,
   ⟨0x4010, 0x4016, 11, 11, 5, 8, 1, 3, 0⟩,
   ⟨0x4010, 0x4016, 12, 12, 5, 8, 1, 3, 0⟩,
   ⟨0x4010, 0x4016, 13, 13, 5, 8, 1, 3, 0⟩,
   ⟨0x4010, 0x4016, 14, 14, 5, 8, 1, 3, 0⟩,
   ⟨0x4010, 0x4016, 15, 15, 5, 8, 1, 3, 0⟩,
   ⟨0x4010, 0x4016, 16, 16, 5, 8, 1, 3, 0⟩,
   ⟨0x4010, 0x4016, 17, 17, 4, 4, 1, 3, 0⟩,
   ⟨0x4010, 0x4016, 18, 18, 4, 4, 1, 3, 0⟩,
   ⟨0x4020, 0x4020, 1, 1, 4, 4, 3, 1, 100⟩,
   ⟨0x4020, 0x4020, 2, 2, 4, 4, 3, 1, 1000⟩]

/-- The objects of chapter 10, continued. -/
def objectsStayA : List ObjRow :=
  [⟨0x4030, 0x4030, 0, 0, 2, 1, 1, 3, 15⟩,
   ⟨0x4030, 0x4030, 1, 15, 3, 2, 3, 1, 0⟩,
   ⟨0x4040, 0x4040, 0, 0, 2, 1, 1, 3, 13⟩,
   ⟨0x4040, 0x4040, 1, 13, 2, 1, 3, 1, 0⟩,
   ⟨0x4050, 0x4050, 0, 0, 2, 1, 1, 1, 64⟩,
   ⟨0x4050, 0x4050, 1, 64, 10, 32, 3, 1, 0⟩,
   ⟨0x4060, 0x4060, 0, 0, 2, 1, 1, 3, 64⟩,
   ⟨0x4060, 0x4060, 1, 64, 11, 0, 1, 3, 0⟩]

/-- The objects of chapter 11. -/
def objectsPlan : List ObjRow :=
  [⟨0x5000, 0x503F, 0, 0, 2, 1, 1, 3, 4⟩,
   ⟨0x5000, 0x503F, 1, 1, 10, 32, 3, 3, 0⟩,
   ⟨0x5000, 0x503F, 2, 2, 11, 0, 3, 3, 0⟩,
   ⟨0x5000, 0x503F, 3, 3, 4, 4, 1, 3, 0⟩,
   ⟨0x5000, 0x503F, 4, 4, 2, 1, 1, 3, 0⟩,
   ⟨0x5040, 0x507F, 0, 0, 2, 1, 1, 3, 64⟩,
   ⟨0x5040, 0x507F, 1, 64, 5, 8, 3, 3, 0⟩,
   ⟨0x5080, 0x50BF, 0, 0, 2, 1, 1, 3, 35⟩,
   ⟨0x5080, 0x50BF, 1, 1, 2, 1, 1, 3, 0⟩,
   ⟨0x5080, 0x50BF, 2, 2, 2, 1, 1, 3, 0⟩,
   ⟨0x5080, 0x50BF, 3, 3, 2, 1, 1, 3, 0⟩,
   ⟨0x5080, 0x50BF, 4, 35, 4, 4, 1, 3, 0⟩,
   ⟨0x50C0, 0x50C0, 0, 0, 2, 1, 1, 3, 64⟩,
   ⟨0x50C0, 0x50C0, 1, 64, 2, 1, 2, 3, 0⟩,
   ⟨0x50D0, 0x50D0, 1, 1, 4, 4, 1, 3, 0⟩,
   ⟨0x50D0, 0x50D0, 2, 2, 4, 4, 1, 3, 0⟩,
   ⟨0x50D0, 0x50D0, 3, 3, 4, 4, 1, 3, 0⟩,
   ⟨0x50D0, 0x50D0, 4, 4, 5, 8, 1, 3, 0⟩,
   ⟨0x50D0, 0x50D0, 5, 5, 5, 8, 1, 3, 0⟩,
   ⟨0x50D0, 0x50D0, 6, 6, 4, 4, 1, 3, 0⟩,
   ⟨0x50D0, 0x50D0, 7, 7, 4, 4, 1, 3, 0⟩,
   ⟨0x50D0, 0x50D0, 8, 8, 5, 8, 1, 3, 0⟩,
   ⟨0x50D0, 0x50D0, 9, 9, 4, 4, 1, 3, 0⟩,
   ⟨0x5100, 0x510F, 0, 0, 2, 1, 1, 3, 3⟩]

/-- The objects of chapter 11, continued. -/
def objectsPlanA : List ObjRow :=
  [⟨0x5100, 0x510F, 1, 1, 2, 1, 3, 3, 1⟩,
   ⟨0x5100, 0x510F, 2, 2, 2, 1, 3, 3, 2⟩,
   ⟨0x5100, 0x510F, 3, 3, 2, 1, 3, 3, 3⟩]

/-- The objects of Table 12.11. -/
def objectsChoan : List ObjRow :=
  [⟨0x1000, 0x1000, 0, 0, 2, 1, 1, 7, 11⟩,
   ⟨0x1000, 0x1000, 1, 1, 9, 16, 1, 7, 22035666100508228⟩,
   ⟨0x1000, 0x1000, 2, 2, 9, 16, 1, 7, 83843504555354⟩,
   ⟨0x1000, 0x1000, 3, 3, 9, 16, 1, 7, 0⟩,
   ⟨0x1000, 0x1000, 4, 4, 2, 1, 1, 7, 0⟩,
   ⟨0x1000, 0x1000, 5, 5, 2, 1, 1, 7, 0⟩,
   ⟨0x1000, 0x1000, 6, 6, 9, 2, 1, 7, 0⟩,
   ⟨0x1000, 0x1000, 7, 7, 5, 8, 1, 7, 0⟩,
   ⟨0x1000, 0x1000, 8, 8, 2, 1, 1, 7, 2⟩,
   ⟨0x1000, 0x1000, 9, 9, 10, 16, 1, 7, 0⟩,
   ⟨0x1000, 0x1000, 10, 10, 3, 2, 1, 7, 0⟩,
   ⟨0x1000, 0x1000, 11, 11, 11, 0, 1, 7, 0⟩,
   ⟨0x1010, 0x1010, 1, 3, 4, 4, 1, 7, 0⟩,
   ⟨0x1010, 0x1010, 4, 4, 3, 2, 1, 7, 513⟩,
   ⟨0x1010, 0x1010, 5, 5, 2, 1, 1, 7, 1⟩,
   ⟨0x1020, 0x1020, 0, 0, 2, 1, 1, 3, 10⟩,
   ⟨0x1020, 0x1020, 1, 1, 10, 6, 1, 3, 0⟩,
   ⟨0x1020, 0x1020, 2, 2, 3, 2, 4, 1, 29140⟩,
   ⟨0x1020, 0x1020, 3, 3, 10, 16, 4, 1, 0⟩,
   ⟨0x1020, 0x1020, 4, 4, 2, 1, 4, 1, 64⟩,
   ⟨0x1020, 0x1020, 5, 5, 4, 4, 4, 1, 0⟩,
   ⟨0x1020, 0x1020, 6, 6, 2, 1, 4, 1, 24⟩,
   ⟨0x1020, 0x1020, 7, 7, 10, 16, 4, 1, 0⟩,
   ⟨0x1020, 0x1020, 8, 8, 4, 4, 4, 1, 0⟩]

/-- The objects of Table 12.11, continued. -/
def objectsChoanA : List ObjRow :=
  [⟨0x1020, 0x1020, 9, 9, 2, 1, 1, 3, 0⟩,
   ⟨0x1020, 0x1020, 10, 10, 2, 1, 1, 3, 0⟩,
   ⟨0x1030, 0x1030, 1, 8, 10, 16, 4, 1, 0⟩,
   ⟨0x1040, 0x1040, 1, 3, 4, 4, 1, 3, 0⟩,
   ⟨0x1A00, 0x1A00, 1, 1, 4, 4, 1, 3, 0⟩,
   ⟨0x1A00, 0x1A00, 2, 2, 4, 4, 1, 3, 0⟩,
   ⟨0x1A00, 0x1A00, 3, 3, 4, 4, 1, 3, 0⟩,
   ⟨0x1A00, 0x1A00, 4, 19, 4, 4, 1, 3, 0⟩,
   ⟨0x1F00, 0x1F00, 0, 0, 2, 1, 1, 3, 4⟩,
   ⟨0x1F00, 0x1F00, 1, 1, 4, 4, 5, 3, 0⟩,
   ⟨0x1F00, 0x1F00, 2, 2, 1, 1, 5, 3, 0⟩,
   ⟨0x1F00, 0x1F00, 3, 3, 3, 2, 1, 3, 0⟩,
   ⟨0x1F00, 0x1F00, 4, 4, 10, 32, 5, 3, 0⟩,
   ⟨0x1F01, 0x1F01, 0, 0, 2, 1, 1, 3, 8⟩,
   ⟨0x1F01, 0x1F01, 1, 8, 10, 32, 1, 3, 0⟩,
   ⟨0x1F10, 0x1F10, 1, 1, 10, 32, 1, 3, 0⟩,
   ⟨0x1F10, 0x1F10, 2, 2, 10, 32, 1, 3, 0⟩]

/-- The objects of chapter 13. -/
def objectsPower : List ObjRow :=
  [⟨0x2000, 0x2000, 0, 0, 2, 1, 1, 3, 7⟩,
   ⟨0x2000, 0x2000, 1, 1, 2, 1, 1, 7, 1⟩,
   ⟨0x2000, 0x2000, 2, 2, 5, 8, 1, 3, 0⟩,
   ⟨0x2000, 0x2000, 3, 3, 3, 2, 1, 3, 0⟩,
   ⟨0x2000, 0x2000, 4, 4, 3, 2, 1, 3, 0⟩,
   ⟨0x2000, 0x2000, 5, 5, 2, 1, 1, 3, 0⟩,
   ⟨0x2000, 0x2000, 6, 6, 4, 4, 1, 3, 0⟩,
   ⟨0x2000, 0x2000, 7, 7, 4, 4, 1, 3, 0⟩,
   ⟨0x2100, 0x2100, 1, 1, 3, 2, 2, 1, 5600⟩,
   ⟨0x2100, 0x2100, 2, 2, 2, 1, 1, 3, 64⟩,
   ⟨0x2100, 0x2100, 3, 3, 5, 8, 1, 3, 0⟩,
   ⟨0x2100, 0x2100, 4, 4, 4, 4, 1, 3, 0⟩,
   ⟨0x2200, 0x2200, 1, 1, 2, 1, 3, 1, 95⟩,
   ⟨0x2200, 0x2200, 2, 2, 2, 1, 1, 3, 0⟩,
   ⟨0x2200, 0x2200, 3, 3, 3, 2, 1, 3, 0⟩,
   ⟨0x2200, 0x2200, 4, 4, 5, 8, 1, 3, 0⟩,
   ⟨0x2200, 0x2200, 5, 5, 2, 1, 1, 3, 64⟩,
   ⟨0x2400, 0x2400, 1, 16, 2, 1, 3, 1, 0⟩,
   ⟨0x2410, 0x2410, 1, 16, 2, 1, 1, 3, 0⟩,
   ⟨0x2500, 0x2500, 1, 1, 2, 1, 1, 3, 0⟩,
   ⟨0x2500, 0x2500, 2, 2, 3, 2, 1, 3, 0⟩,
   ⟨0x2500, 0x2500, 3, 3, 1, 1, 5, 2, 0⟩,
   ⟨0x2500, 0x2500, 4, 4, 5, 8, 1, 3, 0⟩,
   ⟨0x2500, 0x2500, 5, 5, 2, 1, 1, 3, 0⟩]

/-- The objects of chapter 13, continued. -/
def objectsPowerA : List ObjRow :=
  [⟨0x2600, 0x2600, 1, 1, 2, 1, 5, 1, 0⟩,
   ⟨0x2610, 0x2610, 1, 16, 2, 1, 5, 3, 0⟩,
   ⟨0x2620, 0x2620, 1, 16, 2, 1, 5, 1, 0⟩,
   ⟨0x2630, 0x2630, 1, 7, 2, 1, 5, 1, 0⟩,
   ⟨0x2630, 0x2630, 8, 31, 2, 1, 5, 1, 0⟩,
   ⟨0x2640, 0x2640, 1, 5, 4, 4, 1, 3, 0⟩]

/-- The objects of Table 14.10. -/
def objectsSecurity : List ObjRow :=
  [⟨0x7000, 0x7000, 1, 1, 10, 57, 1, 7, 0⟩,
   ⟨0x7000, 0x7000, 2, 2, 2, 1, 1, 3, 0⟩,
   ⟨0x7000, 0x7000, 3, 4, 3, 2, 1, 3, 0⟩,
   ⟨0x7000, 0x7000, 5, 6, 3, 2, 1, 3, 0⟩,
   ⟨0x7010, 0x7010, 1, 2, 11, 0, 5, 1, 0⟩,
   ⟨0x7010, 0x7010, 3, 3, 2, 1, 1, 1, 0⟩,
   ⟨0x7010, 0x7010, 4, 5, 3, 2, 5, 1, 0⟩,
   ⟨0x7030, 0x7030, 1, 16, 10, 16, 3, 1, 0⟩,
   ⟨0x7040, 0x7040, 1, 1, 3, 2, 4, 1, 64⟩,
   ⟨0x7050, 0x7050, 1, 4, 10, 57, 4, 1, 0⟩,
   ⟨0x7052, 0x7052, 1, 32, 10, 16, 4, 1, 0⟩,
   ⟨0x7070, 0x7070, 1, 1, 10, 32, 5, 3, 0⟩,
   ⟨0x7070, 0x7070, 2, 2, 11, 0, 1, 3, 0⟩,
   ⟨0x7080, 0x7080, 1, 1, 10, 32, 1, 1, 0⟩,
   ⟨0x7080, 0x7080, 2, 2, 11, 0, 5, 1, 0⟩,
   ⟨0x7080, 0x7080, 3, 3, 1, 1, 5, 1, 0⟩,
   ⟨0x7080, 0x7080, 4, 4, 2, 1, 1, 3, 0⟩,
   ⟨0x7100, 0x7100, 1, 16, 1, 1, 3, 1, 0⟩,
   ⟨0x7102, 0x7102, 1, 16, 2, 1, 1, 3, 0⟩,
   ⟨0x7120, 0x712F, 1, 1, 10, 384, 3, 1, 0⟩,
   ⟨0x7140, 0x714F, 1, 1, 3, 2, 3, 1, 0⟩,
   ⟨0x7140, 0x714F, 2, 2, 5, 8, 3, 1, 0⟩,
   ⟨0x7160, 0x7160, 1, 16, 2, 1, 5, 3, 0⟩,
   ⟨0x7170, 0x7170, 1, 6, 4, 4, 1, 3, 0⟩]

/-- The objects of Table 14.10, continued. -/
def objectsSecurityA : List ObjRow :=
  [⟨0x7170, 0x7170, 7, 7, 4, 4, 1, 3, 0⟩,
   ⟨0x7180, 0x7180, 1, 1, 3, 2, 1, 3, 0⟩]

/-- Every object of this package. -/
def allObjects : List ObjRow :=
  objectsNumbers ++
  objectsMast ++
  objectsMainsail ++
  objectsJib ++
  objectsMemory ++
  objectsMemoryA ++
  objectsTraining ++
  objectsTrainingA ++
  objectsTrim ++
  objectsTrimA ++
  objectsRatline ++
  objectsStay ++
  objectsStayA ++
  objectsPlan ++
  objectsPlanA ++
  objectsChoan ++
  objectsChoanA ++
  objectsPower ++
  objectsPowerA ++
  objectsSecurity ++
  objectsSecurityA

/-- The row that describes `idx:sub`. -/
def objRow (idx sub : Nat) : Option ObjRow :=
  allObjects.find? fun r => r.lo ≤ idx && idx ≤ r.hi && r.subLo ≤ sub && sub ≤ r.subHi

/-- Whether the package has the index at all. -/
def objExists (idx : Nat) : Bool := allObjects.any fun r => r.lo ≤ idx && idx ≤ r.hi

/-- The highest subindex of an index. -/
def objTop (idx : Nat) : Nat :=
  allObjects.foldl (fun m r => if r.lo ≤ idx && idx ≤ r.hi then max m r.subHi else m) 0

/-- The key of `idx:sub` in the dictionary store. -/
def objKey (idx sub : Nat) : Nat := 256 * idx + sub

/-- Defaults that an object table refers elsewhere: the channel weights and reserves of 4030h, 4040h and 4840h by
virtual channel, the first permission entry (R326), the first host context (R463). -/
def objDefaultSpecial (idx sub : Nat) : Option Nat :=
  if (idx = 0x4840 ∨ idx = 0x4040) ∧ 1 ≤ sub ∧ sub ≤ 13 then
    some (if sub ≤ 8 then 8 else if sub ≤ 12 then 4 else 32)
  else if idx = 0x4030 ∧ 1 ≤ sub ∧ sub ≤ 15 then
    some (if sub ≤ 2 then 64 else if sub ≤ 10 then 1024 else if sub ≤ 14 then 256 else 1024)
  else if idx = 0x4050 ∧ sub = 1 then
    some ((2 ^ 6 - 1) * 2 ^ 74 + (2 ^ 14 - 1) * 2 ^ 81 + 2 ^ 119)
  else if idx = 0x7030 ∧ sub = 1 then
    some (64 * 2 ^ 64 + 0xFFFF * 2 ^ 96 + 0xFFFF * 2 ^ 112)
  else none

/-- The default of `idx:sub`. -/
def objDefault (idx sub : Nat) : Octets :=
  match objRow idx sub with
  | none => ⟨0, 0⟩
  | some r => ⟨r.len, (objDefaultSpecial idx sub).getD r.dflt⟩

end Sys2Proof.Machine
end

