-- ==== Sys2Proof/Machine/State.lean ====
section
/-! DEFINITION. The state of the package: every register, buffer, queue, counter and mode that the spec names, as plain
data, the queue of waiting commands, the ways a command can stop, and the state after reset. -/
namespace Sys2Proof.Machine

/-- Why the machine stops with a fault: nothing stops it. A host error that the spec calls unpredictable leaves the unit
that met it stuck, and the rest of the package goes on (R123, log 51). -/
inductive Fault where
deriving DecidableEq, Repr

/-- Why a command is refused. -/
inductive Refusal where
  /-- A command whose meaning is not modelled: raised by an arm of `exec` alone, and by none now. Safe. -/
  | notModelled (mnemonic : String)
deriving DecidableEq, Repr

/-- What leaves the package: kind of carrier, two numbers that address it, the bytes. A record of the model's own. -/
inductive OutKind where
  | status       -- answer to a register write or a host request: a is the requester, b the status of Table 12.4
  | reply        -- Choan datagram to session or address a
  | notice       -- HELLO, EVENT_PUSH
  | peerReply    -- virtual channel 0 reply through port a to coordinate b
  | stayFlit     -- a flit or ordered set on port a, kind b
  | stayMessage  -- a framed message on port a, virtual channel b
  | ratline      -- a flit or control word on ratline direction a, kind b
  | bond         -- a bond signal of mast a, kind b
  | pin          -- a pin, lamp, console or in-band interrupt
  | coreFault    -- an access fault, a load result or the end of a remote access at a lamplighter core
deriving DecidableEq, Repr

structure Output where
  kind : OutKind
  a    : Nat
  b    : Nat
  data : Octets
deriving DecidableEq, Repr

/-- Thread states (Table 3.2). -/
inductive ThreadState where
  | empty | ready | stalled | watching | faulted
deriving DecidableEq, Repr

/-- A posted descriptor: the 512 bits, the jib's layout record, the posting thread, the number of the POST on its mast
(the posting order of R108), the arithmetic mode. -/
structure Posted where
  desc   : Nat
  layout : Nat := 0
  thread : Nat
  num    : Nat
  compat : Bool
deriving DecidableEq, Repr

/-- What a Stalled or Watching thread waits for. -/
inductive Wait where
  | none
  | counter (n d : Nat) (target : Word32)               -- WAITC (R97)
  | result (d : Nat) (value : Word64) (addr : Option Nat)   -- LDM, AMADD, AMSWAP: the value on its way, the word it comes from
  | fetched (d : Nat) (value : Word64) (list : Nat)     -- FETCHW: the value on its way, the list
  | slot (p : Posted)                                   -- POST to a full queue: the descriptor
  | entry (addr : Nat) (expect : Word64) (ticks d : Nat) -- WATCH with all 16 entries in use
  | watch (addr : Nat) (expect : Word64) (deadline : Option Nat) (d : Nat) (hit : Bool)
deriving DecidableEq, Repr

/-- A thread context (R89): registers other than s0, program counter, state, what it waits for, and the arithmetic mode
of its current work item (R104). -/
structure Thread where
  regs  : FMap Word64 := []
  pc    : BitVec 20 := 0#20
  run   : ThreadState := .empty
  wait  : Wait := .none
  item  : Option Bool := Option.none
deriving DecidableEq, Repr

/-- A completion counter with its sticky ERR bit (R96). -/
structure Counter where
  val : Word32 := 0#32
  err : Bool := false
deriving DecidableEq, Repr

/-- A descriptor in execution: what it signals when it completes, and for MESH the bytes in flight. -/
structure Running where
  post    : Posted
  err     : Bool := false
  bytes   : List Host.Cell := []         -- MESH: destination scratchpad bytes on their way
  arrived : Bool := false                -- MESH: written at the destination, or discarded there
  record  : Option Nat := none           -- mainsail: the completion record to post, its SEQ still 0
  summary : Option (Nat × Nat) := none   -- jib: the two summary words
  taken   : Nat := 0                     -- jib: sheet entries to release
deriving DecidableEq, Repr

/-- Mast power states (Table 3.10), and waking (R119). -/
inductive MastPower where
  | lit | shuttered | wick | dark
  | wakingWick            -- from Wick to Lit
  | wakingDark            -- from Dark to Lit
  | wakingToWick          -- from Dark to Wick, without a launch
deriving DecidableEq, Repr

/-- A launch in progress (R106): the address of the entry, the range of the code, the entry's fields, and whether a read
failed. -/
structure Launch where
  entry : Nat
  src   : Nat
  len   : Nat
  valid : Bool
  pc0   : Nat
  arg   : Nat
  cause : Nat             -- 0 while nothing failed; 1 to 3 as 3830h records
deriving DecidableEq, Repr

/-- Accumulator row flags and type (R141). A row that no block and no ACLR has started has type F32, a choice of the model's
(log 55). -/
structure AccRow where
  int    : Bool := false
  inv    : Bool := false
  ovf    : Bool := false
  unf    : Bool := false
  nanin  : Bool := false
  lowInv : Nat := 0       -- lowest column that set INV
  lowNan : Nat := 0
deriving DecidableEq, Repr

/-- One direction of a bond port's data group (R283): the last 8 beats sent, newest first, how many of them the receiver
waits to get again (0 none), and the bits that were wrong in the failed copies of the first of these. -/
structure BondDir where
  held  : List Nat := []
  back  : Nat := 0
  wrong : List Nat := []
deriving DecidableEq, Repr

/-- The bond port of a mast (R280 to R285): retired halves, errors charged in the window, the two directions. -/
structure Bond where
  lowerOut : Bool := false
  upperOut : Bool := false
  lowErr   : Nat := 0
  upErr    : Nat := 0
  sideErr  : Nat := 0
  up       : BondDir := {}
  down     : BondDir := {}
deriving DecidableEq, Repr

/-- A mast. Engines are numbered 0 and 1 halyard streams, 2 mainsail, 3 jib. -/
structure Mast where
  power    : MastPower := .dark
  goal     : Option MastPower := none     -- a pending request for Wick or Dark (R118)
  held     : Bool := false                -- a power-up held until the shut-down ends (R120)
  fenced   : Bool := false                -- R285
  launch   : Option Launch := none
  threads  : FMap Thread := []
  last     : Nat := 511                   -- thread that issued last (R90)
  recent   : List Nat := []               -- threads of the last 7 issues, newest first (R90)
  wild     : Option (Nat × Nat) := none   -- the host error that holds the mast up, as rule and item (R122, R123)
  pad      : FMap Byte := []              -- scratchpad, 1 MiB
  cache    : FMap Byte := []              -- jib operand cache, 64 KiB
  counters : FMap Counter := []
  queues   : FMap (List Posted) := []
  running  : FMap Running := []
  posts    : Nat := 0                     -- POSTs so far, the posting order of R108
  acc      : FMap Word32 := []            -- accumulator element 64 * row + column
  rows     : FMap AccRow := []
  planes   : FMap (List Nat) := []        -- the 64 row words of the stationary planes 0 and 1 (R124)
  plane    : Nat := 0                     -- plane that the next block loads into
  sheet    : List Nat := []               -- sheet queue: completion records, oldest first
  seq      : Nat := 0                     -- SEQ of the next record (R145)
  bond     : Bond := {}
deriving DecidableEq, Repr

/-- Far-cache and cluster-cache line states (Table 6.2); I is no entry. -/
inductive LineState where
  | m | e | s | f
  | pending (prefetch : Bool) (killed used : Bool)
deriving DecidableEq, Repr

structure Line where
  st    : LineState
  stamp : Nat                 -- order of last use
  poison : Bool := false      -- the line holds a poisoned granule half (R199)
  waits : List Nat := []      -- requesters whose demand waits for the fill that is pending (Table 6.2)
  own   : Bool := false       -- a write waits for ownership once the fill is there (Table 6.2)
  watched : Bool := false     -- a WATCH keeps the line Shared (R99)
deriving DecidableEq, Repr

/-- A request for a line on its way to the home, or there (R206, R211): the cache that asks (the home's own for a request
served there), what for, the requester, its age stamp, the granule halves it names. -/
structure LineReq where
  agent  : Nat
  ask    : LineAsk
  who    : Nat
  stamp  : Nat
  halves : List Nat
deriving DecidableEq, Repr

/-- The line's state at the home (R205): held by no cache, shared, or owned in M or E. -/
inductive HomeState where
  | idle | shared | owned
deriving DecidableEq, Repr

/-- A directory entry (R205) with the home's line queue (R206): a transaction in progress and the requests waiting. -/
structure DirEntry where
  st       : HomeState := .idle
  owner    : Option Nat := none
  presence : Nat := 0
  busy     : Option LineReq := none
  waiting  : List LineReq := []
deriving DecidableEq, Repr

/-- A 64-byte request that holds a tracker entry (R209): its granule half, the requester, whether it is a prefetch, whether
it reads, the pilot tick since which it holds the entry. -/
structure Access where
  half  : Nat
  who   : Nat
  pref  : Bool
  read  : Bool
  since : Nat
deriving DecidableEq, Repr

/-- A requester that waits for entries of a pseudo-channel, or was granted them (R211): the age stamp of its oldest refused
request, its number, the entries that request needs, the pilot tick of the grant. -/
structure Waiter where
  stamp : Nat
  who   : Nat
  need  : Nat
  since : Nat := 0
deriving DecidableEq, Repr

/-- One pseudo-channel of a tracker (R209 to R211). -/
structure Tracker where
  order    : List Access := []          -- the requests that hold its entries, oldest first
  waiting  : List Waiter := []
  granted  : List Waiter := []          -- oldest grant first
deriving DecidableEq, Repr

/-- A stream of the prefetcher (R216): last line, direction, run of misses, depth, order of last use. -/
structure Stream where
  line  : Nat
  up    : Bool
  run   : Nat
  depth : Nat
  next  : Nat
  stamp : Nat
deriving DecidableEq, Repr

/-- The hot-channel detector's record of one pseudo-channel (R218). -/
structure HotChannel where
  count  : Nat := 0
  run    : Nat := 0
  posted : Bool := false
  parts  : Nat := 0           -- partitions served in the run
deriving DecidableEq, Repr

/-- A stack: sensor reading, throttle, position of the patrol scrub (R200, R201). -/
structure Stack where
  temp     : Nat := 0
  throttle : Bool := false
  scrub    : Nat := 0
  since    : Nat := 0            -- pilot tick of the last sample
deriving DecidableEq, Repr

/-- Pane states (Table 7.3); a drain knows the plan slot and phase it serves, a held start likewise. -/
inductive PaneState where
  | empty | opened
  | draining (slot phase : Nat)
deriving DecidableEq, Repr

structure Pane where
  st   : PaneState := .empty
  held : List (Nat × Nat) := []      -- held starts, oldest first: plan slot and phase
deriving DecidableEq, Repr

/-- Trim entry states (Table 8.5). -/
inductive TrimState where
  | idle | gathering | awaiting | checking | held | running
deriving DecidableEq, Repr

/-- A trim entry outside Idle: the header recorded (R270), what was noted of it, and what the update sampled as it
entered Checking (R275): the entry's eight words and the group's flags and coefficients. -/
structure Trim where
  st     : TrimState := .idle
  step   : Nat := 0
  fmt    : Nat := 0
  k      : Nat := 0              -- drain exponent as its 8 bits
  differ : Bool := false         -- a header differed in S, format or k
  poison : Bool := false
  cause  : Nat := 0              -- noted for the seal, 0 none
  words  : List Nat := []
  flags  : Nat := 0
  coefs  : List Nat := []        -- subindices 03h to 0Dh of the group
  slot   : Nat := 0              -- target slot while Running
  wild   : Option Nat := none    -- the item of R279 that holds the update up in Checking (log 51)
  landed : Nat := 0              -- bytes that the delivering phase landed (R279)
deriving DecidableEq, Repr

/-- Partition life (Table 14.5). -/
inductive PartState where
  | absent | live | stopped | resetting
deriving DecidableEq, Repr

structure Part where
  st     : PartState := .absent
  key    : Nat := 0              -- interleave key (R192)
  poison : Bool := false         -- step poison (R243)
deriving DecidableEq, Repr

/-- An event record as it is posted (Table 12.9), its number in a ring apart. -/
structure Rec where
  tick   : Nat
  code   : Nat
  plane  : Nat
  cont   : Bool := false
  compound : Bool := false
  part   : Nat
  rseq   : Nat := 0
  unit   : Nat
  utag   : Nat := 0
  detail : Octets
deriving DecidableEq, Repr

/-- An event ring (R36, R420 to R423). -/
structure Ring where
  recs   : List Rec := []        -- oldest first, not yet cleared
  posted : Nat := 0              -- WRIDX
  read   : Nat := 0              -- RDIDX, or the acknowledged RSEQ
  drops  : Nat := 0              -- records dropped since power-up
  owed   : Nat := 0              -- dropped since the last overflow record
  pushed : Nat := 0              -- operator ring: records up to here were sent in EVENT_PUSH (R423)
deriving DecidableEq, Repr

/-- The snapshot ring (R36, R38, R420): the snapshots posted and not yet taken into the dictionary store, oldest first, by
object key; the records dropped; and when the units behind each index posted last. -/
structure SnapRing where
  recs  : List (Nat × (Octets × Nat)) := []
  drops : Nat := 0               -- dropped since power-up
  owed  : Nat := 0               -- dropped since the last overflow record
  last  : FMap Nat := []         -- by index, pilot tick of its last posting
deriving DecidableEq, Repr

/-- A request in the peer mailbox (R33): the port, the requester's coordinate field, the TID, the datagram. -/
structure PeerRequest where
  port : Nat
  src  : Nat
  tid  : Nat
  dg   : Octets
deriving DecidableEq, Repr

/-- A Choan session (R394, R395). -/
structure Session where
  confirmed  : Bool := false
  keyIn      : Octets := ⟨0, 0⟩
  keyOut     : Octets := ⟨0, 0⟩
  transcript : Octets := ⟨0, 0⟩
  leaf       : Nat := 0                      -- the client's Ed448 key
  ident      : Nat := 0                      -- the client's identity digest
  address    : Nat := 0
  top        : Nat := 0                      -- highest SEQ accepted
  seen       : Bool := false                 -- a SEQ has been accepted
  replies    : List (Nat × Octets) := []     -- last 64, newest first
  last       : Nat := 0                      -- tick of the last valid datagram
  subscribed : Bool := false
deriving DecidableEq, Repr

/-- A commit status record (Table 12.6). -/
structure CommitRec where
  num    : Nat := 0            -- the model's own number of the commit
  token  : Nat := 0
  status : Nat := 0
  code   : Nat := 0
  index  : Nat := 0
  sub    : Nat := 0
  detail : Nat := 0
  tick   : Nat := 0
  count  : Nat := 0
deriving DecidableEq, Repr

/-- A stager (R406): stagers 0 to 7 are the sessions' places, 8 to 23 the host contexts. -/
structure Stager where
  set      : FMap Octets := []
  partialValue : Option (Nat × Octets) := none   -- object key and the bytes so far (R401)
  expect   : Nat := 0                            -- 1F00h:04
  records  : List CommitRec := []                -- newest first
  nonce    : Option Octets := none               -- attestation nonce
  report   : Octets := ⟨0, 0⟩                    -- report for that nonce
deriving DecidableEq, Repr

/-- A commit waiting for the gate (R408): its stager, its number and token, when it was asked for, the staging set, the
expected digest (0 none), whether it passed and waits for a reset to end (R450). -/
structure CommitReq where
  stager : Nat
  num    : Nat
  token  : Nat
  since  : Nat
  set    : FMap Octets
  expect : Nat
  passed : Bool := false
deriving DecidableEq, Repr

/-- An accepted commit with deferred values (R412, R413): its stager, its token, the values discarded so far. -/
structure Accepted where
  stager : Nat
  token  : Nat
  lost   : Nat := 0
deriving DecidableEq, Repr

/-- A value of an accepted commit that waits for the plans that use it (R412). -/
structure Deferred where
  num    : Nat
  key    : Nat
  value  : Octets
deriving DecidableEq, Repr

/-- A plan chunk held at its input port (R368, R275). -/
structure HeldChunk where
  port    : Nat
  src     : Nat
  c       : Chunk
  since   : Nat
  unknown : Bool := false        -- its PLANID is loaded in no slot
  counted : Bool := false        -- counted in 6350h:0Bh
deriving DecidableEq, Repr

/-- A plan slot (Table 11.7) and the work of its current phase. State codes are those of 5000h + s:04h. -/
structure Plan where
  st       : Nat := 0
  phase    : Nat := 0
  step     : Nat := 0
  fired    : Nat := 0                       -- pilot tick of the trigger
  missed   : Bool := false                  -- 3130h posted for this phase and step
  splits   : List Nat := []                 -- groups that each rank owns
  vals     : FMap Octets := []              -- own values by die ring, once its source was read
  bad      : List Nat := []                 -- die rings whose own values carry poison
  got      : List Nat := []                 -- receipts committed
  used     : List Nat := []                 -- chunks whose local value was used
  contrib  : FMap (Octets × Bool) := []     -- backup contributions received, with their poison
  fins     : FMap (Octets × Bool × Bool) := []   -- finished sums of this rank's block: bytes, poison, from a placeholder
  served   : FMap Nat := []                 -- shard slot and version served, by phase
  seen     : FMap Nat := []                 -- shard version recorded, by phase and block
  quiet    : Bool := true                   -- every value released in this phase was zero
  released : Nat := 0                       -- values released in this phase
  asked    : Bool := false                  -- at a standby backup: a request came
  freed    : Bool := false                  -- at a standby backup: a release came
deriving DecidableEq, Repr

/-- A chunk that left and is not yet acknowledged by the next port: its slot and phase, the member it goes to, and
whether its whole payload lies in memory (R369). -/
structure SentChunk where
  slot   : Nat
  phase  : Nat
  dst    : Nat
  resend : Bool
  c      : Chunk
deriving DecidableEq, Repr

/-- Physical link and agreement of an external port (R308 to R323, R333, R334). -/
structure PortLink where
  st      : Nat := 0             -- Table 10.6
  width   : Nat := 0
  map     : Nat := 0
  retired : Nat := 0             -- lanes retired, as a mask
  gen     : Nat := 0
  ver     : Nat := 0
  rate    : Nat := 0             -- Gbit/s of the lanes
  latency : Nat := 0
  cause   : Nat := 0
  fails   : Nat := 0             -- failed trainings in a row
  slow    : Bool := false        -- training at 106.25 GBd
  again   : Nat := 0             -- 1 returned to step 2 for a higher rate, 2 that training failed
  keep    : Bool := false        -- retraining from Electrical with its retry buffer kept (R317)
  kept    : Nat := 0             -- identity digest for which that buffer is kept
  trials  : Nat := 0             -- lane rates tried in this training (R323)
  oldW    : Nat := 0             -- width before a retraining
deriving DecidableEq, Repr

/-- A recovery under way of a link, direction or port (R469, R470): its level, the event that its fault would have posted,
and when the fault was detected. -/
structure Recovery where
  level : Nat
  code  : Nat
  since : Nat
deriving DecidableEq, Repr

/-- A dependent pair of faults whose compound record waits for the end of the escalated recovery (R471). -/
structure FaultPair where
  first  : Nat         -- event codes
  second : Nat
  left   : Nat         -- level abandoned
  level  : Nat         -- level entered
  gap    : Nat         -- pilot ticks between the detections
deriving DecidableEq, Repr

/-- What a port knows of its partner (R320 to R327). -/
structure PortPeer where
  nonce      : Octets := ⟨0, 0⟩
  peerNonce  : Octets := ⟨0, 0⟩
  word       : Nat := 0          -- its capability word
  told       : Bool := false     -- that word has come since step 3 began
  peerPort   : Nat := 0
  feat       : Nat := 0
  maxw       : Nat := 0
  transcript : Octets := ⟨0, 0⟩
  leaf       : Nat := 0          -- its Ed448 key
  digest     : Nat := 0
  coord      : Nat := 0          -- x, y, z, 0 as four bytes
  sizes      : Nat := 0
  entry      : Nat := 0          -- permission entry latched at step 6
  valid      : Bool := false     -- its chain and its signature were accepted (R324)
  admitted   : Bool := false     -- it passed step 6, which latched the entry
deriving DecidableEq, Repr

/-- Keys of a port's two directions (R313, R316, R325). -/
structure PortKeys where
  out       : Octets := ⟨0, 0⟩
  inn       : Octets := ⟨0, 0⟩
  oldOut    : Octets := ⟨0, 0⟩
  oldInn    : Octets := ⟨0, 0⟩
  switchOut : Nat := 0           -- data-flit numbers from which the new keys apply
  switchInn : Nat := 0
  secret    : Nat := 0           -- X448 private key of an agreement under way
  epoch     : Nat := 0
  asked     : Bool := false      -- a new agreement is under way
  nextOut   : Octets := ⟨0, 0⟩   -- keys agreed and not yet switched to
  nextInn   : Octets := ⟨0, 0⟩
  keyed     : Nat := 0           -- pilot tick of the last agreement
  flits     : Nat := 0           -- data-flit numbers at the last agreement, both directions together
deriving DecidableEq, Repr

/-- A data flit that waits to leave, or is held for retry: its input (7 is local) and its class there, whether it ends its
message, the plan work it belongs to (0 none), and the first 20 bytes of its message. -/
structure Queued where
  flit : StayFlit
  inp  : Nat
  inCls : Nat := 0
  last : Bool
  mark : Nat := 0
  head : Nat := 0
  old  : Bool := false           -- came in before its input's last training, so its buffer owes no credit
deriving DecidableEq, Repr

/-- The sending direction of a port (R313, R314, R317, R318, R345, R352). -/
structure PortTx where
  next   : Nat := 0                     -- data-flit number of the next flit
  held   : List (Nat × Queued) := []    -- unacknowledged, oldest first
  queue  : List Queued := []
  ctl    : Nat := 0
  used   : FMap Nat := []               -- flits sent, by 4 * VC + class
  credit : FMap Nat := []               -- flits freed by the partner, as its last CREDIT says
  lock   : FMap Nat := []               -- 4 * input + class there + 1 whose message is leaving, by 4 * VC + class
  spill  : FMap Octets := []            -- bytes of that message taken and not yet in a flit (R322), by 4 * VC + class
  spent  : FMap Nat := []               -- flits of each VC from 2 on sent in this round of the arbiter
  low    : Nat := 15                    -- flits of the VCs from 2 on since the last one of VC 0 or 1
  turn   : FMap Nat := []               -- input that a VC served last
  moved  : Nat := 0                     -- pilot tick at which the acknowledgement last advanced
  tries  : Nat := 0                     -- replays of the oldest flit
deriving DecidableEq, Repr

/-- The receiving direction of a port. -/
structure PortRx where
  next    : Nat := 0                    -- data-flit number expected
  ctl     : Nat := 0                    -- last control count accepted
  any     : Bool := false               -- a control flit was accepted
  freed   : FMap Nat := []              -- flits freed, by 4 * VC + class
  taken   : FMap Nat := []              -- flits received into the pool, by 4 * VC + class
  extra   : FMap Nat := []              -- of those, the ones charged to the shared rest of the pool (R318)
  withheld : FMap Nat := []             -- credit withheld in quarantine (R328)
  cut     : List Nat := []              -- 4 * VC + class whose message under way has lost its first flits (R331)
  head    : FMap Nat := []              -- the first 20 bytes of the message under way
  left    : FMap Nat := []              -- bytes left of the message being received, by 4 * VC + class
  part    : FMap Octets := []           -- bytes of that message which ends here
  chunks  : FMap (Nat × Nat) := []      -- by header, delivered plan chunks whose buffers are not yet freed: 4 * VC + class, flits
  naked   : Bool := false               -- a NAK was sent for the flit expected
  tagFail : Nat := 0                    -- tag failures in this window
  wait    : FMap Nat := []              -- pilot tick + 1 since which a VC has waited without credit
deriving DecidableEq, Repr

/-- An external port (R308). -/
structure Port where
  link  : PortLink := {}
  peer  : PortPeer := {}
  keys  : PortKeys := {}
  tx    : PortTx := {}
  rx    : PortRx := {}
  since : Nat := 0               -- pilot tick at which the state was entered
  heard : Nat := 0               -- pilot tick + 1 of the last discovery message sent
  again : Bool := false          -- an enable is held (R346)
  ask   : Nat := 0               -- control words sent and not yet answered: bits 0 WIDTH, 1 SWITCH, 2 KEYSWITCH
  stalled : Bool := false        -- a VC has waited without credit since power-up (4010h + p:10h)
  fecAt : Nat := 0               -- pilot tick at which the window of R333 began
  tagAt : Nat := 0               -- and that of R335
  claim : Option WidthWord := none    -- the partner's width word of a retraining
  recov : Option Recovery := none
  pairs : List FaultPair := []
deriving DecidableEq, Repr

/-- A partner heard by discovery (R338). -/
structure Heard where
  port   : Nat
  digest : Nat
  coord  : Nat
  sizes  : Nat
  word   : Nat
  tick   : Nat
  stale  : Bool := false
deriving DecidableEq, Repr

/-- A direction of a ratline link (R286 to R301): state codes of 4800h, trained width and map, the retired lanes in the
records of its two ends, retry, and the replacement under way. -/
structure RatDir where
  st      : Nat := 0
  width   : Nat := 0
  map     : Nat := 0             -- lanes in use
  agreed  : Nat := 0             -- lanes of the agreed map, spares included
  retR    : Nat := 0             -- retired lanes in the receiver's record
  retT    : Nat := 0             -- and in the transmitter's
  bad     : Nat := 0             -- lanes that failed the electrical test
  fails   : Nat := 0             -- training failures in a row
  since   : Nat := 0
  old     : Nat := 0             -- width before a retraining
  errors  : FMap Nat := []       -- errors charged in this window, by lane
  window  : Nat := 0             -- pilot tick at which the window began
  phase   : Nat := 0             -- which of the lanes in use takes the next bit of the stream (R287)
  before  : Nat := 0             -- the state before RE-ENABLE PENDING (R305)
deriving DecidableEq, Repr

/-- Retry, credit and lane replacement of a ratline direction. -/
structure RatFlow where
  sent    : Nat := 0             -- data flits sent
  held    : List (Nat × RatBody) := []
  next    : Nat := 0             -- data flit expected
  replay  : List (Nat × RatBody) := []   -- held flits that the sender is about to send again, oldest first
  failed  : List (Nat × List Nat) := []  -- flits that failed their CRC: number, the lanes that carried a wrong bit
  nak     : Bool := false        -- a NAK was sent for the flit expected
  naks    : List Nat := []       -- the numbers that the NAKs on their way name
  moved   : Nat := 0
  used    : FMap Nat := []       -- flits sent since training, by buffer class: 4 * VC, + 1 a response, + 2 on a detour
  freed   : FMap Nat := []       -- flits freed since training
  known   : FMap Nat := []       -- as the sender's last CREDIT says
  swap    : Option (Nat × Nat) := none   -- lane being replaced, its spare
  swapSeq : Nat := 0             -- the number that RETIRE names
  asked   : Nat := 0             -- control word sent and not answered: 1 RETIRE, 2 WIDTH, 3 SWITCH
  claimed : Option WidthWord := none     -- the transmitter's word of a map exchange
  recov : Option Recovery := none
  pairs : List FaultPair := []
  waiting : List Nat := []       -- lanes over threshold that wait for their turn (R294)
deriving DecidableEq, Repr

/-- A request of a port that has not taken effect or is not answered (R354): a number of its own, the port, the source, what
it is (0 posted write, 1 read, 2 write), its message, the partition whose window admits it, whether its accesses are under
way, and their outcome. -/
structure Remote where
  id    : Nat
  port  : Nat
  kind  : Nat
  msg   : RemoteMsg
  part  : Nat
  under : Bool := false
  val   : Nat := 0
  err   : Bool := false
deriving DecidableEq, Repr

/-- A load of a lamplighter core that waits for its line in the cluster cache (R32): the core, the address, the bytes, the value
on its way. -/
structure CoreLoad where
  core : Nat
  addr : Nat
  len  : Nat
  val  : Nat
deriving DecidableEq, Repr

/-- A slot of the host mailbox (R398). -/
structure MailSlot where
  ctx : Nat
deriving DecidableEq, Repr

/-- A reset in progress (R448 to R450): kind 1 package, 2 partition, 3 domain, 4 port; scope; for a domain its state before
(Table 13.5); when it began; the resets absorbed. -/
structure Reset where
  kind     : Nat
  scope    : Nat
  before   : Nat := 0
  since    : Nat
  absorbed : Nat := 0
deriving DecidableEq, Repr

/-- The cap controller, thermal controller and input monitor (R436 to R442). -/
structure Power where
  cap      : Nat := 64           -- cap ceiling
  above    : Nat := 0            -- evaluations in a row above the cap (the controller's over)
  atOne    : Nat := 0            -- evaluations in a row at ceiling 1 above the cap
  samples  : List Nat := []      -- last 25, newest first
  sampled  : Nat := 0            -- pilot tick of the last sample
  edge     : Nat := 0            -- pilot tick of the last evaluation, or of the last edge on which a cap took effect
  window   : Nat := 0            -- pilot tick at which the last thermal window ended
  calm     : Nat := 0            -- pilot tick at which the cap ceiling last came back to 64
  posted   : Bool := false       -- POWER_CAP_ENGAGED was posted
  began    : Nat := 0            -- pilot tick at which the thermal ceiling left 64
  readings : FMap Nat := []      -- by sensor
deriving DecidableEq, Repr

/-- A firmware bank (R453): the image it holds; one of no bytes stands for the image of manufacture, which is valid with SVN 0
(log 6). -/
structure Bank where
  image : Octets := ⟨0, 0⟩
deriving DecidableEq, Repr

/-- Firmware banks, fuses, recovery, debug and start-up (R445 to R447, R453 to R462). -/
structure Firmware where
  banks    : FMap Bank := []       -- 2 * kind + bank, kind 0 pilot, 1 loader
  loader   : Nat := 0              -- loader bank in use
  raises   : FMap Nat := []        -- SVN raises by kind
  recovery : Bool := false         -- the pilot ROM is in recovery
  ready    : Bool := false         -- the host wrote 1 to 2500h:03
  bringUp  : Nat := 0              -- pilot tick at which step 5 began
  opening  : Option (Nat × Nat × Nat) := none   -- scopes, LIFE and leaf digest that open when the package reset ends
  life     : Option Nat := none    -- pilot tick at which open scopes close
  serviced : Nat := 0              -- pilot tick at which the firmware last started, so serviced its watchdog (R43)
deriving DecidableEq, Repr

/-- Fixed facts of one package (R1 to R5): variant S or T, and what its fuses hold. -/
structure Identity where
  variantS : Bool := false
deriving DecidableEq, Repr

/-- The whole package. -/
structure State where
  /-- commands waiting, first in first out -/
  pending   : List Instr := []
  /-- pilot ticks since power reset (R37) -/
  tick      : Nat := 0
  /-- how many open values were used; the model's own (log 1) -/
  free      : Nat := 0
  /-- draws from the true random generator so far; the model's own -/
  draws     : Nat := 0
  /-- what has left the package, newest first; the model's own (log 2) -/
  outbox    : List Output := []
  ident     : Identity := {}
  /-- HBM contents by physical address; an unlisted byte reads 0 (log 3) -/
  mem       : FMap Byte := []
  /-- poisoned granule halves, address / 64, rising (R199) -/
  poisoned  : List Nat := []
  /-- gradient accumulation buffers: byte 2^27 * die + offset (R238) -/
  grad      : FMap Byte := []
  panes     : FMap Pane := []           -- (16 * partition + die) * 2 + pane
  trims     : FMap Trim := []           -- 65536 * partition + entry
  masts     : FMap Mast := []
  parts     : FMap Part := []
  /-- far-cache lines: 2^34 * agent + line number (R202) -/
  lines     : FMap Line := []
  uses      : Nat := 0                  -- order of use of the lines and streams
  directory : FMap DirEntry := []       -- by line number
  trackers  : FMap Tracker := []        -- by pseudo-channel
  streams   : FMap (List Stream) := []  -- by die
  openRows  : FMap Nat := []            -- open row + 1, by 16 * pseudo-channel + bank (R197, R212)
  heldReqs  : List (Nat × LineReq) := []    -- requests that their requesters hold, by line, oldest first (R211)
  hot       : FMap HotChannel := []     -- by pseudo-channel
  hotSince  : FMap Nat := []            -- by die, pilot tick at which the detector's window began (R218)
  hbm       : FMap Stack := []
  /-- lantern counts not yet in memory (R254): (((die * 16 + p) * 4096 + tag) * 16 + format) * 80 + word;
  format 15 holds words 3 to 6 of the record -/
  lantern   : FMap Nat := []
  /-- tags whose silent run has been posted (R255): 4096 * partition + tag, rising -/
  silent    : List Nat := []
  /-- the dictionary store: live values that differ from their default, by 256 * index + subindex -/
  dict      : FMap Octets := []
  /-- the most recent snapshots of R38: value and pilot tick -/
  snaps     : FMap (Octets × Nat) := []
  snapRing  : SnapRing := {}
  /-- RW writes accepted, each an object's index, subindex and value, that become live on the next pilot-clock edge; with the
  deferred values they are the shadows that differ from their live copies (R34) -/
  writes    : List (Nat × Nat × Nat) := []
  /-- event rings: 0 the operator ring, 1 + p host ring p (R420) -/
  rings     : FMap Ring := []
  /-- last posting of a rate-limited event: 2^40 * code + number, pilot tick + 1 -/
  limits    : FMap Nat := []
  sessions  : FMap Session := []        -- by place 0 to 7
  stagers   : FMap Stager := []
  commits   : List CommitReq := []      -- the first that has not passed is in checks
  commitNum : Nat := 0
  deferred  : List Deferred := []
  accepted  : FMap Accepted := []       -- commits with deferred values, by number
  plans     : FMap Plan := []           -- by slot
  holds     : FMap HeldChunk := []      -- chunks held at their ports, by order of arrival
  holdNum   : Nat := 0
  sent      : FMap SentChunk := []      -- by the mark of their flits
  sentNum   : Nat := 0
  ports     : FMap Port := []           -- 0 to 6
  heard     : FMap Heard := []          -- discovery table, by entry 0 to 63
  remote    : List Remote := []         -- requests of the ports under way, in their order of arrival (R354)
  remoteNum : Nat := 0
  rats      : FMap RatDir := []         -- 4 * die + side (N, E, S, W)
  flows     : FMap RatFlow := []        -- 4 * die + side
  bondSince : FMap Nat := []            -- by die, pilot tick at which the bond window began (R284)
  coreLoads : List CoreLoad := []       -- loads of the lamplighter cores under way, oldest first
  mailSlots : FMap MailSlot := []       -- held slots of the host mailbox
  mailbox   : FMap Byte := []           -- its 64 slots of 2 KiB
  peerMail  : List PeerRequest := []    -- the peer mailbox, oldest first (R33)
  resets    : List Reset := []          -- oldest first
  grants    : List Nat := []            -- masts whose power-up grant is asked for, oldest first (R39, R42)
  domains   : FMap (Nat × Nat) := []    -- by die: pilot tick of entry into Shutting down, masts forced Dark
  power     : Power := {}
  fw        : Firmware := {}
  mgmtRate  : Nat := 25                 -- Gbit/s the management port tries (R487)
  mgmtSince : Nat := 0                  -- pilot tick of the last attempt
  i3cAddr   : Nat := 0x3A               -- I3C address in use (R488)
  ibien     : Nat := 0                  -- I3C IBIEN (Table 15.6)
  hellos    : Nat := 0                  -- pilot tick + 1 of the last HELLO (R397)
  carve     : Nat := 64                 -- GiB of the carve-out in effect (R463)
deriving DecidableEq, Repr

/-- The package right after a power reset (R448): Standby, every object at its default, nothing listed in memory, the
debug challenge (R461) and the package key (R192) drawn. What tells one device from another is that of variant T at
stepping A1, its serial number, keys, digest and chain 0 (log 6). -/
def State.reset : State :=
  { dict := [(0x100003, ⟨16, 15243559718796936061632992858⟩),   -- 1000h:03, the ordering code ZV-3216-T-A1
             (0x100005, ⟨1, 16⟩), (0x100006, ⟨2, 12609⟩),       -- stack height, stepping A1
             (0x10000A, ⟨2, 2048⟩),                             -- GiB
             (0x340011, ⟨4, 1⟩),                                -- package keys drawn
             (0x708001, ⟨32, Config.random 0 % 2 ^ 256⟩)],
    parts := [(16, { key := Config.random 1 % 2 ^ 64 })],
    draws := 2 }

end Sys2Proof.Machine
end

