-- ==== Sys2Proof/Machine/Ops.lean ====
section
/-! DEFINITION. The named operations over the state that every command is built from: open values, the dictionary store
and its counters, event posting, address windows, memory, masts and their threads and counters. -/
namespace Sys2Proof.Machine

/-- The outcome type of every command. -/
abbrev Result := Host.Outcome State Fault Refusal

/-- Runs `k` where the event can happen; an event that cannot happen in state `s` has not happened, and nothing changes
(log 51). -/
def guardEvent (ok : Bool) (s : State) (k : Result) : Result := if ok then k else .next s

/-- Goes on with the next state of `r`, or stops as `r` does. -/
def Result.andThen (r : Result) (k : State → Result) : Result :=
  match r with
  | .next s => k s
  | .fault f => .fault f
  | .refused x => .refused x

/-- Records that something leaves the package. -/
def State.emit (s : State) (kind : OutKind) (a b : Nat) (data : Octets) : State :=
  { s with outbox := ⟨kind, a, b, data⟩ :: s.outbox }

/-- The next open value, below `2 ^ bits` (log 1), and the state that has used it. -/
def State.open (s : State) (bits : Nat) : Nat × State :=
  (Config.freeValue s.free % 2 ^ bits, { s with free := s.free + 1 })

/-- A draw of `bits` bits from the true random generator. -/
def State.draw (s : State) (bits : Nat) : Nat × State :=
  (Config.random s.draws % 2 ^ bits, { s with draws := s.draws + 1 })

/-! ### The dictionary store -/

/-- The index and the subindex of a key. -/
def keyIdx (k : Nat) : Nat := k / 256
def keySub (k : Nat) : Nat := k % 256

/-- The stored bytes of `idx:sub`. -/
def State.obj (s : State) (idx sub : Nat) : Octets := FMap.get s.dict (objKey idx sub) (objDefault idx sub)

/-- The stored value of `idx:sub` as a number. -/
def State.val (s : State) (idx sub : Nat) : Nat := (s.obj idx sub).bits

/-- Stores the bytes of `idx:sub`; a value equal to the default is held by no entry. -/
def State.setObj (s : State) (idx sub : Nat) (v : Octets) : State :=
  { s with dict := FMap.set s.dict (objKey idx sub) (objDefault idx sub) v }

/-- The number of bytes of a fixed-length object. -/
def objLen (idx sub : Nat) : Nat := match objRow idx sub with | some r => r.len | none => 0

/-- Stores a number in `idx:sub`, modulo its width. -/
def State.setVal (s : State) (idx sub v : Nat) : State :=
  s.setObj idx sub ⟨objLen idx sub, v % 2 ^ (8 * objLen idx sub)⟩

/-- Adds `n` to the counter `idx:sub`, which wraps at its width. -/
def State.bump (s : State) (idx sub n : Nat) : State := s.setVal idx sub (s.val idx sub + n)

/-! ### Events (R36, R37, R420, R421) -/

/-- An event to post: code, plane (0 management, 1 control, 2 data), PART, UNIT kind and number, UTAG, and its detail as
a list of byte counts and values (R473). -/
structure Event where
  code   : Nat
  plane  : Nat
  part   : Nat
  kind   : Nat := 0
  num    : Nat := 0
  utag   : Nat := 0
  detail : List (Nat × Nat) := []
  compound : Bool := false
deriving DecidableEq, Repr

/-- Values packed without gaps, least significant byte first (R473). -/
def packDetail : List (Nat × Nat) → Octets
  | [] => ⟨0, 0⟩
  | (n, v) :: r => Octets.append ⟨n, v % 2 ^ (8 * n)⟩ (packDetail r)

/-- PART values that name no one partition (R420). -/
def partAll : Nat := 0xFF
def partOperator : Nat := 0xFE

/-- The records of an event: the first holds 40 detail bytes, each continuation 48 more (R421). -/
def eventRecords (tick : Nat) (e : Event) : List Rec :=
  let d := packDetail e.detail
  let first : Rec := { tick := tick % 2 ^ 64, code := e.code, plane := e.plane, compound := e.compound, part := e.part,
                       unit := e.kind * 4096 + e.num % 4096, utag := e.utag, detail := d.slice 0 40 }
  first :: (List.range ((d.len - 40 + 47) / 48)).map fun i => { first with cont := true, detail := d.slice (40 + 48 * i) 48 }

/-- The 64 bytes of a record (Table 12.9). -/
def recBytes (r : Rec) : Octets :=
  let flags := r.plane + (if r.cont then 4 else 0) + (if r.compound then 8 else 0)
  let head := r.tick + r.code <<< 64 + flags <<< 80 + r.part <<< 88 + r.rseq <<< 96
  if r.cont then ⟨64, head + (r.detail.bits % 2 ^ 384) <<< 128⟩
  else ⟨64, head + r.unit <<< 128 + r.utag <<< 160 + (r.detail.bits % 2 ^ 320) <<< 192⟩

/-- Puts a record behind those of a ring, but before the ones of its own tick that a later plane posted (R37). -/
def placeRec (r : Rec) : List Rec → List Rec
  | [] => [r]
  | x :: rest => if x.tick = r.tick ∧ r.plane < x.plane then r :: x :: rest else x :: placeRec r rest

/-- Gives records their RSEQ, the first that of `n` records posted before it. -/
def numberRecs (n : Nat) : List Rec → List Rec
  | [] => []
  | r :: rest => { r with rseq := n % 2 ^ 32 } :: numberRecs (n + 1) rest

/-- Puts records into a ring, each with its RSEQ (R37, R421). -/
def Ring.append (g : Ring) (rs : List Rec) : Ring :=
  { g with recs := numberRecs (g.posted - g.recs.length) (rs.foldl (fun l r => placeRec r l) g.recs),
           posted := g.posted + rs.length }

/-- The records of a ring that are not yet cleared. -/
def Ring.used (g : Ring) : Nat := g.posted - g.read

/-- Drops `n` records of a full ring (R36). -/
def Ring.drop (g : Ring) (n : Nat) : Ring := { g with drops := g.drops + n, owed := g.owed + n }

/-- Posts the overflow record that a ring owes, where it has room (R36). -/
def Ring.settle (g : Ring) (cap : Nat) (mk : Nat → Rec) : Ring :=
  if g.owed ≠ 0 ∧ g.used < cap then { Ring.append g [mk g.owed] with owed := 0 } else g

/-- Posts the records of one event to a ring: all of them, or none (R421). -/
def Ring.post (g : Ring) (cap : Nat) (mk : Nat → Rec) (rs : List Rec) : Ring :=
  let g := g.settle cap mk
  if g.owed = 0 ∧ g.used + rs.length ≤ cap then Ring.append g rs else g.drop rs.length

/-- The records that ring `n` can hold: the operator ring, or a host ring (R420). -/
def ringSize (n : Nat) : Nat := if n = 0 then 16384 else 4096

/-- The overflow record of ring `n` (Table 1.5). -/
def overflowRec (tick n count : Nat) : Rec :=
  { tick := tick % 2 ^ 64, code := 0x1A10, plane := 0, part := if n = 0 then partOperator else n - 1, unit := 0,
    detail := packDetail [(4, count)] }

/-- The state of partition `p`. -/
def State.part (s : State) (p : Nat) : Part := FMap.get s.parts p {}
def State.setPart (s : State) (p : Nat) (x : Part) : State := { s with parts := FMap.set s.parts p {} x }

/-- Whether partition `p` exists, that is whether it is Live, Stopped or Resetting (R420). -/
def State.partExists (s : State) (p : Nat) : Bool := (s.part p).st != .absent

/-- Ring `n`. -/
def State.ring (s : State) (n : Nat) : Ring := FMap.get s.rings n {}
def State.setRing (s : State) (n : Nat) (g : Ring) : State := { s with rings := FMap.set s.rings n {} g }

/-- The header and body of a Choan datagram (Table 12.1), fields most significant byte first (R392). -/
def choanHead (type flags session seq : Nat) (body : Octets) : Octets :=
  Octets.append (octets (bytesMsb 2 0x4348 ++ [1, type] ++ bytesMsb 2 flags ++ bytesMsb 2 body.len ++ bytesMsb 4 session ++
    bytesMsb 4 seq)) body

/-- A Choan datagram with the tag of its session (R394). -/
def choanDatagram (type flags session seq : Nat) (body key : Octets) : Octets :=
  let h := choanHead type flags session seq body
  if session = 0 then h else Octets.append h (kmac256 key h 8 "ZV-CHOAN")

/-- Posts records to ring `n`. -/
def State.postRing (s : State) (n : Nat) (rs : List Rec) : State :=
  s.setRing n ((s.ring n).post (ringSize n) (overflowRec s.tick n) rs)

/-- Records in groups of up to 16, the most that one EVENT_PUSH carries. -/
def pushGroups : Nat → List Rec → List (List Rec)
  | 0, _ => []
  | fuel + 1, rs => if rs.isEmpty then [] else rs.take 16 :: pushGroups fuel (rs.drop 16)

/-- Sends the operator records that no push has carried to the subscribed sessions, once (R423), at the end of the tick that
posted them, when their order is settled (R37); the SEQ of a push is open (log 1). -/
def State.pushNew (s : State) : State :=
  let g := s.ring 0
  let rs := g.recs.drop (g.pushed - g.read)
  if rs.isEmpty then s
  else
    let s := s.sessions.foldl (fun s e =>
      if e.2.subscribed then (pushGroups rs.length rs).foldl (fun s rs =>
        let (seq, s) := s.open 32
        let body := rs.foldl (fun o r => Octets.append o (recBytes r)) ⟨0, 0⟩
        s.emit .notice (e.1 + 1) 0x26 (choanDatagram 0x26 0 (e.1 + 1) seq body e.2.keyOut)) s
      else s) s
    s.setRing 0 { g with pushed := g.posted }

/-- The rings that receive a record with this PART (R420). -/
def State.ringsFor (s : State) (part : Nat) : List Nat :=
  if part < 16 then (if s.partExists part then [0, part + 1] else [0])
  else if part = partAll then 0 :: ((List.range 16).filter fun p => s.partExists p).map (· + 1)
  else [0]

/-- Posts an event (R36, R420). -/
def State.post (s : State) (e : Event) : State :=
  (s.ringsFor e.part).foldl (fun s n => s.postRing n (eventRecords s.tick e)) s

/-- Posts an event at most once per number `id` in each `gap` pilot ticks. -/
def State.postLimited (s : State) (id gap : Nat) (e : Event) : State :=
  let k := e.code * 2 ^ 40 + id
  let last := FMap.get s.limits k 0
  if last = 0 ∨ last + gap ≤ s.tick + 1 then { s.post e with limits := FMap.put s.limits k (s.tick + 1) } else s

/-- The period of the snapshots and of most rate limits: 25,000 pilot ticks, 1 ms. -/
def msTicks : Nat := 25000

/-! ### Partitions, masts, windows -/

/-- The partition that owns a package mast (R465). -/
def State.partOfMast (s : State) (m : Nat) : Option Nat :=
  (List.range 16).find? fun p => s.partExists p && bitOf (s.val (0x7120 + p) 1) m

/-- The PART value of a partition that may be none. -/
def partOr (p : Option Nat) : Nat := p.getD partOperator

/-- The partition that owns plan slot `k` (R465). -/
def State.partOfSlot (s : State) (k : Nat) : Option Nat :=
  (List.range 16).find? fun p => s.partExists p && bitOf (s.val (0x7140 + p) 2) k

/-- Host context `c` (Table 14.4) and its fields. -/
def State.context (s : State) (c : Nat) : Nat := s.val 0x7030 (c + 1)
def ctxCores (v : Nat) : Nat := field v 127 112
def ctxOwns (v p : Nat) : Bool := bitOf v (96 + p)

/-- The context of a lamplighter core (R463). -/
def State.contextOfCore (s : State) (core : Nat) : Option Nat :=
  (List.range 16).find? fun c => bitOf (ctxCores (s.context c)) core

/-- Rights of a window (Table 6.1), as bit numbers. -/
def rightRd : Nat := 50
def rightWr : Nat := 51
def rightAt : Nat := 52
def rightAow : Nat := 53
def rightPeer : Nat := 54

/-- Window `n` of partition `p`. -/
def State.window (s : State) (p n : Nat) : Nat := s.val (0x7110 + p) (n + 1)
def winBase (w : Nat) : Nat := field w 21 0 * 2 ^ 19
def winLen (w : Nat) : Nat := field w 45 23 * 2 ^ 19
def winEnd (w : Nat) : Nat := winBase w + winLen w

/-- Whether a window holds `[a, a + n)` with all the rights asked for. -/
def winAllows (w a n : Nat) (rights : List Nat) : Bool :=
  winLen w != 0 && winBase w ≤ a && a + n ≤ winEnd w && rights.all (bitOf w)

/-- The window of `p` that admits a request, if one does (R188). -/
def State.findWindow (s : State) (p a n : Nat) (rights : List Nat) : Option Nat :=
  (List.range 16).find? fun k => winAllows (s.window p k) a n rights

/-- Whether a range lies inside windows of the partition with a right; adjacent windows join. -/
def State.covered (s : State) (p : Nat) (rights : List Nat) : Nat → Nat → Nat → Bool
  | 0, a, e => decide (e ≤ a)
  | fuel + 1, a, e =>
    if e ≤ a then true
    else match (List.range 16).find? fun k => winAllows (s.window p k) a 1 rights with
      | some k => s.covered p rights fuel (winEnd (s.window p k)) e
      | none => false

/-- Whether `n` bytes from `a` lie inside windows of partition `p` with the given rights. -/
def State.inWindows (s : State) (p a n : Nat) (rights : List Nat) : Bool := s.covered p rights 17 a (a + n)

/-- The first address above memory (R186). -/
def State.memTop (s : State) : Nat := if s.ident.variantS then 0x18000000000 else 0x20000000000

/-! ### The interleave hash (R193 to R195) -/

/-- Entry (row, col) of a lower unitriangular matrix filled from bits `base …` row by row. -/
def lowEntry (bits base row col : Nat) : Bool :=
  if row = col then true else if row < col then false else bitOf bits (base + row * (row - 1) / 2 + col)

/-- Entry (row, col) of an upper unitriangular matrix filled from bits `base …` row by row. -/
def upEntry (bits base row col : Nat) : Bool :=
  if row = col then true else if col < row then false
  else bitOf bits (base + (row * 10 - row * (row - 1) / 2) + (col - row - 1))

/-- The product of a matrix of `n` rows with a column vector over GF(2). -/
def matVec (n : Nat) (entry : Nat → Nat → Bool) (v : Nat) : Nat :=
  (List.range n).foldl (fun acc i =>
    let b := (List.range n).foldl (fun x j => x != (entry i j && bitOf v j)) false
    acc + (if b then 2 ^ i else 0)) 0

/-- The 256 key bits that select the matrices (R193). -/
def keyBits (key : Nat) : Nat := (shake256 ⟨8, key % 2 ^ 64⟩ 32).bits

/-- T times a vector, T = L1 V1. -/
def hashT (kb v : Nat) : Nat := matVec 11 (lowEntry kb 0) (matVec 11 (upEntry kb 55) v)

/-- S times a vector, S = L2 V2. -/
def hashS (kb v : Nat) : Nat := matVec 11 (lowEntry kb 110) (matVec 11 (upEntry kb 165) v)

/-- The leading 7 x 7 submatrix of T times a vector. -/
def hashT7 (kb v : Nat) : Nat :=
  let col := fun j => hashT kb (2 ^ j) % 2 ^ 7
  (List.range 7).foldl (fun acc j => if bitOf v j then acc ^^^ col j else acc) 0

/-- The offset U. -/
def hashU (kb : Nat) : Nat := field kb 230 220

/-- Pseudo-channel of an address under a key: package interleave (R194) or die stripe (R195). -/
def channelOf (key : Nat) (stripe : Bool) (a : Nat) : Nat :=
  let kb := keyBits key
  if stripe then 128 * field a 26 23 + (field a 14 8 ^^^ hashU kb % 2 ^ 7 ^^^ hashT7 kb (field a 21 15))
  else field a 18 8 ^^^ hashU kb ^^^ hashT kb (field a 29 19) ^^^ hashT kb (hashS kb (field a 40 30))

/-- Slot of an address within its pseudo-channel (R194, R195). -/
def slotOf (stripe : Bool) (a : Nat) : Nat :=
  if stripe then 256 * field a 40 27 + field a 22 15 else field a 40 19

/-- The key of the lamplighter carve-out (R192), kept beside the partitions' keys. -/
def packageKeyPlace : Nat := 16

/-- The first window, of any partition, that covers an address. -/
def State.windowOf (s : State) (a : Nat) : Option Nat :=
  (List.range 256).find? fun k => winAllows (s.window (k / 16) (k % 16)) a 1 []

/-- Key and spread of a window, numbered over all partitions; the carve-out's for no window. -/
def State.placeIn (s : State) : Option Nat → Nat × Bool
  | some k => ((s.part (k / 16)).key, bitOf (s.window (k / 16) (k % 16)) 49)
  | none => ((s.part packageKeyPlace).key, false)

/-- Key and spread of the window, of any partition, that covers an address; the carve-out's otherwise. -/
def State.placing (s : State) (a : Nat) : Nat × Bool := s.placeIn (s.windowOf a)

/-- The pseudo-channel of an address (R187). -/
def State.channel (s : State) (a : Nat) : Nat := let q := s.placing a; channelOf q.1 q.2 a

/-- The home base die of an address: bits [10:7] of its pseudo-channel; bits [26:23] under die stripe (R187, R195). -/
def State.home (s : State) (a : Nat) : Nat :=
  let q := s.placing a
  if q.2 then field a 26 23 else channelOf q.1 q.2 a / 128

/-- Whether die pair `d` is fenced (R472). -/
def State.dieFenced (s : State) (d : Nat) : Bool := bitOf (s.val 0x7180 1) d

/-- Whether the address is homed on a fenced die pair (R472). -/
def State.homeFenced (s : State) (a : Nat) : Bool := s.val 0x7180 1 != 0 && s.dieFenced (s.home a)

/-- Whether domain `d` is Shutting down, Off or waking, or was so as its reset began, so that its units take no accesses (R443,
R444, R450). -/
def State.domainDown (s : State) (d : Nat) : Bool :=
  let v := s.val 0x2410 (d + 1)
  v != 0 && (v != 5 || s.resets.any fun r => r.kind == 3 && r.scope == d && r.before != 0)

/-- Whether a byte range touches a poisoned granule half (R199) or a fenced home (R472). -/
def State.badRange (s : State) (a n : Nat) : Bool :=
  s.poisoned.any (fun h => a / 64 ≤ h && h ≤ (a + (n - 1)) / 64) || s.homeFenced a

/-! ### Memory: raw bytes at physical addresses -/

/-- Reads `n` bytes (R9). -/
def State.load (s : State) (a n : Nat) : Nat := FMap.readLE s.mem a n

/-- Writes `n` bytes; a granule half written in full loses its poison (R199). -/
def State.store (s : State) (a n v : Nat) : State :=
  { s with mem := FMap.writeLE s.mem a n v,
           poisoned := s.poisoned.filter fun h => !(a ≤ 64 * h && 64 * h + 64 ≤ a + n) }

/-- Zeroes a byte range and heals its granule halves (R191). -/
def State.zeroMem (s : State) (a n : Nat) : State :=
  { s with mem := FMap.clearRange s.mem a (a + n),
           poisoned := s.poisoned.filter fun h => !(a ≤ 64 * h && 64 * h + 64 ≤ a + n) }

/-- Poisons a granule half. -/
def State.poisonHalf (s : State) (h : Nat) : State := { s with poisoned := insertSorted h s.poisoned }

/-- Who makes a memory request: a thread of a package mast, a halyard stream with the UTAG of its descriptor, or a request
of a port (0 to 6) with a number of its own. -/
inductive Requester where
  | thread (m t : Nat)
  | stream (m k utag : Nat)
  | port (p id : Nat)
deriving DecidableEq, Repr

/-- The number that a WINDOW_BLOCKED record gives as entry: the mast or the port. -/
def Requester.entry : Requester → Nat
  | .thread m _ | .stream m _ _ => m
  | .port p _ => p

/-- The number under which WINDOW_BLOCKED is rate-limited. -/
def Requester.limitId : Requester → Nat
  | .thread m _ | .stream m _ _ => m
  | .port p _ => 4096 + p

/-- The UTAG of the descriptor for which the request is made (R107). -/
def Requester.utag : Requester → Nat
  | .stream _ _ u => u
  | _ => 0

/-- The numbers of the requesters (R211): thread t of mast m is 1024 m + t, its stream k is 1024 m + 512 + k; above the
masts the lamplighter cores, the caches on their own account, the base dies' engines, then the ports' requests. -/
def threadWho (m t : Nat) : Nat := 1024 * m + t
def streamWho (m k : Nat) : Nat := 1024 * m + 512 + k
def coreWho (c : Nat) : Nat := 3145728 + c
def cacheWho (g : Nat) : Nat := 3145728 + 64 + g
def lanternWho (d : Nat) : Nat := 3145728 + 128 + d
def planWho (k : Nat) : Nat := 3145728 + 256 + k
def trimWho (d p e : Nat) : Nat := 2 ^ 23 + 2 ^ 20 * d + 65536 * p + e
def portWho (p id : Nat) : Nat := 2 ^ 40 + 8 * id + p

def Requester.who : Requester → Nat
  | .thread m t => threadWho m t
  | .stream m k _ => streamWho m k
  | .port p id => portWho p id

/-- The base die on whose die pair each external port has its logic (Table 10.1). -/
def portDie (p : Nat) : Nat := [7, 4, 14, 1, 11, 8, 2].getD p 0

/-- The base die that checks a requester's windows (R188). -/
def Requester.die : Requester → Nat
  | .thread m _ | .stream m _ _ => m / 192
  | .port p _ => portDie p

/-- The 64-byte requests that `[a, a + n)` takes (R209); a request of no bytes is one. -/
def requestCount (a n : Nat) : Nat := if n = 0 then 1 else (a + n - 1) / 64 - a / 64 + 1

/-- Posts an event once for each of the partitions it concerns, to the operator where there is none, at most once per
number `id` in each `gap` pilot ticks (R420). -/
def State.postEach (s : State) (id gap : Nat) (parts : List Nat) (e : Nat → Event) : State :=
  let k := (e 0).code * 2 ^ 40 + id
  let last := FMap.get s.limits k 0
  if last = 0 ∨ last + gap ≤ s.tick + 1 then
    (if parts.isEmpty then [partOperator] else parts).foldl (fun s p => s.post (e p))
      { s with limits := FMap.put s.limits k (s.tick + 1) }
  else s

/-- A request of `n` bytes outside the windows: each 64 bytes of it are counted and, at most once per requester in 25,000
ticks, it is posted with the requester's partition, for a port each partition that its entry names (R188). -/
def State.blockedFor (s : State) (r : Requester) (parts : List Nat) (a n : Nat) : State :=
  (s.bump (0x3200 + r.die) 6 (requestCount a n)).postEach r.limitId msTicks parts fun p =>
    { code := 0x3040, plane := 2, part := p, kind := 2, num := r.die, utag := r.utag,
      detail := [(2, r.entry), (8, a), (1, p)] }

/-- The same for a requester of one partition or none. -/
def State.blocked (s : State) (r : Requester) (part : Option Nat) (a n : Nat) : State := s.blockedFor r part.toList a n

/-- Whether a requester of partition `part` may make the request: the partition runs and one window allows it (R188,
R224, R468). -/
def State.admits (s : State) (part : Option Nat) (a n : Nat) (rights : List Nat) : Bool :=
  match part with
  | none => false
  | some p => (s.part p).st != .stopped && a + n ≤ s.memTop && (s.findWindow p a n rights).isSome

/-! ### Masts -/

/-- Mast `m`; an unlisted mast is Dark and empty. -/
def State.mast (s : State) (m : Nat) : Mast := FMap.get s.masts m {}
def State.setMast (s : State) (m : Nat) (x : Mast) : State := { s with masts := FMap.set s.masts m {} x }

/-- A host error that mast `m` does not check, item `item` of a rule: its result is unpredictable and stays within the
partition (R122, R123). The mast is held up by it: nothing issues, starts or completes there until a partition reset, a stop
or a fence takes it Dark (log 51). -/
def State.hostError (s : State) (m rule item : Nat) : State := s.setMast m { s.mast m with wild := some (rule, item) }

/-- Whether the mast runs programs: it is Lit, no launch is under way, it is neither fenced nor held up by a host error. -/
def Mast.awake (x : Mast) : Bool := x.power == .lit && x.launch.isNone && !x.fenced && x.wild.isNone

/-- Thread `t` of a mast. -/
def Mast.thread (x : Mast) (t : Nat) : Thread := FMap.get x.threads t {}
def Mast.setThread (x : Mast) (t : Nat) (th : Thread) : Mast := { x with threads := FMap.set x.threads t {} th }

/-- A register; s0 reads as zero (R89). -/
def Thread.reg (th : Thread) (r : Nat) : Word64 := if r = 0 then 0#64 else FMap.get th.regs r 0#64

/-- Writes a register; a write to s0 is discarded (R89). -/
def Thread.setReg (th : Thread) (r : Nat) (v : Word64) : Thread :=
  if r = 0 then th else { th with regs := FMap.set th.regs r 0#64 v }

/-- A completion counter. -/
def Mast.counter (x : Mast) (n : Nat) : Counter := FMap.get x.counters n {}
def Mast.setCounter (x : Mast) (n : Nat) (c : Counter) : Mast := { x with counters := FMap.set x.counters n {} c }

/-- Signed difference counter minus target is not negative (R97). -/
def counterReached (val target : Word32) : Bool := !(val - target).msb

/-- What WAITC writes: the counter in [31:0], ERR in [63] (R97). -/
def counterWord (c : Counter) : Word64 := BitVec.ofNat 64 (c.val.toNat + if c.err then 2 ^ 63 else 0)

/-- Ends the waits of the threads that wait on counter `n` and whose target is reached (R90, R97). -/
def Mast.wakeCounter (x : Mast) (n : Nat) : Mast :=
  { x with threads := x.threads.map fun e =>
      match e.2.wait with
      | .counter k d target =>
        if k = n ∧ counterReached (x.counter n).val target then
          (e.1, { (e.2.setReg d (counterWord (x.counter n))) with run := .ready, wait := .none })
        else e
      | _ => e }

/-- Adds to a counter, perhaps sets its ERR bit, and ends the waits this satisfies (R96, R97). -/
def Mast.signal (x : Mast) (n : Nat) (add : Word32) (err : Bool) : Mast :=
  let c := x.counter n
  (x.setCounter n { val := c.val + add, err := c.err || err }).wakeCounter n

/-- The queue of engine `e`, and what it runs. -/
def Mast.queue (x : Mast) (e : Nat) : List Posted := FMap.get x.queues e []
def Mast.setQueue (x : Mast) (e : Nat) (q : List Posted) : Mast := { x with queues := FMap.set x.queues e [] q }
def Mast.run (x : Mast) (e : Nat) : Option Running := (x.running.find? fun r => r.1 = e).map (·.2)
def Mast.setRun (x : Mast) (e : Nat) (r : Running) : Mast := { x with running := FMap.put x.running e r }
def Mast.endRun (x : Mast) (e : Nat) : Mast := { x with running := FMap.erase x.running e }

/-- Places in each engine queue: 16 per halyard stream, 8 for the mainsail, 8 for the jib (R108). -/
def queueSize (e : Nat) : Nat := if e < 2 then 16 else 8

/-- A scratchpad address uses bits [19:0] (R113, R131). -/
def padAddr (a : Nat) : Nat := a % 2 ^ 20

/-- Reads `n` bytes of the scratchpad, each address modulo 1 MiB. -/
def Mast.padRead (x : Mast) (a : Nat) : Nat → Nat
  | 0 => 0
  | n + 1 => (FMap.get x.pad (padAddr a) 0#8).toNat + 256 * Mast.padRead x (a + 1) n

/-- Writes `n` bytes of the scratchpad. -/
def Mast.padWrite (x : Mast) (a : Nat) : Nat → Nat → Mast
  | 0, _ => x
  | n + 1, v => Mast.padWrite { x with pad := FMap.set x.pad (padAddr a) 0#8 (BitVec.ofNat 8 v) } (a + 1) n (v / 256)

/-- The compute die of a package mast and its number there (R27). -/
def mastDie (m : Nat) : Nat := m / 192
def mastLocal (m : Nat) : Nat := m % 192

/-- The arithmetic mode that a work item samples, and that a descriptor posted outside one runs in (R104): 6500h. Of a step whose
work items ran in both modes R88 defines no result: each item has the result of the mode that it sampled, a choice of the
model's (log 63). -/
def State.compatOf (s : State) (part : Option Nat) : Bool :=
  match part with | some p => s.val 0x6500 (p + 1) == 1 | none => false

end Sys2Proof.Machine
end

