-- ==== Sys2Proof/Machine/Ports.lean ====
section
/-! DEFINITION. External ports: flits, integrity tags, framing, credit, retry, and the torus router (R308 to R318, R341 to
R345, R352, R353). -/
namespace Sys2Proof.Machine

def State.port (s : State) (p : Nat) : Port := FMap.get s.ports p {}
def State.setPort (s : State) (p : Nat) (x : Port) : State := { s with ports := FMap.set s.ports p {} x }

/-- The state code of a port (Table 10.6). -/
def State.portState (s : State) (p : Nat) : Nat := (s.port p).link.st

def portLive : Nat := 8
def portQuarantined : Nat := 9
def portRetrain : Nat := 10
def portClosing : Nat := 12
def portPending : Nat := 13

/-- Whether messages come in by a port: it is Live, or retrains or shuts down and goes on receiving (Table 10.6). -/
def State.receives (s : State) (p : Nat) : Bool := [portLive, portRetrain, portClosing, portPending].contains (s.portState p)

/-- Gives a port a new state code and notes when. -/
def State.portGo (s : State) (p st : Nat) : State :=
  let x := s.port p
  s.setPort p { x with link := { x.link with st := st }, since := s.tick }

/-! ### Coordinates (R46, R340) -/

/-- A coordinate as four bytes x, y, z, 0 (R473, Table 10.15), from the 18-bit form of DST and SRC, and back. -/
def coordOfField (v : Nat) : Nat := field v 17 12 + 256 * field v 11 6 + 65536 * field v 5 0
def fieldOfCoord (c : Nat) : Nat := (c % 64) * 4096 + (c / 256 % 64) * 64 + c / 65536 % 64

/-- Component `a` of a coordinate: 0 x, 1 y, 2 z. -/
def coordAt (c a : Nat) : Nat := c / 256 ^ a % 256

/-- A coordinate with component `a` replaced. -/
def coordWith (c a v : Nat) : Nat := c - coordAt c a * 256 ^ a + v * 256 ^ a

/-- The package's own coordinate and the torus sizes (4000h). -/
def State.coord (s : State) : Nat := s.val 0x4000 1 + 256 * s.val 0x4000 2 + 65536 * s.val 0x4000 3
def State.sizes (s : State) : Nat := s.val 0x4000 4 + 256 * s.val 0x4000 5 + 65536 * s.val 0x4000 6

/-! ### Flits (R312 to R315, R322) -/

/-- Body bytes of a flit: 240, or 232 in generation-1 framing. -/
def bodyBytes (gen1 : Bool) : Nat := if gen1 then 232 else 240

/-- Whether a port uses generation-1 framing: before the agreement and on a generation-1 link (R322, R323). -/
def Port.gen1 (x : Port) : Bool := x.link.gen != 2

/-- The 16 header bytes of a flit (Table 10.4). -/
def stayHeader (f : StayFlit) : Nat :=
  f.rsvd % 2 ^ 42 + f.src % 2 ^ 18 * 2 ^ 42 + f.dst % 2 ^ 18 * 2 ^ 60 + (f.rsvd / 2 ^ 42) % 4 * 2 ^ 78 +
  f.fill % 2 ^ 8 * 2 ^ 80 + f.hops % 2 ^ 7 * 2 ^ 88 + (if f.ackv then 2 ^ 95 else 0) + f.ack % 2 ^ 12 * 2 ^ 96 +
  f.seq % 2 ^ 12 * 2 ^ 108 + f.cls % 4 * 2 ^ 120 + f.typ % 4 * 2 ^ 122 + f.vc % 16 * 2 ^ 124

/-- Header and body of a flit. -/
def stayFront (gen1 : Bool) (f : StayFlit) : Octets :=
  ⟨16 + bodyBytes gen1, stayHeader f + (f.body % 2 ^ (8 * bodyBytes gen1)) * 2 ^ 128⟩

/-- The CRC-32 of a flit: over header, body and, in generation-2 framing, the tag. -/
def stayCrc (gen1 : Bool) (f : StayFlit) : Nat :=
  let o := if gen1 then stayFront gen1 f else Octets.append (stayFront gen1 f) ⟨8, f.tag % 2 ^ 64⟩
  crc32 o.bits o.len

/-- Whether the CRC field of a flit is right (R312). -/
def stayCrcOk (gen1 : Bool) (f : StayFlit) : Bool :=
  f.crc == stayCrc gen1 f && f.crcN == 2 ^ 32 - 1 - stayCrc gen1 f

/-- The whole flit as it travels. -/
def stayBytes (gen1 : Bool) (f : StayFlit) : Octets :=
  Octets.append (if gen1 then stayFront gen1 f else Octets.append (stayFront gen1 f) ⟨8, f.tag⟩)
    ⟨8, f.crc + f.crcN * 2 ^ 32⟩

/-- The integrity tag of a flit under a key and a number (R313). -/
def stayTag (key : Octets) (num : Nat) (f : StayFlit) : Nat :=
  (kmac256 key (Octets.append ⟨8, num % 2 ^ 64⟩ (stayFront false f)) 8 "ZV-STAY").bits

/-- Whether the flits of a port carry tags: the agreed features have TAG and keying is done (R313). -/
def Port.tagged (x : Port) : Bool := bitOf x.peer.feat 0 && x.keys.out.len != 0

/-- The keys that apply to a data-flit number (R316). -/
def Port.keyOut (x : Port) (num : Nat) : Octets :=
  if num < x.keys.switchOut && x.keys.oldOut.len != 0 then x.keys.oldOut else x.keys.out
def Port.keyIn (x : Port) (num : Nat) : Octets :=
  if num < x.keys.switchInn && x.keys.oldInn.len != 0 then x.keys.oldInn else x.keys.inn

/-- The key of a control flit that is sent: the old one while a KEYSWITCH is unanswered, since the partner may not know of
the switch (log 57). -/
def Port.keyControl (x : Port) : Octets :=
  if bitOf x.ask 2 && x.keys.oldOut.len != 0 then x.keys.oldOut else x.keys.out

/-- The keys under which a control flit is accepted: those that the receiver holds for the direction (R316, log 57). -/
def Port.keysIn (x : Port) : List Octets :=
  x.keys.inn :: [x.keys.oldInn, x.keys.nextInn].filter fun k => k.len != 0

/-- Fills in acknowledgement, tag and CRC of a flit as it is sent (R312, R313). -/
def Port.seal (x : Port) (key : Octets) (num : Nat) (f : StayFlit) : StayFlit :=
  let f := { f with ack := (x.rx.next + 4095) % 4096, ackv := x.rx.next != 0 }
  let f := { f with tag := if x.tagged then stayTag key num f else 0 }
  { f with crc := stayCrc x.gen1 f, crcN := 2 ^ 32 - 1 - stayCrc x.gen1 f }

/-- Puts a flit on the wire. -/
def State.emitFlit (s : State) (p : Nat) (f : StayFlit) : State :=
  s.emit .stayFlit p f.typ (stayBytes (s.port p).gen1 f)

/-- A flit with everything zero. -/
def emptyFlit : StayFlit :=
  { vc := 0, typ := 0, cls := 0, seq := 0, ack := 0, ackv := false, hops := 0, fill := 0, dst := 0, src := 0, rsvd := 0,
    body := 0, tag := 0, crc := 0, crcN := 0 }

/-- Sends a control flit of a kind of Table 10.5 with its contents from byte 16 on; kind 0 is IDLE (R314). -/
def State.sendControl (s : State) (p kind contents : Nat) : State :=
  let x := s.port p
  let n := x.tx.ctl + 1
  let f := x.seal x.keyControl n { emptyFlit with typ := if kind = 0 then 1 else 2, body := kind + n % 2 ^ 64 * 2 ^ 64 + contents * 2 ^ 128 }
  (s.setPort p { x with tx := { x.tx with ctl := n } }).emitFlit p f

/-- The first 20 bytes of a message: its header, and the PLANID of a chunk or of a backup message in bytes 16 and 17. -/
def headOf (m : Nat) : Nat := m % 2 ^ 160

/-- KIND, TID and PLANID in the first 20 bytes of a message (Table 10.14). -/
def headKind (h : Nat) : Nat := h % 2 ^ 16
def headTid (h : Nat) : Nat := field h 127 64
def headPlan (h : Nat) : Nat := field h 143 128

/-! ### The receive pool (R318) -/

/-- Flits of a VC and class that occupy the pool. -/
def PortRx.occupied (r : PortRx) (k : Nat) : Nat := FMap.get r.taken k 0 - FMap.get r.freed k 0

/-- The totals that CREDIT reports: the flits freed, and those whose place the shared rest has taken over. -/
def PortRx.total (r : PortRx) (k : Nat) : Nat := FMap.get r.freed k 0 + FMap.get r.extra k 0

/-- The weight of a VC on the stay ports (4040h); VCs 0 and 1 have none. -/
def State.stayWeight (s : State) (vc : Nat) : Nat := if 2 ≤ vc ∧ vc ≤ 14 then s.val 0x4040 (vc - 1) else 0

/-- The rest of the pool that no reserve and no alternate class holds. -/
def State.sharedRest (s : State) : Nat :=
  11565 - (480 + (List.range 15).foldl (fun t v => t + s.val 0x4030 (v + 1)) 0)

/-- The VCs whose primary classes have flits waiting in the pool. -/
def PortRx.waitingVcs (r : PortRx) : List Nat :=
  (List.range 15).filter fun v => 2 ≤ v && r.occupied (4 * v) + r.occupied (4 * v + 1) != 0

/-- The flits of class `k` that the shared rest may hold: its VC's part by weight, for class 01b what 00b leaves. -/
def PortRx.share (r : PortRx) (target k : Nat) : Nat :=
  min (r.occupied k) (target - (if k % 4 = 1 then min target (r.occupied (k - 1)) else 0))

/-- The shared rest is granted to the VCs that have flits waiting, in proportion to their weights (R318): a waiting flit
charged to the rest gives its reserve place back at once, and its own freeing then gives back none. Such a charge stays
until its flit is freed (log 56). -/
def State.grantShared (s : State) (p : Nat) : State :=
  let x := s.port p
  match x.rx.waitingVcs with
  | [] => s
  | vs =>
    let sum := vs.foldl (fun t v => t + s.stayWeight v) 0
    let rest := s.sharedRest
    let r := vs.foldl (fun (r : PortRx) v =>
      [4 * v, 4 * v + 1].foldl (fun (r : PortRx) k =>
        let used := r.extra.foldl (fun t e => t + e.2) 0
        let now := FMap.get r.extra k 0
        let want := min (r.share (rest * s.stayWeight v / max sum 1) k) (now + (rest - used))
        { r with extra := FMap.set r.extra k 0 (max now want) }) r) x.rx
    s.setPort p { x with rx := r }

/-- The CREDIT flit: totals freed by VC and class, VC-major (Table 10.5). -/
def State.sendCredit (s : State) (p : Nat) : State :=
  let x := s.port p
  s.sendControl p 2 (ofBytes ((List.range 60).flatMap fun i => bytesOf 2 (x.rx.total i % 65536)))

/-- Frees receive buffers of a VC and class and says so to the partner; a flit charged to the shared rest gives back its
place there first. -/
def State.freeCredit (s : State) (p vc cls n : Nat) : State :=
  let x := s.port p
  let k := 4 * vc + cls
  let r := { x.rx with freed := FMap.set x.rx.freed k 0 (FMap.get x.rx.freed k 0 + n),
                       extra := FMap.set x.rx.extra k 0 (FMap.get x.rx.extra k 0 - n) }
  ((s.setPort p { x with rx := r }).grantShared p).sendCredit p

/-- A data flit takes its place in the pool. -/
def State.takePlace (s : State) (p vc cls : Nat) : State :=
  let x := s.port p
  let k := 4 * vc + cls
  s.setPort p { x with rx := { x.rx with taken := FMap.set x.rx.taken k 0 (FMap.get x.rx.taken k 0 + 1) } }

/-- After a flit was taken up: where flits wait, the shared rest is granted, and a changed total is reported (R318). -/
def State.shareOut (s : State) (p : Nat) : State :=
  let t := s.grantShared p
  if (t.port p).rx.extra = (s.port p).rx.extra then s else t.sendCredit p

/-- The rules of R336 as 210Ah numbers them (log 28): virtual channel, source, hops, window, and a message or flit that
its port or channel does not allow (R312, R353). -/
def policedVc : Nat := 1
def policedSource : Nat := 2
def policedHops : Nat := 3
def policedWindow : Nat := 4
def policedKind : Nat := 5

/-- Counts a policed discard and posts STAY_POLICED (R336). -/
def State.police (s : State) (p cause : Nat) : State :=
  let s := s.bump (0x4010 + p) 0xF 1
  s.postLimited p msTicks
    { code := 0x210A, plane := 2, part := partAll, kind := 4, num := p,
      detail := [(1, p), (1, cause), (4, s.val (0x4010 + p) 0xF)] }

/-! ### Sending (R317, R318, R345, R352) -/

/-- Flits of a VC and class that the partner holds, as far as its CREDIT flits say (totals are modulo 2^16). -/
def PortTx.out (t : PortTx) (k : Nat) : Nat := (FMap.get t.used k 0 + 65536 - FMap.get t.credit k 0 % 65536) % 65536

/-- Whether the sender has credit for `n` flits of a VC and class: the reserve of 4030h for the primary classes, of which
each is guaranteed 16 flits, and 32 flits for the alternate ones (R318). -/
def State.hasCredit (s : State) (p vc cls n : Nat) : Bool :=
  let t := (s.port p).tx
  let mine := t.out (4 * vc + cls)
  let other := t.out (4 * vc + cls / 2 * 2 + (1 - cls % 2))
  if cls < 2 then mine + n ≤ 16 || mine + n + max other 16 ≤ s.val 0x4030 (vc + 1) else mine + other + n ≤ 32

/-- How many flits a taken piece of a message makes with the bytes that wait before it, in bodies of `b` bytes: full ones,
and at the message's end the remainder. -/
def pieceCount (b spill fill : Nat) (last : Bool) : Nat :=
  if last then max 1 ((spill + fill + b - 1) / b) else (spill + fill) / b

/-- What the state of a port lets out: everything in Live, discovery in quarantine, the messages of bring-up before
(Table 10.6, R328). -/
def stateAllows (st : Nat) (q : Queued) : Bool :=
  let kind := headKind q.head
  if st = portLive then true
  else if st = portQuarantined then q.flit.vc == 0 && q.inp == 7 && kind == 1
  else 3 ≤ st && st ≤ 7 && q.flit.vc == 0 && q.inp == 7 && 2 ≤ kind && kind ≤ 4

/-- Whether a queued flit may leave a port now: the state lets it pass, retry has room, its VC and class have credit and no
other input's message is under way there (R317, R318, R328, R352). -/
def State.mayLeave (s : State) (p : Nat) (q : Queued) : Bool :=
  let x := s.port p
  let k := 4 * q.flit.vc + q.flit.cls
  let lock := FMap.get x.tx.lock k 0
  let n := pieceCount (bodyBytes x.gen1) (FMap.get x.tx.spill k ⟨0, 0⟩).len q.flit.fill q.last
  stateAllows x.link.st q && x.tx.held.length + n ≤ 3840 && (n == 0 || s.hasCredit p q.flit.vc q.flit.cls n) &&
    (lock = 0 || lock = 4 * q.inp + q.inCls + 1)

/-- Sends one flit: numbers it, holds it for retry, uses its credit (R313, R317). -/
def State.sendPiece (s : State) (p : Nat) (q : Queued) : State :=
  let x := s.port p
  let n := x.tx.next
  let k := 4 * q.flit.vc + q.flit.cls
  let f := { q.flit with seq := n % 4096 }
  let tx := { x.tx with next := n + 1, held := x.tx.held ++ [(n, { q with flit := f })],
                        used := FMap.set x.tx.used k 0 (FMap.get x.tx.used k 0 + 1),
                        moved := if x.tx.held.isEmpty then s.tick else x.tx.moved }
  (s.setPort p { x with tx := tx }).emitFlit p (x.seal (x.keyOut n) n f)

/-- The arbiter's account of a flit sent (R303, R345): VCs 0 and 1 count the flits of the others, the others their part of
the round; the input served is noted. -/
def PortTx.account (t : PortTx) (vc inp : Nat) : PortTx :=
  let t := { t with turn := FMap.put t.turn vc inp }
  if vc < 2 then { t with low := 0 } else { t with low := t.low + 1, spent := FMap.put t.spent vc (FMap.get t.spent vc 0 + 1) }

/-- Takes a queued flit and sends the flits that it fills, in bodies of the link's own size; the bytes left over wait for
the next one of its message (R322, R352). Its input's buffer is freed. -/
def State.sendFlit (s : State) (p : Nat) (q : Queued) : State :=
  let x := s.port p
  let b := bodyBytes x.gen1
  let k := 4 * q.flit.vc + q.flit.cls
  let all := Octets.append (FMap.get x.tx.spill k ⟨0, 0⟩) ⟨q.flit.fill, q.flit.body % 2 ^ (8 * q.flit.fill)⟩
  let n := pieceCount b (FMap.get x.tx.spill k ⟨0, 0⟩).len q.flit.fill q.last
  let s := s.setPort p { x with tx :=
    { x.tx.account q.flit.vc q.inp with
      spill := FMap.set x.tx.spill k ⟨0, 0⟩ (if q.last then ⟨0, 0⟩ else all.slice (b * n) b)
      lock := FMap.set x.tx.lock k 0 (if q.last then 0 else 4 * q.inp + q.inCls + 1) } }
  let s := (List.range n).foldl (fun s i =>
    let part := all.slice (b * i) b
    s.sendPiece p { q with flit := { q.flit with fill := part.len, body := part.bits }, last := q.last && i + 1 == n }) s
  if q.inp < 7 ∧ !q.old then s.freeCredit q.inp q.flit.vc q.inCls 1 else s

/-- The flits of a list whose buffers owe credit to port `inp`. -/
def owedBy (inp : Nat) (qs : List Queued) : Nat := (qs.filter fun q => q.inp == inp && !q.old).length

/-- Whether two queued flits stand in one order: those of one VC, input and class there. -/
def sameLine (a b : Queued) : Bool := a.flit.vc == b.flit.vc && a.inp == b.inp && a.inCls == b.inCls

/-- The queued flits that are the first of their input, VC and class. -/
def frontFlits (qs : List Queued) : List Queued :=
  qs.foldl (fun out q => if out.any (sameLine q) then out else out ++ [q]) []

/-- The VC that the arbiter serves of those that can send (R303, R345): VCs 0 and 1 first, but together only once in 16
flits while others can; of the others the first that has slots left in the round, or the first of a new round. -/
def State.pickVc (s : State) (t : PortTx) (vcs : List Nat) : Option Nat :=
  let high := vcs.find? (· < 2)
  let rest := vcs.filter (2 ≤ ·)
  let low := match rest.find? fun v => FMap.get t.spent v 0 < s.stayWeight v with | some v => some v | none => rest.head?
  match high, low with
  | some v, some w => if 15 ≤ t.low then some v else some w
  | some v, none => some v
  | none, w => w

/-- Of one VC's flits that can leave, the one of the next input after the one served last (R345). -/
def pickInput (last : Nat) (qs : List Queued) : Option Queued :=
  (List.range 8).findSome? fun i => qs.find? fun q => q.inp == (last + 1 + i) % 8

/-- The flit that leaves a port next. -/
def State.pickFlit (s : State) (p : Nat) : Option Queued :=
  let t := (s.port p).tx
  let ready := (frontFlits t.queue).filter (s.mayLeave p)
  let vcs := (List.range 16).filter fun v => ready.any fun q => q.flit.vc == v
  match s.pickVc t vcs with
  | none => none
  | some v => pickInput (FMap.get t.turn v 7) (ready.filter fun q => q.flit.vc == v)

/-- A new round of the arbiter begins where the VC served has used up its slots. -/
def State.roundFor (s : State) (t : PortTx) (vc : Nat) : PortTx :=
  if 2 ≤ vc ∧ s.stayWeight vc ≤ FMap.get t.spent vc 0 then { t with spent := [] } else t

/-- Sends what may leave a port, at most `fuel` flits. -/
def State.pumpFrom (s : State) (p : Nat) : Nat → State
  | 0 => s
  | fuel + 1 =>
    match s.pickFlit p with
    | none => s
    | some q =>
      let x := s.port p
      let tx := s.roundFor { x.tx with queue := x.tx.queue.eraseP (sameLine q) } q.flit.vc
      (((s.setPort p { x with tx := tx }).sendFlit p q)).pumpFrom p fuel

/-- The VCs of a Live port that have a flit waiting and no credit (R332). -/
def State.starvedVcs (s : State) (p : Nat) : List Nat :=
  let x := s.port p
  (List.range 15).filter fun v => x.link.st == portLive &&
    x.tx.queue.any fun q => q.flit.vc == v && !s.hasCredit p v q.flit.cls 1

/-- Notes since when each VC with a waiting flit has had no credit (R332). -/
def State.noteStarved (s : State) (p : Nat) : State :=
  let x := s.port p
  let vs := s.starvedVcs p
  s.setPort p { x with stalled := x.stalled || !vs.isEmpty,
                       rx := { x.rx with wait := vs.map fun v =>
                         let was := FMap.get x.rx.wait v 0
                         (v, if was = 0 then s.tick + 1 else was) } }

/-- Sends what may leave a port. -/
def State.pump (s : State) (p : Nat) : State := (s.pumpFrom p (s.port p).tx.queue.length).noteStarved p

/-- Queues flits at a port and sends what may leave. -/
def State.enqueue (s : State) (p : Nat) (qs : List Queued) : State :=
  let x := s.port p
  (s.setPort p { x with tx := { x.tx with queue := x.tx.queue ++ qs } }).pump p

/-- The flits of a message (R352). -/
def frame (vc cls dst src mark : Nat) (msg : Octets) : List Queued :=
  let n := max 1 ((msg.len + 239) / 240)
  (List.range n).map fun i =>
    let part := msg.slice (240 * i) 240
    { flit := { emptyFlit with vc := vc, cls := cls, dst := dst, src := src, fill := part.len, body := part.bits }
      inp := 7, last := i + 1 == n, mark := mark, head := headOf msg.bits }

/-- The 16-byte message header (Table 10.14) before its body. -/
def message (kind flags status tid : Nat) (body : Octets) : Octets :=
  Octets.append ⟨16, kind + flags * 2 ^ 16 + status * 2 ^ 24 + (16 + body.len) * 2 ^ 32 + tid % 2 ^ 64 * 2 ^ 64⟩ body

/-- Sends a message out of one port to its partner. -/
def State.sendPort (s : State) (p vc : Nat) (msg : Octets) : State :=
  let x := s.port p
  s.enqueue p (frame vc 0 (fieldOfCoord (if p = 6 then s.coord else x.peer.coord)) (fieldOfCoord s.coord) 0 msg)

/-! ### The torus router (R341 to R343) -/

/-- The primary port from coordinate `cur` toward `dst`: none at the destination (R341). -/
def primaryPort (cur dst sizes : Nat) : Option Nat :=
  (List.range 3).findSome? fun a =>
    let n := coordAt sizes a
    let d := (coordAt dst a + n - coordAt cur a % (max n 1)) % (max n 1)
    if d = 0 then none else some (if 2 * d ≤ n then 2 * a else 2 * a + 1)

/-- Whether a hop out of a port crosses its dimension's wrap link (R342). -/
def crossesWrap (cur sizes p : Nat) : Bool :=
  let a := p / 2
  if p % 2 = 0 then coordAt cur a + 1 == coordAt sizes a else coordAt cur a == 0

/-- Whether flits of a VC may take the alternate direction at all: VCs 0 and 14, and VCs 1 to 13 where the plan that
carries them, loaded here under its PLANID, allows it (R343). -/
def State.altAllowed (s : State) (vc plan : Nat) : Bool :=
  vc = 0 || vc = 14 || (List.range 64).any fun k =>
    let h := s.val (0x5000 + k) 1
    bitOf h 57 && bitOf h 29 && field h 15 0 == plan

/-- The port and class by which a flit of a plan (0 none) leaves this package: `inp` is the port by which it entered, 7
where it starts here, `cls` its class there (R341 to R343). -/
def State.route (s : State) (vc cls dst inp plan : Nat) : Option (Nat × Nat) :=
  let cur := s.coord
  let sizes := s.sizes
  match primaryPort cur dst sizes with
  | none => none
  | some p0 =>
    let a := p0 / 2
    let sameDim := inp < 6 && inp / 2 == a
    let crossed := sameDim && cls % 2 == 1
    let mk := fun (p base : Nat) => (p, base + if crossed || crossesWrap cur sizes p then 1 else 0)
    if sameDim && 2 ≤ cls then some (mk (if inp % 2 = 0 then inp + 1 else inp - 1) 2)
    else
      let opp := if p0 % 2 = 0 then p0 + 1 else p0 - 1
      if s.portState p0 ≠ portLive ∧ s.altAllowed vc plan ∧ s.portState opp = portLive ∧ bitOf (s.port opp).peer.feat 3
      then some (mk opp 2) else some (mk p0 0)

/-- Sends a message to a package of the torus, by its route. -/
def State.sendTo (s : State) (vc dst mark : Nat) (msg : Octets) : State :=
  match s.route vc 0 dst 7 (headPlan msg.bits) with
  | none => s
  | some (p, cls) =>
    s.enqueue p (frame vc cls (fieldOfCoord dst) (fieldOfCoord s.coord) mark msg)

end Sys2Proof.Machine
end

