-- ==== Sys2Proof/Machine/Fabric.lean ====
section
/-! DEFINITION. The ratline array: dies, sides, links, routes and hop costs (R286 to R288, R304, R214). -/
namespace Sys2Proof.Machine

/-- The key of the direction received at die `d` from a side (0 N, 1 E, 2 S, 3 W). -/
def ratKey (d side : Nat) : Nat := 4 * d + side

def State.rat (s : State) (d side : Nat) : RatDir := FMap.get s.rats (ratKey d side) {}
def State.setRat (s : State) (d side : Nat) (x : RatDir) : State := { s with rats := FMap.set s.rats (ratKey d side) {} x }
def State.flow (s : State) (d side : Nat) : RatFlow := FMap.get s.flows (ratKey d side) {}
def State.setFlow (s : State) (d side : Nat) (x : RatFlow) : State := { s with flows := FMap.set s.flows (ratKey d side) {} x }

/-- The die next to `d` on a side, none at the edge of the array (R26). -/
def neighbourDie (d side : Nat) : Option Nat :=
  match side with
  | 0 => if 4 ≤ d then some (d - 4) else none
  | 1 => if d % 4 < 3 then some (d + 1) else none
  | 2 => if d < 12 then some (d + 4) else none
  | 3 => if 0 < d % 4 then some (d - 1) else none
  | _ => none

/-- The side opposite to a side. -/
def oppositeSide (side : Nat) : Nat := (side + 2) % 4

/-- The link between a die and its neighbour on a side (R286). -/
def linkOf (d side : Nat) : Nat :=
  let lo := match neighbourDie d side with | some e => min d e | none => d
  if side % 2 = 1 then 3 * (lo / 4) + lo % 4 else 12 + lo

/-- The two dies of a link, the lower first, and the sides by which each receives. -/
def linkEnds (l : Nat) : (Nat × Nat) × (Nat × Nat) :=
  if l < 12 then let d := 4 * (l / 3) + l % 3; ((d, 1), (d + 1, 3))
  else let d := l - 12; ((d, 2), (d + 4, 0))

/-- The two directions of a link. -/
def linkDirs (l : Nat) : List (Nat × Nat) := let (a, b) := linkEnds l; [a, b]

/-- Whether a direction carries traffic: Live, or switching to a spare. -/
def RatDir.live (x : RatDir) : Bool := x.st == 3 || x.st == 4

/-- Whether both directions of a link carry traffic. -/
def State.linkLive (s : State) (l : Nat) : Bool := (linkDirs l).all fun e => (s.rat e.1 e.2).live

/-- Whether a link counts as down for routes: a direction is Down or Off, or is shut down by 4830h (R304, R305). -/
def State.linkGone (s : State) (l : Nat) : Bool :=
  (linkDirs l).any (fun e => [0, 5, 6].contains (s.rat e.1 e.2).st) || s.val 0x4830 (l + 1) == 1

/-- The narrower width of a link's two directions (R288). -/
def State.linkWidth (s : State) (l : Nat) : Nat :=
  (linkDirs l).foldl (fun w e => min w (s.rat e.1 e.2).width) 32

/-- The links of a straight run along a row, and along a column. -/
def rowLinks (r c1 c2 : Nat) : List Nat := (List.range 4).filterMap fun c =>
  if min c1 c2 ≤ c ∧ c < max c1 c2 then some (3 * r + c) else none
def colLinks (c r1 r2 : Nat) : List Nat := (List.range 4).filterMap fun r =>
  if min r1 r2 ≤ r ∧ r < max r1 r2 then some (12 + 4 * r + c) else none

/-- The links of the route between two dies: east–west first, or north–south first (R304). -/
def routeLinks (nsFirst : Bool) (a b : Nat) : List Nat :=
  if nsFirst then colLinks (a % 4) (a / 4) (b / 4) ++ rowLinks (b / 4) (a % 4) (b % 4)
  else rowLinks (a / 4) (a % 4) (b % 4) ++ colLinks (b % 4) (a / 4) (b / 4)

/-- The route in force between two dies: the east–west-first one unless it crosses a link that is gone (R304). -/
def State.dieRoute (s : State) (a b : Nat) : List Nat :=
  if (routeLinks false a b).any s.linkGone then routeLinks true a b else routeLinks false a b

/-- Whether a whole route joins two dies. -/
def State.routeWhole (s : State) (a b : Nat) : Bool := !(s.dieRoute a b).any s.linkGone

/-- The cost in ns of a route's hops: 36 x 32 / w each (R214). -/
def State.hopCost (s : State) (ls : List Nat) : Rat :=
  ls.foldl (fun (t : Rat) l => t + (if s.linkWidth l = 0 then 0 else (1152 : Rat) / s.linkWidth l)) 0

def State.routeCost (s : State) (a b : Nat) : Rat := s.hopCost (s.dieRoute a b)

end Sys2Proof.Machine
end

