-- ==== Sys2Proof/Machine/Cache.lean ====
section
/-! DEFINITION. Far caches, coherence directory, request trackers, prefetcher, hot-channel detector, patrol scrub and
stack throttle (R197 to R221). A request reaches its home in the step that makes it (log 52), and what it reads or writes
is read or written there and then in the one coherent memory, in the order of R206; the caches, the directory and the
trackers hold the lines' states, the transactions and the requests that wait, and no data of their own. -/
namespace Sys2Proof.Machine

/-! ### Lines and directory entries -/

/-- The key of line `l` in the cache of agent `g`: 0 to 15 far caches, 16 and 17 the cluster caches. -/
def lineKey (g l : Nat) : Nat := 2 ^ 34 * g + l

/-- The line that agent `g` holds, `none` for state I. -/
def State.line (s : State) (g l : Nat) : Option Line := (s.lines.find? fun e => e.1 = lineKey g l).map (·.2)

def State.setLine (s : State) (g l : Nat) (x : Line) : State := { s with lines := FMap.put s.lines (lineKey g l) x }
def State.dropLine (s : State) (g l : Nat) : State := { s with lines := FMap.erase s.lines (lineKey g l) }

/-- Gives line `l` of agent `g` a new state and marks it the last used (R202); a watched line stays Shared (R99). -/
def State.touchLine (s : State) (g l : Nat) (st : LineState) : State :=
  let watched := match s.line g l with | some x => x.watched | none => false
  { s.setLine g l { st := if watched && st == .e then .s else st, stamp := s.uses, poison := s.badRange (128 * l) 128,
                    watched := watched } with uses := s.uses + 1 }

def State.dirEntry (s : State) (l : Nat) : DirEntry := FMap.get s.directory l {}

/-- Writes a directory entry; a line with no holder and no transaction needs none (R205). -/
def State.setDir (s : State) (l : Nat) (x : DirEntry) : State := { s with directory := FMap.set s.directory l {} x }

/-- The entry with the line's state at the home as its holders make it (R205). -/
def DirEntry.settled (x : DirEntry) : DirEntry :=
  { x with st := if x.owner.isSome then .owned else if x.presence ≠ 0 then .shared else .idle }

/-- Removes `g` from the holders of a line. -/
def DirEntry.without (x : DirEntry) (g : Nat) : DirEntry :=
  { x with presence := setBit x.presence g false, owner := if x.owner = some g then none else x.owner }.settled

/-- Adds `g` to the holders of a line. -/
def DirEntry.withHolder (x : DirEntry) (g : Nat) (own : Bool) : DirEntry :=
  { x with presence := setBit x.presence g true, owner := if own then some g else x.owner }.settled

/-- The owner keeps a Shared copy (Table 6.2). -/
def DirEntry.shared (x : DirEntry) : DirEntry := { x with owner := none }.settled

/-- The cache counters of Table 6.5 and 3200h belong to far caches, not to cluster caches. -/
def State.countCache (s : State) (g idx sub : Nat) : State := if g < 16 then s.bump (idx + g) sub 1 else s

/-- The granule halves of a line, and those of them that `[a, a + n)` touches. -/
def lineHalves (l : Nat) : List Nat := [2 * l, 2 * l + 1]
def halvesOf (l a n : Nat) : List Nat := (lineHalves l).filter fun h => 64 * h < a + n && a < 64 * h + 64

/-- The far cache of die `g` sees line `l` written or invalidated: the WATCHes that its masts keep on the line re-read the
word (R99). -/
def State.alertWatches (s : State) (g l : Nat) : State :=
  { s with masts := s.masts.map fun e =>
      if mastDie e.1 ≠ g then e
      else (e.1, { e.2 with threads := e.2.threads.map fun t => match t.2.wait with
        | .watch a v dl d _ => if a / 128 = l then (t.1, { t.2 with wait := .watch a v dl d true }) else t
        | _ => t }) }

/-! ### The pseudo-channel of a line, its rows and banks (R187, R197) -/

/-- The pseudo-channel that serves line `l`. -/
def State.lineChannel (s : State) (l : Nat) : Nat := s.channel (128 * l)

/-- Slot of an address within its pseudo-channel. -/
def State.slot (s : State) (a : Nat) : Nat := slotOf (s.placing a).2 a

/-- Granule within its 1 KiB row, bank and row of slot `q` (R197). -/
def slotGranule (q : Nat) : Nat := field q 1 0
def slotBank (q : Nat) : Nat := field q 5 2 ^^^ field q 21 18
def slotRow (q : Nat) : Nat := field q 21 6

/-- Whether granule half `h` of channel `c` lies in the open row of its bank (R212). -/
def State.rowOpen (s : State) (c h : Nat) : Bool :=
  let q := s.slot (64 * h)
  FMap.get s.openRows (16 * c + slotBank q) 0 == slotRow q + 1

/-- Opens the row of granule half `h` in its bank. -/
def State.openRow (s : State) (c h : Nat) : State :=
  let q := s.slot (64 * h)
  { s with openRows := FMap.set s.openRows (16 * c + slotBank q) 0 (slotRow q + 1) }

/-! ### Tracker entries (R209 to R211) -/

def State.tracker (s : State) (n : Nat) : Tracker := FMap.get s.trackers n {}
def State.setTracker (s : State) (n : Nat) (x : Tracker) : State := { s with trackers := FMap.set s.trackers n {} x }

/-- Entries that a pseudo-channel holds, and those of them that prefetches hold. -/
def Tracker.held (x : Tracker) : Nat := x.order.length
def Tracker.prefetches (x : Tracker) : Nat := (x.order.filter (·.pref)).length

/-- The entries that each pseudo-channel owns alone. -/
def trackerFloor : Nat := 32

/-- Entries in use and shared entries in use on die `d`. -/
def State.trackerUse (s : State) (d : Nat) : Nat × Nat :=
  s.trackers.foldl (fun (u, sh) e => if e.1 / 128 = d then (u + e.2.held, sh + (e.2.held - trackerFloor)) else (u, sh)) (0, 0)

/-- Entries kept for granted requesters other than `who`. -/
def Tracker.reserved (x : Tracker) (who : Nat) : Nat :=
  (x.granted.filter fun w => w.who ≠ who).foldl (fun n w => n + w.need) 0

/-- Why a request for `n` entries of channel `c` is refused: 3 its cap is held, 4 its floor is used and the shared
entries are exhausted (log 21). -/
def State.refusal (s : State) (c who n : Nat) : Option Nat :=
  let x := s.tracker c
  if x.held + x.reserved who + n > s.val 0x3180 1 then some 3
  else if x.held + n > trackerFloor ∧ (s.trackerUse (c / 128)).2 + (x.held + n - max x.held trackerFloor) > 61440 then some 4
  else none

/-- Whether a prefetch of `n` entries is refused: also where prefetches would hold more than a quarter of the cap (R210). -/
def State.prefetchRefused (s : State) (c who n : Nat) : Bool :=
  (s.refusal c who n).isSome || 4 * ((s.tracker c).prefetches + n) > s.val 0x3180 1

/-- The partition whose window covers an address. -/
def State.partOfAddr (s : State) (a : Nat) : Option Nat := (s.windowOf a).map (· / 16)

/-- The hot-channel detector counts the 64-byte requests that a pseudo-channel receives (R218). -/
def State.received (s : State) (c : Nat) (halves : List Nat) : State :=
  let h := FMap.get s.hot c {}
  let parts := halves.foldl (fun m a => match s.partOfAddr (64 * a) with | some p => setBit m p true | none => m) h.parts
  { s with hot := FMap.set s.hot c {} { h with count := h.count + halves.length, parts := parts } }

/-- The counts of entries in use of the die that channel `c` belongs to (Table 6.7). -/
def State.noteUse (s : State) (c : Nat) : State :=
  let d := c / 128
  let s : State := s.setVal (0x3100 + d) 1 (s.trackerUse d).1
  if s.val (0x3100 + d) 2 < s.val (0x3100 + d) 1 then s.setVal (0x3100 + d) 2 (s.val (0x3100 + d) 1) else s

/-- The home sends a request to the memory controller: one entry for each 64 bytes (R209). -/
def State.takeEntries (s : State) (c : Nat) (q : LineReq) (pref read : Bool) : State :=
  let x := s.tracker c
  let new := q.halves.map fun h => ({ half := h, who := q.who, pref := pref, read := read, since := s.tick } : Access)
  let x := { x with order := x.order ++ new, granted := x.granted.filter fun w => w.who ≠ q.who }
  (((s.setTracker c x).received c q.halves)).noteUse c

/-- Refuses a demand: counted, posted at most once per channel in 25,000 ticks; the requester joins the waiting set with
the age of its oldest refused request and holds the request (R211). -/
def State.refuseEntry (s : State) (c l : Nat) (q : LineReq) (why : Nat) : State :=
  let d := c / 128
  let s := ((s.received c q.halves).bump (0x3100 + d) why 1).postLimited c msTicks
    { code := 0x1320, plane := 2, part := partAll, kind := 2, num := d, detail := [(2, c)] }
  let x := s.tracker c
  let waiting := if x.waiting.any fun w => w.who = q.who then x.waiting
    else x.waiting ++ [{ stamp := q.stamp, who := q.who, need := q.halves.length }]
  { s.setTracker c { x with waiting := waiting, granted := x.granted.filter fun w => w.who ≠ q.who } with
      heldReqs := s.heldReqs ++ [(l, q)] }

/-- The waiting requester with the oldest stamp; equal stamps go to the lower number (R211). -/
def oldestWaiting (ws : List Waiter) : Option Waiter :=
  ws.foldl (fun best w => match best with
    | none => some w
    | some b => if w.stamp < b.stamp ∨ (w.stamp = b.stamp ∧ w.who < b.who) then some w else some b) none

/-- Grants freed entries to the requester that waits longest, once the entries it needs are free under the cap (R211). -/
def Tracker.grantNext (x : Tracker) (cap tick : Nat) : Tracker :=
  match oldestWaiting x.waiting with
  | none => x
  | some w =>
    let kept := x.granted.foldl (fun n y => n + y.need) 0
    if x.held + kept + w.need ≤ cap then
      { x with granted := x.granted ++ [{ w with since := tick }], waiting := x.waiting.filter fun y => y.who ≠ w.who }
    else x

/-! ### Recalls (R205, R207) -/

/-- A holder loses its copy by a recall or an eviction at the home: M returns its data, F counts as killed. -/
def State.recallHolder (s : State) (g l : Nat) : State :=
  let s := s.alertWatches g l
  match s.line g l with
  | none => s
  | some x =>
    match x.st with
    | .m => (s.countCache g 0x3200 3).dropLine g l
    | .f => (s.countCache g 0x3280 4).dropLine g l
    | .pending true false false => (s.countCache g 0x3280 4).setLine g l { x with st := .pending true true false }
    | .pending true false true => s.setLine g l { x with st := .pending true true true }
    | .pending _ _ _ => s
    | _ => s.dropLine g l

/-- Recalls a line from every holder but `keep` (R205, R207); counted where there is one. -/
def State.recall (s : State) (home keep l : Nat) : State :=
  let x := s.dirEntry l
  let others := (List.range 18).filter fun g => g != keep && bitOf x.presence g
  if others.isEmpty then s
  else
    let s := s.bump (0x3200 + home) 5 1
    let s := others.foldl (fun s g => s.recallHolder g l) s
    s.setDir l (others.foldl DirEntry.without x)

/-- Entries and ways of each directory (R205); which set a line falls in is open (log 1). -/
def directoryWays : Nat := 16
def directorySets : Nat := 2097152 / 16

/-- Makes room for the entry of a new line: where the 16 ways of its set are in use, the directory evicts an entry without a
transaction, which the spec does not choose (log 1). -/
def State.dirRoom (s : State) (l : Nat) : State :=
  if s.directory.any fun e => e.1 = l then s
  else
    let h := s.home (128 * l)
    let set := fun (k : Nat) => Config.dirSet k % directorySets
    let mine := s.directory.filter fun e => set e.1 = set l && s.home (128 * e.1) = h
    let free := mine.filter fun e => e.2.busy.isNone && e.2.waiting.isEmpty
    if mine.length < directoryWays || free.isEmpty then s
    else
      let (k, s) := s.open 32
      let v := (free.getD (k % free.length) (0, {})).1
      (s.recall h 18 v).setDir v {}

/-! ### A request at its home (R205 to R208) -/

/-- The home gives up its own M or E copy to serve another cache from it (Table 6.2). -/
def State.shareHome (s : State) (h l : Nat) : State :=
  let x := s.dirEntry l
  if x.owner = some h then
    match s.line h l with
    | some y => (s.setLine h l { y with st := .s }).setDir l x.shared
    | none => s
  else s

/-- Serves one request at the home of line `l` (R205 to R208): forwards it to an owner, waits for invalidations, serves
it from the home's own cache, or takes tracker entries; a refused demand changes nothing at the line. -/
def State.serveLine (s : State) (l : Nat) (q : LineReq) : State :=
  let x := s.dirEntry l
  let h := s.home (128 * l)
  let c := s.lineChannel l
  let g := q.agent
  let start := fun (s : State) => s.setDir l { s.dirEntry l with busy := some q }
  let fromMemory := fun (s : State) (prepare : State → State) (pref read : Bool) =>
    match s.refusal c q.who q.halves.length with
    | some why => s.refuseEntry c l q why
    | none => start ((prepare s).takeEntries c q pref read)
  let atHome := bitOf x.presence h
  match q.ask with
  | .evict => s
  | .writeback =>
    match s.refusal c q.who q.halves.length with
    | some why => s.refuseEntry c l q why
    | none => s.takeEntries c q false false
  | .prefetch =>
    if x.owner.isSome || atHome then start (s.shareHome h l)
    else if s.prefetchRefused c q.who q.halves.length then
      match s.line g l with
      | some ⟨.pending _ _ true, _, _, _, _, _⟩ => fromMemory s id false true
      | _ =>
        let s := (s.received c q.halves).setVal (0x3280 + g) 1 (s.val (0x3280 + g) 1 - 1)
        (s.countCache g 0x3280 6).dropLine g l
    else start (s.takeEntries c q true true)
  | .ownWhole => start s
  | .own => if x.owner.isSome || atHome || bitOf x.presence g then start s else fromMemory s id false true
  | .read | .uncached =>
    if (x.owner.isSome && x.owner != some g) || atHome then start (s.shareHome h l) else fromMemory s id false true
  | .atHome .read => if x.owner.isSome || atHome then start (s.shareHome h l) else fromMemory s id false true
  | .atHome .write => if atHome then start (s.recall h h l) else fromMemory s (fun s => s.recall h h l) false false
  | .atHome .atomic => if atHome then start (s.recall h h l) else fromMemory s (fun s => s.recall h h l) false true
  | .atHome .add => fromMemory s (fun s => s.recall h 18 l) false true

/-- A request reaches its home: it is served, or waits in the line's queue behind a transaction (R206). -/
def State.reach (s : State) (l : Nat) (q : LineReq) : State :=
  let s := s.dirRoom l
  let x := s.dirEntry l
  if x.busy.isSome then s.setDir l { x with waiting := x.waiting ++ [q] } else s.serveLine l q

/-- Serves the requests of a line's queue in order until one of them is in progress (R206). -/
def State.serveNext (s : State) (l : Nat) : Nat → State
  | 0 => s
  | n + 1 =>
    let x := s.dirEntry l
    match x.busy, x.waiting with
    | none, q :: r => ((s.setDir l { x with waiting := r }).serveLine l q).serveNext l n
    | _, _ => s

/-- Ends the transaction of a line with `x` as its entry, and goes on with the queue. -/
def State.endTransaction (s : State) (l : Nat) (x : DirEntry) : State :=
  (s.setDir l { x with busy := none }).serveNext l (x.waiting.length + 1)

/-! ### Requests as they leave a requester (R211) -/

/-- The requests at the homes that requester `who` waits for, in units of 64 bytes. -/
def State.inFlight (s : State) (who : Nat) : Nat :=
  s.directory.foldl (fun n e =>
    (e.2.waiting ++ (match e.2.busy with | some q => [q] | none => [])).foldl
      (fun n q => if q.who = who then n + q.halves.length else n) n) 0

/-- Whether a requester has a request that is not yet served. -/
def State.awaits (s : State) (who : Nat) : Bool :=
  s.inFlight who != 0 || (s.heldReqs.any fun e => e.2.who = who) || s.lines.any fun e => e.2.waits.contains who

/-- The base die whose trim unit is requester `who`, if it is one. -/
def trimUnitOf (who : Nat) : Option Nat :=
  if 2 ^ 23 ≤ who ∧ who < 2 ^ 23 + 2 ^ 24 then some ((who - 2 ^ 23) / 2 ^ 20) else none

/-- The entries of die `d`'s tracker that the trim requests of die `t` hold (R276). -/
def State.trimUse (s : State) (d t : Nat) : Nat :=
  s.trackers.foldl (fun n e => if e.1 / 128 = d then n + (e.2.order.filter fun a => trimUnitOf a.who = some t).length else n) 0

/-- Whether a requester may not have `n` more 64-byte requests outstanding to line `l`: a halyard stream has at most 1,024
(R211), the trim requests of one die hold at most 6360h:01 entries of a tracker (R276); no other requester is limited. -/
def State.overLimit (s : State) (who n l : Nat) : Bool :=
  match trimUnitOf who with
  | some t => s.trimUse (s.lineChannel l / 128) t + n > s.val 0x6360 1
  | none => decide (who < 3145728) && 512 ≤ who % 1024 && s.inFlight who + n > 1024

/-- Whether a requester holds a request to channel `c`. -/
def State.holdsFor (s : State) (who c : Nat) : Bool :=
  s.heldReqs.any fun e => e.2.who = who && s.lineChannel e.1 = c

/-- Sends a request to its home; it is held behind a refused one to the same pseudo-channel, or beyond the limit of
outstanding requests (R211). -/
def State.sendLine (s : State) (l g : Nat) (ask : LineAsk) (who : Nat) (halves : List Nat) : State :=
  let q : LineReq := { agent := g, ask := ask, who := who, stamp := s.uses, halves := halves }
  let s := { s with uses := s.uses + 1 }
  if ask ≠ .prefetch ∧ (((s.heldReqs.any fun e => e.2.who = who) && s.holdsFor who (s.lineChannel l)) ||
      s.overLimit who halves.length l) then
    { s with heldReqs := s.heldReqs ++ [(l, q)] }
  else s.reach l q

/-- Whether a held request may leave now: it is the oldest that its requester holds to its pseudo-channel, that requester
does not wait for a grant there, and it stays within the limit of outstanding requests (R211). -/
def State.mayResend (s : State) (l : Nat) (q : LineReq) : Bool :=
  let c := s.lineChannel l
  !((s.tracker c).waiting.any fun w => w.who = q.who) &&
    (s.heldReqs.find? fun e => e.2.who = q.who && s.lineChannel e.1 = c) == some (l, q) &&
    !s.overLimit q.who q.halves.length l

/-- Accesses `[a, a + n)` at the homes of its lines, past the requester's far cache (R207, R208, R236). -/
def State.accessHome (s : State) (who : Nat) (op : HomeOp) (a n : Nat) : State :=
  forRange ((a + (n - 1)) / 128 - a / 128 + 1) s fun i s =>
    let l := a / 128 + i
    if s.homeFenced (128 * l) then s else s.sendLine l (s.home (128 * l)) (.atHome op) who (halvesOf l a n)

/-! ### The prefetcher (R216, R217) -/

/-- The largest prefetch depth in force. -/
def State.prefetchMax (s : State) : Nat := s.val 0x3290 2

/-- Whether a stream continues at line `l`, and the stream with its run counted on. -/
def Stream.next? (x : Stream) (l use : Nat) : Option Stream :=
  if l = x.line + 1 ∧ (x.up ∨ x.run = 1) then some { x with line := l, up := true, run := x.run + 1, stamp := use }
  else if l + 1 = x.line ∧ (!x.up ∨ x.run = 1) then some { x with line := l, up := false, run := x.run + 1, stamp := use }
  else none

/-- The least recently used stream leaves where 64 stand. -/
def trimStreams (xs : List Stream) : List Stream :=
  if xs.length < 64 then xs
  else
    let oldest := xs.foldl (fun m x => min m x.stamp) (xs.headD ⟨0, true, 0, 0, 0, 0⟩).stamp
    xs.filter fun x => x.stamp != oldest

/-- Doubles the depth of the stream of line `l`, up to the largest; or halves it, down to 1. -/
def State.adaptDepth (s : State) (g l : Nat) (grow : Bool) : State :=
  let xs := (FMap.get s.streams g []).map fun x =>
    let ahead := if x.up then x.line < l && l ≤ x.next else l < x.line && x.next ≤ l
    if ahead || x.line = l then
      { x with depth := if grow then min (2 * x.depth) s.prefetchMax else max (x.depth / 2) 1 }
    else x
  { s with streams := FMap.set s.streams g [] xs }

/-- Sends a prefetch for line `l` where the cache does not hold it and it lies in the window (R216). -/
def State.prefetchLine (s : State) (g w l : Nat) : State :=
  if winAllows w (128 * l) 128 [rightRd] && (s.line g l).isNone && !s.homeFenced (128 * l) then
    let s := s.setLine g l { st := .pending true false false, stamp := s.uses }
    (s.countCache g 0x3280 1).sendLine l g .prefetch (cacheWho g) (lineHalves l)
  else s

/-- The lines that a confirmed stream at `x` fetches ahead, no deeper than the largest depth in force. -/
def Stream.ahead (x : Stream) (most : Nat) : List Nat :=
  (List.range (min x.depth most)).filterMap fun i =>
    if x.up then some (x.line + 1 + i) else if i + 1 ≤ x.line then some (x.line - 1 - i) else none

/-- A demand miss, or the use of a prefetched line, at line `l`: trains the streams and, on a confirmed one, prefetches
(R216). A run of earlier misses counts within one 4 KiB page; a confirmed stream may leave its page. -/
def State.trainPrefetch (s : State) (g w l : Nat) : State :=
  if s.val 0x3290 1 = 0 ∨ bitOf w 56 ∨ 16 ≤ g then s
  else
    let xs := FMap.get s.streams g []
    match xs.findSome? fun x =>
        (x.next? l s.uses).bind fun y => if x.run < 3 ∧ x.line / 32 ≠ l / 32 then none else some (x, y) with
    | none =>
      { s with streams := FMap.set s.streams g [] (trimStreams xs ++ [⟨l, true, 1, min 2 s.prefetchMax, l, s.uses⟩]),
               uses := s.uses + 1 }
    | some (x, y) =>
      let y := { y with depth := min y.depth s.prefetchMax }
      let far := y.ahead s.prefetchMax
      let y := if 3 ≤ y.run then { y with next := far.getLastD y.next } else y
      let s := { s with streams := FMap.set s.streams g [] (xs.map fun z => if z = x then y else z), uses := s.uses + 1 }
      if 3 ≤ y.run then far.foldl (fun s k => s.prefetchLine g w k) s else s

/-! ### Demands of masts and lamplighter cores (R203, R204, R208) -/

/-- Whether agent `g` has asked the home for ownership of line `l` and waits for it. -/
def State.asksOwn (s : State) (g l : Nat) : Bool :=
  let own := fun (q : LineReq) => q.agent = g && (q.ask = .own || q.ask = .ownWhole)
  let x := s.dirEntry l
  (match x.busy with | some q => own q | none => false) || x.waiting.any own || s.heldReqs.any fun e => e.1 = l && own e.2

/-- Asks the home for ownership of a line that the cache holds in S (Table 6.2). -/
def State.upgrade (s : State) (g l who : Nat) (whole : Bool) : State :=
  if s.asksOwn g l then s else s.sendLine l g (if whole then .ownWhole else .own) who (lineHalves l)

/-- A demand that waits for a fill that is pending. -/
def Line.joined (x : Line) (st : LineState) (who : Nat) (write : Bool) : Line :=
  { x with st := st, waits := if x.waits.contains who then x.waits else x.waits ++ [who], own := x.own || write }

/-- A demand read or write of one line through the cache of agent `g`, under window `w`; `whole` where the whole line is
written (R204). -/
def State.demandLine (s : State) (g w who : Nat) (write whole : Bool) (l : Nat) : State :=
  let hit := fun (s : State) => s.countCache g 0x3200 1
  let miss := fun (s : State) => s.countCache g 0x3200 2
  let written := fun (s : State) => if write then s.alertWatches g l else s
  match s.line g l with
  | some x =>
    match x.st with
    | .m => written ((hit s).touchLine g l .m)
    | .e => written ((hit s).touchLine g l (if write then .m else .e))
    | .s => let s := written ((hit s).touchLine g l .s); if write then s.upgrade g l who whole else s
    | .f =>
      let y := (s.dirEntry l).without g
      let s := (hit s).countCache g 0x3280 2
      let s := if write then (s.touchLine g l .s).upgrade g l who whole
        else if y.presence = 0 then (s.touchLine g l .e).setDir l ((s.dirEntry l).withHolder g true)
        else s.touchLine g l .s
      (written s).trainPrefetch g w l
    | .pending true false false =>
      let s := ((miss s).countCache g 0x3280 2).countCache g 0x3280 3
      ((s.setLine g l (x.joined (.pending true false true) who write)).adaptDepth g l true).trainPrefetch g w l
    | .pending p k _ => (miss s).setLine g l (x.joined (.pending p k true) who write)
  | none =>
    let s := (miss s).trainPrefetch g w l
    if !write && bitOf w 55 && s.home (128 * l) != g then s.sendLine l g .uncached who (lineHalves l)
    else
      let s := { s.setLine g l { st := .pending false false true, stamp := s.uses } with uses := s.uses + 1 }
      s.sendLine l g (if !write then .read else if whole then .ownWhole else .own) who (lineHalves l)

/-- A demand access to `n` bytes at `a`; a line whose home is fenced is not asked for (R472). -/
def State.demand (s : State) (g w who a n : Nat) (write : Bool) : State :=
  forRange ((a + (n - 1)) / 128 - a / 128 + 1) s fun i s =>
    let l := a / 128 + i
    if s.homeFenced (128 * l) then s
    else s.demandLine g w who write (decide (a ≤ 128 * l) && decide (128 * l + 128 ≤ a + n)) l

/-- The far cache of a base die keeps line `l` Shared for a WATCH (R99); a line that it does not hold is asked for. -/
def State.keepShared (s : State) (g l : Nat) : State :=
  match s.line g l with
  | none =>
    let s := s.setLine g l { st := .pending false false true, stamp := s.uses, watched := true }
    s.sendLine l g .read (cacheWho g) (lineHalves l)
  | some x =>
    let y := { x with watched := true }
    match x.st with
    | .m => ((s.countCache g 0x3200 3).setLine g l { y with st := .s }).setDir l (s.dirEntry l).shared
    | .e => (s.setLine g l { y with st := .s }).setDir l (s.dirEntry l).shared
    | _ => s.setLine g l y

/-! ### The commands of the coherence protocol -/

/-- The set of a line: address bits [22:7] folded with [38:23] (R202). -/
def lineSet (l : Nat) : Nat := l % 2 ^ 16 ^^^ (l / 2 ^ 16) % 2 ^ 16

/-- Replaces a line of cache `g`: the home is told, or gets the data back (R202, Table 6.2). -/
def State.evictLine (s : State) (g l : Nat) (st : LineState) : State :=
  let s := ((s.setDir l ((s.dirEntry l).without g)).dropLine g l).alertWatches g l
  match st with
  | .m => (s.countCache g 0x3200 3).sendLine l g .writeback (cacheWho g) (lineHalves l)
  | .f => (s.countCache g 0x3280 5).adaptDepth g l false
  | _ => s

/-- Makes a way free for line `l` in far cache `g`: state F first, then least recently used (R202). -/
def State.lineRoom (s : State) (g l : Nat) : State :=
  if 16 ≤ g then s else
  let mine := s.lines.filter fun e =>
    e.1 / 2 ^ 34 = g && lineSet (e.1 % 2 ^ 34) = lineSet l && e.1 % 2 ^ 34 != l &&
      (match e.2.st with | .pending _ _ _ => false | _ => true)
  if mine.length < 16 then s
  else
    let fs := mine.filter fun e => e.2.st = .f
    let pool := if fs.isEmpty then mine else fs
    let best := pool.foldl (fun b e => match b with
      | none => some e
      | some x => if e.2.stamp < x.2.stamp then some e else some x) none
    match best with
    | none => s
    | some e => s.evictLine g (e.1 % 2 ^ 34) e.2.st

/-- DIRECTORY_REQUEST (R206, R211): a request reaches its home. One that its requester holds is sent again, when it may be;
else the cache asks on its own account, an eviction or write-back for a line that it holds, anything else for a line for
which it has no request under way. -/
def execDirectoryRequest (g l : Nat) (ask : LineAsk) (s : State) : Result :=
  if 18 ≤ g then .next s else
  match s.heldReqs.find? fun e => e.1 = l && e.2.agent = g && e.2.ask = ask && s.mayResend l e.2 with
  | some e => .next ({ s with heldReqs := s.heldReqs.erase e }.reach l e.2)
  | none =>
    match ask, (s.line g l).map Line.st with
    | .evict, some .e => .next (s.evictLine g l .e)
    | .evict, some .s => .next (s.evictLine g l .s)
    | .evict, some .f => .next (s.evictLine g l .f)
    | .writeback, some .m => .next (s.evictLine g l .m)
    | .evict, _ | .writeback, _ => .next s
    | .prefetch, none =>
      let s := s.setLine g l { st := .pending true false false, stamp := s.uses }
      .next ((s.countCache g 0x3280 1).sendLine l g .prefetch (cacheWho g) (lineHalves l))
    | .prefetch, some _ => .next s
    | _, _ =>
      if s.heldReqs.any (fun e => e.1 = l && e.2.agent = g) then .next s
      else .next (s.sendLine l g ask (cacheWho g) (lineHalves l))

/-- Whether the transaction of a line can end at its requester: its tracker entries are free again, an owner was asked
(R203), and an ownership waits for the invalidations. -/
def State.fillReady (s : State) (l : Nat) (q : LineReq) : Bool :=
  let x := s.dirEntry l
  !((s.tracker (s.lineChannel l)).order.any fun a => a.who = q.who && q.halves.contains a.half) &&
    match q.ask with
    | .own | .ownWhole => ((List.range 18).filter fun o => o != q.agent && bitOf x.presence o).isEmpty
    | .read | .uncached | .prefetch | .atHome .read => x.owner.isNone || x.owner = some q.agent
    | _ => true

/-- The data goes to the requester, whose line takes the state `st`, and the transaction ends with the directory entry `x`; a
write that waited takes ownership of its line, or asks for it (Table 6.2). Room is made while the line is still in its
transaction, and its queue goes on once the requester holds the line. -/
def State.fillLine (s : State) (g l : Nat) (st : LineState) (x : DirEntry) : State :=
  let old := s.line g l
  let own := match old with | some y => y.own | none => false
  let who := match old with | some y => y.waits.headD (cacheWho g) | none => cacheWho g
  let s := ((s.lineRoom g l).touchLine g l (if own && st == .e then .m else st)).endTransaction l x
  if own && st == .s then s.upgrade g l who false else s

/-- What the end of a transaction leaves at the requester and in the directory (R203 to R208). A killed fill is discarded;
a demand that waited for it asks again. -/
def State.fill (s : State) (l : Nat) (q : LineReq) : State :=
  let x := s.dirEntry l
  let g := q.agent
  let alone : Bool := (x.without g).presence == 0
  match q.ask with
  | .own | .ownWhole => s.fillLine g l .m (x.withHolder g true)
  | .uncached =>
    let h := s.home (128 * l)
    if (s.line h l).isSome then s.endTransaction l x
    else s.fillLine h l (if x.presence = 0 then .e else .s) (x.withHolder h (x.presence == 0))
  | .read | .prefetch =>
    match s.line g l with
    | some ⟨.pending _ true used, st, _, waits, own, _⟩ =>
      let s := (s.dropLine g l).endTransaction l x
      if used then
        let s := s.setLine g l { st := .pending false false true, stamp := st, waits := waits, own := own }
        s.sendLine l g .read (waits.headD q.who) (lineHalves l)
      else s
    | some ⟨.pending true false false, _, _, _, _, _⟩ => s.fillLine g l .f (x.withHolder g false)
    | _ => s.fillLine g l (if alone then .e else .s) (x.withHolder g alone)
  | _ => s.endTransaction l x

/-- FORWARDED_READ (R203): a foreign read reaches a holder; M and E become S, the data goes on to the requester. -/
def execForwardedRead (g l : Nat) (s : State) : Result :=
  match s.line g l with
  | none => .next s
  | some x =>
    match x.st with
    | .m | .e => .next ((s.setLine g l { x with st := .s }).setDir l (s.dirEntry l).shared)
    | _ => .next s

/-- INVALIDATE (R203, R99): an invalidation from the home reaches a cache. -/
def execInvalidate (g l : Nat) (s : State) : Result :=
  let s := (s.countCache g 0x3200 4).alertWatches g l
  let gone := fun (s : State) => (s.dropLine g l).setDir l ((s.dirEntry l).without g)
  match s.line g l with
  | none => .next (s.setDir l ((s.dirEntry l).without g))
  | some x =>
    match x.st with
    | .f => .next (gone (s.countCache g 0x3280 4))
    | .pending true false false => .next ((s.countCache g 0x3280 4).setLine g l { x with st := .pending true true false })
    | .pending true false true => .next (s.setLine g l { x with st := .pending true true true })
    | .pending _ _ _ => .next s
    | _ => .next (gone s)

/-! ### Memory controllers (R198 to R201, R209 to R212) -/

/-- An uncorrectable read: the granule half is poisoned, counted and posted (R199). -/
def State.uncorrectable (s : State) (stack half : Nat) : State :=
  let s := (s.poisonHalf half).bump (0x3000 + stack / 2) 2 1
  let p := s.partOfAddr (64 * half)
  s.post { code := 0x3010, plane := 2, part := partOr p, kind := 8, num := stack, detail := [(8, 64 * half), (1, partOr p)] }

/-- The Reed-Solomon code of 72 symbols over a granule half (R198): up to 3 wrong symbols are corrected and counted, 4 and 5
are detected; of more than 5 the spec promises nothing, and whether they are detected, and else what the data becomes, is
open (log 1). -/
def State.decodeHalf (s : State) (stack half wrong : Nat) : State :=
  if wrong = 0 then s
  else if wrong ≤ 3 then s.bump (0x3000 + stack / 2) 1 1
  else if wrong ≤ 5 then s.uncorrectable stack half
  else
    let (seen, s) := s.open 1
    if seen = 1 then s.uncorrectable stack half
    else
      let (v, s) := s.open 512
      { s with mem := FMap.writeLE s.mem (64 * half) 64 v }.bump (0x3000 + stack / 2) 1 1

/-- The longest a request waits behind younger ones that hit an open row: 2 µs (R212). -/
def accessBound : Nat := 50

/-- The access of pseudo-channel `c` that the controller ends next: one that has waited 2 µs, else the oldest that hits an
open row, else the oldest (R212). -/
def State.nextAccess (s : State) (c : Nat) : Option Access :=
  let q := (s.tracker c).order
  (q.find? fun a => a.since + accessBound ≤ s.tick).or ((q.find? fun a => s.rowOpen c a.half).or q.head?)

/-- One access of a pseudo-channel ends: its entry frees and is granted on; a read is decoded (R198, R209, R211). -/
def State.accessDone (s : State) (c : Nat) (a : Access) (wrong : Nat) : State :=
  let x := s.tracker c
  let x := ({ x with order := x.order.erase a }).grantNext (s.val 0x3180 1) s.tick
  let s := ((s.openRow c a.half).setTracker c x).bump (0x3100 + c / 128) 5 1
  let s := s.setVal (0x3100 + c / 128) 1 (s.trackerUse (c / 128)).1
  if a.read then s.decodeHalf (c / 64) a.half wrong else s

/-- TRACKER_GRANT_TIMEOUT (R211): a granted requester did not send within 256 fabric cycles, less than 5 pilot ticks; the
grant passes on. -/
def execTrackerGrantTimeout (c : Nat) (s : State) : Result :=
  let x := s.tracker c
  match x.granted with
  | [] => .next s
  | w :: r =>
    if s.tick < w.since + 5 then .next s
    else .next (s.setTracker c ({ x with granted := r }.grantNext (s.val 0x3180 1) s.tick))

/-- Granule halves of one stack: 64 pseudo-channels of 4,194,304 or 3,145,728 slots of 4 halves (R186, R198). -/
def State.stackHalves (s : State) : Nat := 64 * (if s.ident.variantS then 3145728 else 4194304) * 4

/-- The address that the granule at (channel `n`, slot `q`) has under a key and spread: the inverse of R194 and R195. -/
def addressAt (key : Nat) (stripe : Bool) (n q : Nat) : Nat :=
  let kb := keyBits key
  if stripe then
    let hi := q / 256
    let mid := q % 256
    let low := n % 128 ^^^ hashU kb % 2 ^ 7 ^^^ hashT7 kb (mid % 128)
    hi * 2 ^ 27 + (n / 128) * 2 ^ 23 + mid * 2 ^ 15 + low * 2 ^ 8
  else
    let a := q * 2 ^ 19
    a + (n ^^^ hashU kb ^^^ hashT kb (field a 29 19) ^^^ hashT kb (hashS kb (field a 40 30))) * 2 ^ 8

/-- The address stored at a channel and slot, if a window or the carve-out puts one there. -/
def State.addressOf (s : State) (n q : Nat) : Option Nat :=
  let tryWin := fun k =>
    let w := s.window (k / 16) (k % 16)
    let a := addressAt (s.part (k / 16)).key (bitOf w 49) n q
    if winLen w != 0 && winAllows w a 256 [] then some a else none
  let carve := addressAt (s.part packageKeyPlace).key false n q
  ((List.range 256).findSome? tryWin).or (if carve < s.val 0x7040 1 * 2 ^ 30 then some carve else none)

/-- The address at a channel and slot; where no window puts one there, the one that the package's own spread gives. -/
def State.scrubAddress (s : State) (n q : Nat) : Nat :=
  (s.addressOf n q).getD (addressAt (s.part packageKeyPlace).key false n q)

/-- PATROL_SCRUB (R200): the scrub reads and corrects the next granule half of stack `k`, channel by channel and slot by
slot (log 53). -/
def execPatrolScrub (k wrong : Nat) (s : State) : Result :=
  if 32 ≤ k then .next s else
  let x := FMap.get s.hbm k {}
  let half := s.scrubAddress (64 * k + (x.scrub / 4) % 64) (x.scrub / 256) / 64 + x.scrub % 4
  let s := s.decodeHalf k half wrong
  let pos := x.scrub + 1
  if pos < s.stackHalves then .next { s with hbm := FMap.set s.hbm k {} { x with scrub := pos } }
  else .next ({ s with hbm := FMap.set s.hbm k {} { x with scrub := 0 } }.bump (0x3000 + k / 2) 7 1)

/-- HBM_TEMP_SAMPLE (R201): every 25,000 pilot ticks the controller reads its stack's sensor. -/
def execHbmTempSample (k temp : Nat) (s : State) : Result :=
  let x := FMap.get s.hbm k {}
  if 32 ≤ k ∨ s.tick < x.since + msTicks then .next s else
  let d := k / 2
  let limit := s.val (0x3000 + d) 8
  let on := if limit ≤ temp then true else if temp + 5 ≤ limit then false else x.throttle
  let s := s.setVal (0x3000 + d) (4 + k % 2) temp
  let s := s.setVal (0x3000 + d) 6 (setBit (s.val (0x3000 + d) 6) (k % 2) on)
  let s := { s with hbm := FMap.set s.hbm k {} { x with temp := temp, throttle := on, since := s.tick } }
  if on && !x.throttle then
    .next (s.post { code := 0x3030, plane := 2, part := partAll, kind := 8, num := k, detail := [(1, k), (1, temp)] })
  else .next s

/-- Flagged windows in a row after which HOT_CHANNEL is posted. -/
def hotRunLimit : Nat := 60000

/-- Posts HOT_CHANNEL for each partition that the channel served; for the carve-out alone, to the operator. -/
def State.postHot (s : State) (d c parts : Nat) : State :=
  let ps := (List.range 16).filter (bitOf parts)
  (if ps.isEmpty then [partOperator] else ps).foldl (fun s p =>
    (s.bump (0x3300 + d) 4 1).post
      { code := 0x1310, plane := 2, part := p, kind := 2, num := d, detail := [(2, c), (1, p)] }) s

/-- One pseudo-channel at the end of the detector's window (R218). -/
def State.hotChannelEnd (s : State) (d total c : Nat) : State :=
  let h := FMap.get s.hot c {}
  let flagged := 128 * h.count > 4 * total && 4096 ≤ h.count
  if flagged then
    let run := h.run + 1
    let fire := run = hotRunLimit && !h.posted
    let s := s.bump (0x3300 + d) 1 1
    let s := { s with hot := FMap.set s.hot c {} { count := 0, run := run, posted := h.posted || fire, parts := h.parts } }
    if fire then s.postHot d c h.parts else s
  else { s with hot := FMap.set s.hot c {} { count := 0, run := 0, posted := false, parts := 0 } }

/-- HOT_WINDOW_END (R218): the detector of base die `d` ends a window of 25,000 pilot ticks. -/
def execHotWindowEnd (d : Nat) (s : State) : Result :=
  if 16 ≤ d ∨ s.tick < FMap.get s.hotSince d 0 + msTicks then .next s else
  let mine := fun (s : State) => s.hot.filter fun e => e.1 / 128 = d
  let total := (mine s).foldl (fun t e => t + e.2.count) 0
  let s := { s with hotSince := FMap.set s.hotSince d 0 s.tick }
  let s := (mine s).foldl (fun s e => s.hotChannelEnd d total e.1) s
  let best := (mine s).foldl (fun (b : Nat × Nat) e => if b.2 < e.2.run then (e.1, e.2.run) else b) (0xFFFF, 0)
  .next ((s.setVal (0x3300 + d) 2 best.1).setVal (0x3300 + d) 3 best.2)

/-! ### Copies that are dropped (R191, R443) -/

/-- Every cached copy of line `l` is lost: a prefetched one counts as killed (R217). -/
def State.loseLine (s : State) (l : Nat) : State :=
  let s := (List.range 18).foldl (fun s g => s.recallHolder g l) s
  let x := s.dirEntry l
  s.setDir l { x with owner := none, presence := 0 }.settled

/-- Drops every cached copy of the lines of a range. -/
def State.dropLines (s : State) (a n : Nat) : State :=
  let hit := fun (line : Nat) => a < 128 * line + 128 && 128 * line < a + n
  let held := s.lines.filterMap fun e => if hit (e.1 % 2 ^ 34) then some (e.1 % 2 ^ 34) else none
  held.dedup.foldl (fun s l => s.loseLine l) s

/-- The far cache of base die `d` stops: its lines are written back or invalidated, memory holds the bytes, and the requests
that it made, or that die `d` served as home, end (R443). -/
def State.flushAgent (s : State) (d : Nat) : State :=
  let mine := s.lines.filterMap fun e => if e.1 / 2 ^ 34 = d then some (e.1 % 2 ^ 34) else none
  let s := mine.foldl (fun s l => (s.recallHolder d l).setDir l ((s.dirEntry l).without d)) s
  let gone := fun (l : Nat) (q : LineReq) => q.agent = d || s.home (128 * l) = d
  let ended := s.directory.filterMap fun e => match e.2.busy with
    | some q => if gone e.1 q then some e.1 else none
    | none => none
  let s : State := { s with
    lines := s.lines.filter fun e => e.1 / 2 ^ 34 != d
    directory := s.directory.map fun e => (e.1, { e.2 with waiting := e.2.waiting.filter fun q => !gone e.1 q })
    heldReqs := s.heldReqs.filter fun e => !gone e.1 e.2
    trackers := s.trackers.filter fun e => e.1 / 128 != d }
  ended.foldl (fun s l => s.endTransaction l (s.dirEntry l)) s

/-- The requests of one requester are held no longer: its unit ended. -/
def State.forgetRequests (s : State) (mine : Nat → Bool) : State :=
  { s with heldReqs := s.heldReqs.filter fun e => !mine e.2.who,
           trackers := s.trackers.map fun e =>
             (e.1, { e.2 with waiting := e.2.waiting.filter fun w => !mine w.who,
                              granted := e.2.granted.filter fun w => !mine w.who }) }

end Sys2Proof.Machine
end

