-- ==== Sys2Proof/Machine/Access.lean ====
section
/-! DEFINITION. Memory requests of masts, ports, cores and the engines of the base dies: the window check, the far cache or
the home, poison and fenced homes, then the bytes (R188, R199, R206 to R208, R472). -/
namespace Sys2Proof.Machine

/-- What a request answers: the bytes as a number, and whether it is an uncorrectable data error (R96, R188, R199). -/
structure Answer where
  val : Nat
  err : Bool
deriving DecidableEq, Repr

/-- The entry of the window that admits a request. -/
def State.windowFor (s : State) (part : Option Nat) (a n : Nat) (rights : List Nat) : Nat :=
  match part with
  | none => 0
  | some p => match s.findWindow p a n rights with | none => 0 | some k => s.window p k

/-- A request that was admitted goes through the far cache of its mast's base die; one of a port is served at the home and
allocates nothing where it enters (R203, R208). -/
def State.fetchFor (s : State) (r : Requester) (part : Option Nat) (a n : Nat) (write : Bool) : State :=
  match r with
  | .port _ _ => s.accessHome r.who (if write then .write else .read) a n
  | _ => s.demand r.die (s.windowFor part a n [if write then rightWr else rightRd]) r.who a n write

/-- A read of `n` bytes within one 128-byte line. Blocked: zero with an error. Poisoned or fenced: an error, and the data
is open (log 1). -/
def State.readReq (s : State) (r : Requester) (part : Option Nat) (a n : Nat) : Answer × State :=
  if s.admits part a n [rightRd] then
    let s := s.fetchFor r part a n false
    if s.badRange a n then let (v, s) := s.open (8 * n); (⟨v, true⟩, s) else (⟨s.load a n, false⟩, s)
  else (⟨0, true⟩, s.blocked r part a n)

/-- A write of `n` bytes within one 128-byte line. Blocked, or homed on a fenced die: nothing changes, an error. -/
def State.writeReq (s : State) (r : Requester) (part : Option Nat) (a n v : Nat) : Bool × State :=
  if s.admits part a n [rightWr] then
    let s := s.fetchFor r part a n true
    if s.homeFenced a then (true, s) else (false, s.store a n v)
  else (true, s.blocked r part a n)

/-- Cuts `[a, a + n)` at the 128-byte lines: start and length of each piece, at most `fuel` of them. -/
def pieces (a n : Nat) : Nat → List (Nat × Nat)
  | 0 => []
  | fuel + 1 => if n = 0 then [] else
    let k := min n (128 - a % 128)
    (a, k) :: pieces (a + k) (n - k) fuel

/-- The pieces of a request of any length. -/
def linePieces (a n : Nat) : List (Nat × Nat) := pieces a n (n / 128 + 2)

/-- A read of any length, line by line. -/
def State.readMany (s : State) (r : Requester) (part : Option Nat) (a n : Nat) : Answer × State :=
  (linePieces a n).foldl (fun (ans, s) (b, k) =>
    let (x, s) := s.readReq r part b k
    (⟨ans.val + x.val <<< (8 * (b - a)), ans.err || x.err⟩, s)) (⟨0, false⟩, s)

/-- A write of any length, line by line; answers whether any part of it ended in an error. -/
def State.writeMany (s : State) (r : Requester) (part : Option Nat) (a n v : Nat) : Bool × State :=
  (linePieces a n).foldl (fun (e, s) (b, k) =>
    let (x, s) := s.writeReq r part b k ((v >>> (8 * (b - a))) % 2 ^ (8 * k))
    (e || x, s)) (false, s)

/-- The bytes that an engine of a base die reads: poisoned or fenced data is open (log 1). -/
def State.engineValue (s : State) (a n : Nat) : Nat × State :=
  if s.badRange a n then s.open (8 * n) else (s.load a n, s)

/-- The bytes that an engine of a base die writes: none where the home is fenced (R472). -/
def State.engineKeep (s : State) (a n v : Nat) : State := if s.homeFenced a then s else s.store a n v

/-- A read by an engine of a base die (the trim unit, the collective scheduler) at the homes of the bytes, for requester
`who`. -/
def State.engineLoad (s : State) (who a n : Nat) : Nat × State := (s.accessHome who .read a n).engineValue a n

/-- A write by an engine of a base die: each line is recalled from its holders and written at its home (R206). -/
def State.engineStore (s : State) (who a n v : Nat) : State :=
  (linePieces a n).foldl (fun s (b, k) =>
    (s.accessHome who .write b k).engineKeep b k ((v >>> (8 * (b - a))) % 2 ^ (8 * k))) s

/-- An atomic step at the home of the word at `a` (R207). -/
def State.homeAtomic (s : State) (who a : Nat) : State := s.accessHome who .atomic a 8

/-- Memory words are 8 bytes; the low three address bits are ignored (R92). -/
def wordAddr (a : Word64) : Nat := a.toNat / 8 * 8

/-- An atomic operation on the word at `a` (R207): blocked, poisoned or fenced it answers none and changes no memory. -/
def State.atomicWord (s : State) (r : Requester) (part : Option Nat) (a : Nat) : Option Nat × State :=
  if s.admits part a 8 [rightAt] then
    let s := s.homeAtomic r.who a
    if s.badRange a 8 then (none, s) else (some (s.load a 8), s)
  else (none, s.blocked r part a 8)

end Sys2Proof.Machine
end

