-- ==== Sys2Proof/Machine/Numbers.lean ====
section
/-! DEFINITION. Number formats and the arithmetic contract: exact dyadic values, decoding and narrowing of every
element format (R47 to R63), F32 and F64 operations rounded to nearest, ties to even (R82). -/
namespace Sys2Proof.Machine

/-- An exact real of the form (−1)^neg × mag × 2^exp; a zero keeps its sign (R56). -/
structure Dyad where
  neg : Bool
  mag : Nat
  exp : Int
deriving DecidableEq, Repr

/-- A floating-point value as the package reads it: every NaN encoding is one quiet NaN (R54, R55). -/
inductive Fp where
  | nan
  | inf (neg : Bool)
  | fin (d : Dyad)
deriving DecidableEq, Repr

/-- How a format spells infinities and NaNs (Table 2.2). -/
inductive Special where
  | ieee   -- all-ones exponent: infinity or NaN
  | e4m3   -- no infinity; only all-ones exponent with all-ones fraction is NaN
  | none   -- neither infinity nor NaN (E2M1)
deriving DecidableEq, Repr

/-- A row of Table 2.2. -/
structure FpFormat where
  expBits  : Nat
  fracBits : Nat
  bias     : Nat
  special  : Special
deriving DecidableEq, Repr

def f32Format : FpFormat := ⟨8, 23, 127, .ieee⟩
def f19Format : FpFormat := ⟨8, 10, 127, .ieee⟩
def b16Format : FpFormat := ⟨8, 7, 127, .ieee⟩
def h16Format : FpFormat := ⟨5, 10, 15, .ieee⟩
def e4m3Format : FpFormat := ⟨4, 3, 7, .e4m3⟩
def e5m2Format : FpFormat := ⟨5, 2, 15, .ieee⟩
def e2m1Format : FpFormat := ⟨2, 1, 1, .none⟩
/-- binary64, used only by the bias-correction factors of R265 and by F64 objects. -/
def f64Format : FpFormat := ⟨11, 52, 1023, .ieee⟩

/-- The floating-point format of a 4-bit code of Table 2.1; none for I8, I32 and the reserved codes. -/
def fpFormatOf (code : Nat) : Option FpFormat :=
  match code with
  | 0 => some f32Format
  | 1 => some f19Format
  | 2 => some b16Format
  | 3 => some h16Format
  | 4 => some e4m3Format
  | 5 => some e5m2Format
  | 6 => some e2m1Format
  | _ => none

/-- Stored width in bits of a format code (Table 2.1); F19 lies in memory as F32 (R48). -/
def formatBits (code : Nat) : Nat :=
  match code with
  | 0 | 1 | 8 => 32
  | 2 | 3 => 16
  | 6 => 4
  | _ => 8

/-! ### Dyadic arithmetic, exact -/

def Dyad.zero (neg : Bool) : Dyad := ⟨neg, 0, 0⟩
def Dyad.one : Dyad := ⟨false, 1, 0⟩

def Dyad.isZero (d : Dyad) : Bool := d.mag == 0

/-- The signed magnitude of d in units of 2^e, rounded toward zero in magnitude when e lies above d's exponent. -/
def Dyad.toUnits (d : Dyad) (e : Int) : Int :=
  let m : Nat := if e ≤ d.exp then d.mag <<< (d.exp - e).toNat else d.mag >>> (e - d.exp).toNat
  if d.neg then -(m : Int) else (m : Int)

/-- The dyadic v × 2^e, with the sign of a zero result given. -/
def Dyad.ofUnits (v : Int) (e : Int) (zeroNeg : Bool) : Dyad :=
  if v = 0 then ⟨zeroNeg, 0, 0⟩ else ⟨v < 0, v.natAbs, e⟩

def Dyad.negate (d : Dyad) : Dyad := { d with neg := !d.neg }
def Dyad.abs (d : Dyad) : Dyad := { d with neg := false }
def Dyad.scale (d : Dyad) (k : Int) : Dyad := { d with exp := d.exp + k }
def Dyad.mul (a b : Dyad) : Dyad := ⟨a.neg != b.neg, a.mag * b.mag, a.exp + b.exp⟩

/-- Exact sum; a zero sum is −0 only when both operands are −0 (R56, IEEE round to nearest even). -/
def Dyad.add (a b : Dyad) : Dyad :=
  if a.isZero && b.isZero then ⟨a.neg && b.neg, 0, 0⟩
  else if a.isZero then b
  else if b.isZero then a
  else
    let e := min a.exp b.exp
    Dyad.ofUnits (a.toUnits e + b.toUnits e) e false

def Dyad.sub (a b : Dyad) : Dyad := a.add b.negate

/-- a < b as reals. -/
def Dyad.lt (a b : Dyad) : Bool :=
  let e := min a.exp b.exp
  a.toUnits e < b.toUnits e

/-- Weight exponent of the leading bit of a non-zero magnitude. -/
def Dyad.lead (d : Dyad) : Int := (d.mag.log2 : Int) + d.exp

/-- m ÷ 2^k rounded to nearest, ties to even. -/
def shiftRne (m k : Nat) : Nat :=
  let q := m >>> k
  let r := m - (q <<< k)
  let half := 1 <<< k
  if 2 * r > half then q + 1
  else if 2 * r = half ∧ k ≠ 0 then q + q % 2
  else q

/-- d rounded to p significant bits, no finer than 2^quantum, to nearest, ties to even. -/
def Dyad.round (d : Dyad) (p : Nat) (quantum : Int) : Dyad :=
  if d.mag = 0 then ⟨d.neg, 0, 0⟩
  else
    let q := max (d.lead - ((p : Int) - 1)) quantum
    if q ≤ d.exp then d
    else ⟨d.neg, shiftRne d.mag (q - d.exp).toNat, q⟩

/-! ### Formats -/

def FpFormat.width (f : FpFormat) : Nat := 1 + f.expBits + f.fracBits
def FpFormat.minExp (f : FpFormat) : Int := 1 - (f.bias : Int)
/-- Weight of the last bit of the smallest subnormal. -/
def FpFormat.quantum (f : FpFormat) : Int := f.minExp - (f.fracBits : Int)
def FpFormat.allOnes (f : FpFormat) : Nat := 2 ^ f.expBits - 1

/-- Encoding of the largest finite magnitude (Table 2.2). -/
def FpFormat.maxBits (f : FpFormat) : Nat :=
  match f.special with
  | .ieee => (f.allOnes - 1) * 2 ^ f.fracBits + (2 ^ f.fracBits - 1)
  | .e4m3 => f.allOnes * 2 ^ f.fracBits + (2 ^ f.fracBits - 2)
  | .none => f.allOnes * 2 ^ f.fracBits + (2 ^ f.fracBits - 1)

def FpFormat.hasInf (f : FpFormat) : Bool := f.special == .ieee
def FpFormat.signBit (f : FpFormat) (neg : Bool) : Nat := if neg then 2 ^ (f.expBits + f.fracBits) else 0
def FpFormat.infBits (f : FpFormat) (neg : Bool) : Nat := f.signBit neg + f.allOnes * 2 ^ f.fracBits

/-- The value of a magnitude field (exponent and fraction) as a dyadic, specials aside. -/
def FpFormat.finite (f : FpFormat) (neg : Bool) (e frac : Nat) : Dyad :=
  if e = 0 then ⟨neg, frac, f.quantum⟩
  else ⟨neg, 2 ^ f.fracBits + frac, (e : Int) - f.bias - f.fracBits⟩

/-- Reading an encoding (R50, R54 to R56). -/
def FpFormat.decode (f : FpFormat) (bits : Nat) : Fp :=
  let frac := bits % 2 ^ f.fracBits
  let e := bits / 2 ^ f.fracBits % 2 ^ f.expBits
  let neg := bits / 2 ^ (f.expBits + f.fracBits) % 2 == 1
  match f.special with
  | .ieee =>
    if e = f.allOnes then (if frac = 0 then .inf neg else .nan) else .fin (f.finite neg e frac)
  | .e4m3 =>
    if e = f.allOnes ∧ frac = 2 ^ f.fracBits - 1 then .nan else .fin (f.finite neg e frac)
  | .none => .fin (f.finite neg e frac)

/-- True of an encoding whose exponent field is zero and whose fraction is not. -/
def FpFormat.isSubnormal (f : FpFormat) (bits : Nat) : Bool :=
  bits / 2 ^ f.fracBits % 2 ^ f.expBits == 0 && bits % 2 ^ f.fracBits != 0

/-- The canonical NaN of Table 2.3, or of Table 2.6 in compatibility mode; E2M1 has none and writes +0 (R59). -/
def FpFormat.canonNan (f : FpFormat) (compat : Bool) : Nat :=
  match f.special with
  | .ieee =>
    if compat then 2 ^ (f.expBits + f.fracBits) - 1
    else f.allOnes * 2 ^ f.fracBits + 2 ^ (f.fracBits - 1)
  | .e4m3 => 2 ^ (f.expBits + f.fracBits) - 1
  | .none => 0

/-- The E5M2 canonical NaN of Table 2.3 is 7Eh natively; the other formats are as `canonNan` gives. -/
def canonNanOf (code : Nat) (compat : Bool) : Nat :=
  match fpFormatOf code with
  | some f => f.canonNan compat
  | none => 0

/-- What a narrowing did besides producing bits (R59 to R61): the lantern kinds. -/
inductive NarrowNote where
  | plain
  | overflow     -- a finite value became ±∞
  | underflow    -- a non-zero value became zero
  | saturated    -- a value was held at the largest finite value or integer bound
  | nanZero      -- a NaN was written as zero (E2M1 or an integer)
deriving DecidableEq, Repr

structure Narrowed where
  bits : Nat
  note : NarrowNote
deriving DecidableEq, Repr

/-- Encoding of a dyadic already rounded to the format and within its range. -/
def FpFormat.encodeExact (f : FpFormat) (d : Dyad) : Nat :=
  if d.mag = 0 then f.signBit d.neg
  else
    let m := d.toUnits f.quantum |>.natAbs      -- in units of the smallest subnormal
    if m < 2 ^ f.fracBits then f.signBit d.neg + m
    else
      let k := m.log2 - f.fracBits
      f.signBit d.neg + (k + 1) * 2 ^ f.fracBits + ((m >>> k) - 2 ^ f.fracBits)

/-- Magnitude of the largest finite value. -/
def FpFormat.maxDyad (f : FpFormat) : Dyad :=
  f.finite false (f.maxBits / 2 ^ f.fracBits) (f.maxBits % 2 ^ f.fracBits)

/-- Narrowing to a floating-point format (R59, R60). `novf`: saturate instead of overflowing to ±∞.
`keepSub`: subnormal results are kept; otherwise they become a signed zero. -/
def FpFormat.narrow (f : FpFormat) (novf keepSub compat : Bool) (x : Fp) : Narrowed :=
  match x with
  | .nan => ⟨f.canonNan compat, if f.special == .none then .nanZero else .plain⟩
  | .inf neg =>
    if f.hasInf then ⟨f.infBits neg, .plain⟩ else ⟨f.signBit neg + f.maxBits, .saturated⟩
  | .fin d =>
    let r := d.round (f.fracBits + 1) f.quantum
    if f.maxDyad.lt r.abs then
      if f.hasInf && !novf then ⟨f.infBits d.neg, .overflow⟩
      else ⟨f.signBit d.neg + f.maxBits, .saturated⟩
    else if r.mag = 0 then ⟨f.signBit d.neg, if d.mag = 0 then .plain else .underflow⟩
    else if r.lead < f.minExp && !keepSub then ⟨f.signBit d.neg, .underflow⟩
    else ⟨f.encodeExact r, .plain⟩

/-- Conversion to a two's-complement integer of w bits (R61). -/
def narrowInt (w : Nat) (x : Fp) : Narrowed :=
  let hi : Int := 2 ^ (w - 1) - 1
  let lo : Int := -(2 ^ (w - 1))
  let enc (v : Int) : Nat := (v % 2 ^ w).toNat
  match x with
  | .nan => ⟨0, .nanZero⟩
  | .inf neg => ⟨enc (if neg then lo else hi), .saturated⟩
  | .fin d =>
    let r := if d.exp ≥ 0 then d.toUnits 0
      else
        let m : Int := shiftRne d.mag (-d.exp).toNat
        if d.neg then -m else m
    if r > hi then ⟨enc hi, .saturated⟩
    else if r < lo then ⟨enc lo, .saturated⟩
    else ⟨enc r, .plain⟩

/-- The two's-complement value of a w-bit encoding (R51). -/
def intOf (w bits : Nat) : Int :=
  let b := bits % 2 ^ w
  if b < 2 ^ (w - 1) then (b : Int) else (b : Int) - 2 ^ w

/-- The value of any element, with I8 and I32 read as exact integers. -/
def decodeElem (code bits : Nat) : Fp :=
  match fpFormatOf code with
  | some f => f.decode bits
  | none =>
    let v := intOf (formatBits code) bits
    .fin (Dyad.ofUnits v 0 false)

/-- Narrowing an F32-precision value to any stored format code (R59 to R61). -/
def narrowElem (code : Nat) (novf subn compat : Bool) (x : Fp) : Narrowed :=
  match fpFormatOf code with
  | some f =>
    -- R60: E4M3, E5M2 and E2M1 always keep subnormals; the others as SUBN selects
    f.narrow novf (subn || f.width ≤ 8) compat x
  | none => narrowInt (formatBits code) x

/-! ### F32 values and operations -/

def f32 (bits : BitVec 32) : Fp := f32Format.decode bits.toNat

/-- Rounding an exact value to F32; overflow gives ±∞ and, unless `keepSub`, subnormal results become zero. -/
def roundF32 (keepSub : Bool) (x : Fp) : Fp :=
  f32Format.decode (f32Format.narrow false keepSub false x).bits

/-- The same, with what happened. -/
def roundF32Note (keepSub : Bool) (x : Fp) : Narrowed := f32Format.narrow false keepSub false x

/-- An F32 encoding of a value that is already F32. -/
def toF32Bits (compat : Bool) (x : Fp) : BitVec 32 :=
  BitVec.ofNat 32 (f32Format.narrow false true compat x).bits

def Fp.isNan (x : Fp) : Bool := match x with | .nan => true | _ => false
def Fp.isFinite (x : Fp) : Bool := match x with | .fin _ => true | _ => false
def Fp.isZero (x : Fp) : Bool := match x with | .fin d => d.isZero | _ => false
def Fp.isNeg (x : Fp) : Bool :=
  match x with | .nan => false | .inf n => n | .fin d => d.neg

def Fp.negate (x : Fp) : Fp :=
  match x with | .nan => .nan | .inf n => .inf (!n) | .fin d => .fin d.negate

def Fp.abs (x : Fp) : Fp :=
  match x with | .nan => .nan | .inf _ => .inf false | .fin d => .fin d.abs

/-- Exact addition with IEEE special values (R76, R164): ∞ − ∞ is NaN. -/
def Fp.addX (a b : Fp) : Fp :=
  match a, b with
  | .nan, _ => .nan
  | _, .nan => .nan
  | .inf m, .inf n => if m == n then .inf m else .nan
  | .inf m, .fin _ => .inf m
  | .fin _, .inf n => .inf n
  | .fin x, .fin y => .fin (x.add y)

/-- Exact multiplication with IEEE special values: 0 × ∞ is NaN. -/
def Fp.mulX (a b : Fp) : Fp :=
  match a, b with
  | .nan, _ => .nan
  | _, .nan => .nan
  | .inf m, .inf n => .inf (m != n)
  | .inf m, .fin y => if y.isZero then .nan else .inf (m != y.neg)
  | .fin x, .inf n => if x.isZero then .nan else .inf (x.neg != n)
  | .fin x, .fin y => .fin (x.mul y)

def Fp.scale (x : Fp) (k : Int) : Fp := match x with | .fin d => .fin (d.scale k) | y => y

/-- a < b; false if either is NaN. Zeros of either sign are equal. -/
def Fp.lt (a b : Fp) : Bool :=
  match a, b with
  | .nan, _ => false
  | _, .nan => false
  | .inf m, .inf n => m && !n
  | .inf m, .fin _ => m
  | .fin _, .inf n => !n
  | .fin x, .fin y => x.lt y

/-- Smaller of two, NaN if either is NaN, −0 below +0 (R164). -/
def Fp.minimum (a b : Fp) : Fp :=
  if a.isNan || b.isNan then .nan
  else if a.lt b then a else if b.lt a then b else if a.isNeg then a else b

def Fp.maximum (a b : Fp) : Fp :=
  if a.isNan || b.isNan then .nan
  else if b.lt a then a else if a.lt b then b else if a.isNeg then b else a

/-- Integer square root, bit by bit from 2^k downward. -/
def isqrtFrom (n : Nat) : Nat → Nat → Nat
  | 0, r => r
  | k + 1, r =>
    let c := r + 2 ^ k
    isqrtFrom n k (if c * c ≤ n then c else r)

def isqrt (n : Nat) : Nat := isqrtFrom n (n.log2 / 2 + 1) 0

/-- Extra bits kept below the result of a division or root; the last is a sticky bit, so that one later rounding to
any format of at most 53 bits is the correctly rounded one. -/
def guardBits : Nat := 140

/-- a ÷ b of non-zero finite values, with a sticky last bit. -/
def Dyad.div (a b : Dyad) : Dyad :=
  let k := guardBits + b.mag.log2
  let n := a.mag <<< k
  let q := n / b.mag
  let sticky := if n % b.mag = 0 then 0 else 1
  ⟨a.neg != b.neg, 2 * q + sticky, a.exp - b.exp - (k : Int) - 1⟩

/-- The root of a positive value, with a sticky last bit. -/
def Dyad.sqrt (a : Dyad) : Dyad :=
  let k := 2 * guardBits + (if (a.exp % 2) = 0 then 0 else 1)
  let n := a.mag <<< k
  let e := a.exp - (k : Int)          -- even
  let r := isqrt n
  let sticky := if r * r = n then 0 else 1
  ⟨false, 2 * r + sticky, e / 2 - 1⟩

def Fp.divX (a b : Fp) : Fp :=
  match a, b with
  | .nan, _ => .nan
  | _, .nan => .nan
  | .inf _, .inf _ => .nan
  | .inf m, .fin y => .inf (m != y.neg)
  | .fin x, .inf n => .fin (Dyad.zero (x.neg != n))
  | .fin x, .fin y =>
    if y.isZero then (if x.isZero then .nan else .inf (x.neg != y.neg))
    else if x.isZero then .fin (Dyad.zero (x.neg != y.neg))
    else .fin (x.div y)

/-- SQRT of Table 5.5: −0 gives −0, a negative gives NaN. -/
def Fp.sqrtX (a : Fp) : Fp :=
  match a with
  | .nan => .nan
  | .inf n => if n then .nan else .inf false
  | .fin x => if x.isZero then .fin x else if x.neg then .nan else .fin x.sqrt

/-- RSQRT of Table 5.5: ±0 gives +∞, a negative gives NaN, +∞ gives +0. The root of 1 ÷ x is taken of an exact
scaled quotient with its own sticky bit. -/
def Fp.rsqrtX (a : Fp) : Fp :=
  match a with
  | .nan => .nan
  | .inf n => if n then .nan else .fin (Dyad.zero false)
  | .fin x =>
    if x.isZero then .inf false
    else if x.neg then .nan
    else
      -- floor (sqrt (2^(2K) / mag)) for an even total exponent
      let odd := x.exp % 2 ≠ 0
      let m := if odd then 2 * x.mag else x.mag
      let e := if odd then x.exp - 1 else x.exp
      let k := guardBits + m.log2
      let n := 2 ^ (2 * k)
      let r := isqrt (n / m)
      let sticky := if r * r * m = n then 0 else 1
      .fin ⟨false, 2 * r + sticky, -(e / 2) - (k : Int) - 1⟩

/-- An F32 operation of a unit that flushes (`keepSub = false`) or keeps subnormal inputs and results (R163). -/
def flushIn (keepSub : Bool) (x : Fp) : Fp :=
  match x with
  | .fin d => if !keepSub && d.mag != 0 && d.lead < f32Format.minExp then .fin (Dyad.zero d.neg) else x
  | y => y

def f32Add (keepSub : Bool) (a b : Fp) : Fp := roundF32 keepSub ((flushIn keepSub a).addX (flushIn keepSub b))
def f32Sub (keepSub : Bool) (a b : Fp) : Fp := f32Add keepSub a b.negate
def f32Mul (keepSub : Bool) (a b : Fp) : Fp := roundF32 keepSub ((flushIn keepSub a).mulX (flushIn keepSub b))
def f32Div (keepSub : Bool) (a b : Fp) : Fp := roundF32 keepSub ((flushIn keepSub a).divX (flushIn keepSub b))
def f32Sqrt (keepSub : Bool) (a : Fp) : Fp := roundF32 keepSub (flushIn keepSub a).sqrtX
def f32Rsqrt (keepSub : Bool) (a : Fp) : Fp := roundF32 keepSub (flushIn keepSub a).rsqrtX
/-- a × b + c rounded once (R164). -/
def f32Fma (keepSub : Bool) (a b c : Fp) : Fp :=
  roundF32 keepSub (((flushIn keepSub a).mulX (flushIn keepSub b)).addX (flushIn keepSub c))

/-! ### F64 operations of R265 -/

def roundF64 (x : Fp) : Fp := f64Format.decode (f64Format.narrow false true false x).bits
def f64Mul (a b : Fp) : Fp := roundF64 (a.mulX b)
def f64Sub (a b : Fp) : Fp := roundF64 (a.addX b.negate)
def f64Div (a b : Fp) : Fp := roundF64 (a.divX b)

def fpOne : Fp := .fin Dyad.one
def fpZero : Fp := .fin (Dyad.zero false)

/-- power(b, t) of R265, from bit k − 1 of t down to bit 0. -/
def power64From (b : Fp) (t : Nat) : Nat → Fp → Fp
  | 0, p => p
  | k + 1, p =>
    let p := f64Mul p p
    power64From b t k (if t.testBit k then f64Mul p b else p)

def power64 (b : Fp) (t : Nat) : Fp := power64From b t 32 fpOne

/-! ### Conversion to F19 (R62) -/

/-- F32 bits to F19 bits and whether a finite value became ±∞ by rounding up. A subnormal input is zero first (R74). -/
def toF19 (roundNearest : Bool) (bits : Nat) : Nat × Bool :=
  match f32Format.decode bits with
  | .nan => (f19Format.canonNan false, false)
  | .inf n => (f19Format.infBits n, false)
  | .fin d =>
    if f32Format.isSubnormal bits then (f19Format.signBit d.neg, false)
    else if roundNearest then
      let r := f19Format.narrow false false false (.fin d)
      (r.bits, r.note == .overflow)
    else (bits >>> 13, false)

/-! ### Block scales (R64, R66, R67) -/

/-- ⌈log₂ (m ÷ M)⌉ for positive dyadics, exactly. -/
def ceilLog2Ratio (m M : Dyad) : Int :=
  let k := m.lead - M.lead      -- m/M lies in (2^(k-1), 2^(k+1))
  if (M.scale (k - 1)).lt m then (if (M.scale k).lt m then k + 1 else k) else k - 1

structure BlockScale where
  s       : Nat      -- the scale byte
  clamped : Bool
deriving DecidableEq, Repr

/-- The scale byte chosen for a block of values written to format f (R66, R67). -/
def chooseScale (f : FpFormat) (xs : List Fp) : BlockScale :=
  if xs.any Fp.isNan then ⟨255, false⟩
  else
    let m := xs.foldl (fun (a : Dyad) x => match x with
      | .fin d => if a.lt d.abs then d.abs else a
      | _ => a) (Dyad.zero false)
    if m.isZero then ⟨127, false⟩
    else
      let s := 127 + ceilLog2Ratio m f.maxDyad
      if s < 0 then ⟨0, true⟩ else if s > 254 then ⟨254, true⟩ else ⟨s.toNat, false⟩

/-- One element widened under a block scale (R64, R68): a result above the F32 range is ±∞, one below the F32 normal
range is zero. -/
def applyScale (s : Nat) (x : Fp) : Narrowed :=
  if s = 255 then ⟨f32Format.canonNan false, .plain⟩
  else f32Format.narrow false false false (x.scale ((s : Int) - 127))

end Sys2Proof.Machine
end

