-- ==== Sys2Proof/Machine/Functions.lean ====
section
/-! DEFINITION. The correctly rounded functions of the jib (R167, Tables 5.3 and 5.5): each is evaluated in fixed-point
arithmetic to `workBits` bits and rounded once, with an exact path where the function has an exact value. -/
namespace Sys2Proof.Machine

/-- Fraction bits of the working arithmetic. UNVERIFIED (log 12): `marginBits` bits of relative accuracy separate every
F32 argument's result from the nearest rounding boundary. -/
def workBits : Nat := 900
def marginBits : Nat := 700

/-- Sum of z^(2i+1) ÷ (2i+1): atanh of a small z in units of 2^-workBits, `t` holding z^(2i+1) and `z2` z². -/
def atanhSum (z2 : Nat) : Nat → Nat → Nat → Nat → Nat
  | 0, _, _, acc => acc
  | k + 1, t, i, acc => atanhSum z2 k ((t * z2) >>> workBits) (i + 1) (acc + t / (2 * i + 1))

/-- ln 2 in units of 2^-workBits. -/
def ln2Fixed : Nat :=
  let z := (2 ^ workBits) / 3
  2 * atanhSum ((z * z) >>> workBits) 300 z 0 0

/-- Taylor sum of e^r for 0 ≤ r < 1, both in units of 2^-workBits. -/
def expSum (r : Nat) : Nat → Nat → Nat → Nat → Nat
  | 0, _, _, acc => acc
  | k + 1, t, i, acc => expSum r k (((t * r) >>> workBits) / i) (i + 1) (acc + t)

/-- e^x for a dyadic |x| < 2^12, as a dyadic of relative accuracy better than 2^-marginBits; e^0 is exactly 1. -/
def expDyad (x : Dyad) : Dyad :=
  if x.isZero then Dyad.one
  else
    let u := x.toUnits (-(workBits : Int))
    -- |x| below 2^-workBits loses everything here: keep the first-order term
    let k := u / (ln2Fixed : Int)
    let r := (u - k * (ln2Fixed : Int)).toNat
    ⟨false, expSum r 220 (2 ^ workBits) 1 0, k - (workBits : Int)⟩

/-- ln x for a positive dyadic, exact zero for 1. -/
def lnDyad (x : Dyad) : Dyad :=
  let l := x.lead
  let f := x.scale (-l)                       -- 1 ≤ f < 2
  let up := (⟨false, 181, -7⟩ : Dyad).lt f     -- above about √2
  let k := if up then l + 1 else l
  let f := if up then f.scale (-1) else f
  -- z = (f − 1) ÷ (f + 1), |z| < 0.18
  let n := f.sub Dyad.one
  let d := f.add Dyad.one
  let e := min n.exp d.exp
  let nz := (n.toUnits e).natAbs
  let dz := (d.toUnits e).natAbs
  let z := (nz <<< workBits) / dz
  let a := 2 * atanhSum ((z * z) >>> workBits) 220 z 0 0
  let v : Int := k * (ln2Fixed : Int) + (if n.neg then -(a : Int) else (a : Int))
  Dyad.ofUnits v (-(workBits : Int)) false

/-- The F32 value nearest the real that v approximates within 2^-marginBits of itself (never a tie). -/
def roundNear (keepSub : Bool) (v : Dyad) : Fp :=
  let m := v.mag <<< marginBits
  let lo : Dyad := ⟨v.neg, m - v.mag, v.exp - (marginBits : Int)⟩
  roundF32 keepSub (.fin lo)

/-- A value just below (in magnitude) or just above d: a dyadic with a sticky last bit far below any rounding point. -/
def nudgeUp (d : Dyad) : Dyad := ⟨d.neg, (d.mag <<< marginBits) + 1, d.exp - (marginBits : Int)⟩
def nudgeDown (d : Dyad) : Dyad := ⟨d.neg, (d.mag <<< marginBits) - 1, d.exp - (marginBits : Int)⟩

/-- True of a magnitude of at least 2^k. -/
def Dyad.atLeast (d : Dyad) (k : Int) : Bool := d.mag != 0 && k ≤ d.lead

def Dyad.halfD : Dyad := ⟨false, 1, -1⟩

/-- Quotient of positive dyadics to the working accuracy. -/
def Dyad.quot (a b : Dyad) : Dyad :=
  let k := workBits + b.mag.log2
  ⟨a.neg != b.neg, (a.mag <<< k) / b.mag, a.exp - b.exp - (k : Int)⟩

/-- Sum cut to the working accuracy, so that a tiny term does not make a huge number. -/
def Dyad.addW (a b : Dyad) : Dyad :=
  if a.isZero then b else if b.isZero then a
  else
    let top := max a.lead b.lead
    let e := max (min a.exp b.exp) (top - (workBits : Int))
    Dyad.ofUnits (a.toUnits e + b.toUnits e) e false

/-! A logistic value σ(v) = 1 ÷ (1 + e^−v) and its complement 1 − σ(v) = σ(−v). -/

/-- σ(v) for |v| < 2^11, to the working accuracy; σ(0) is exactly one half. -/
def sigmaD (v : Dyad) : Dyad :=
  if v.isZero then Dyad.halfD
  else Dyad.one.quot (Dyad.one.addW (expDyad v.negate))

def ofRatio (n : Int) (d : Nat) : Dyad :=
  Dyad.ofUnits (n * 2 ^ workBits / (d : Int)) (-(workBits : Int)) false

/-- 2 × 0.7978845608, the decimal constant of Table 5.3 doubled, as numerator over 10^10. -/
def geluTwoC : Nat := 2 * 7978845608
/-- 0.044715 as numerator over 10^6. -/
def geluA : Nat := 44715

/-- v(x) = 2c(x + a x³), exactly scaled by 10^16, then divided once. tanh form: 0.5(1 + tanh(v ÷ 2)) = σ(v). -/
def geluArg (x : Dyad) : Dyad :=
  let x3 := (x.mul x).mul x
  let s := (x.mul ⟨false, 1000000, 0⟩).add (x3.mul ⟨false, geluA, 0⟩)
  let t := s.mul ⟨false, geluTwoC, 0⟩
  if t.isZero then t else t.quot ⟨false, 10 ^ 16, 0⟩

/-- v′(x) = 2c(1 + 3a x²). -/
def geluArgSlope (x : Dyad) : Dyad :=
  let s := (⟨false, 1000000, 0⟩ : Dyad).add ((x.mul x).mul ⟨false, 3 * geluA, 0⟩)
  (s.mul ⟨false, geluTwoC, 0⟩).quot ⟨false, 10 ^ 16, 0⟩

/-- x × σ(v): GELU and SILU of a finite x, rounded once. A large |v| puts σ within 2^-1000 of 1 or 0. -/
def xSigma (keepSub : Bool) (x v : Dyad) : Fp :=
  if x.isZero then .fin x
  else if v.isZero then roundF32 keepSub (.fin (x.mul Dyad.halfD))
  else if v.atLeast 10 then
    if v.neg then roundF32 keepSub (.fin ⟨x.neg, 1, -2000⟩) else roundF32 keepSub (.fin (nudgeDown x))
  else roundNear keepSub (x.mul (sigmaD v))

/-- σ(v) of a finite v, rounded once. -/
def sigmaRounded (keepSub : Bool) (v : Dyad) : Fp :=
  if v.isZero then .fin Dyad.halfD
  else if v.atLeast 10 then
    if v.neg then roundF32 keepSub (.fin ⟨false, 1, -2000⟩) else roundF32 keepSub (.fin (nudgeDown Dyad.one))
  else if v.atLeast (-300) then roundNear keepSub (sigmaD v)
  else roundF32 keepSub (.fin (if v.neg then nudgeDown Dyad.halfD else nudgeUp Dyad.halfD))

/-- EXP of Table 5.5. -/
def fnExp (keepSub : Bool) (a : Fp) : Fp :=
  match a with
  | .nan => .nan
  | .inf n => if n then fpZero else .inf false
  | .fin d =>
    if d.isZero then fpOne
    else if d.atLeast 9 then (if d.neg then roundF32 keepSub (.fin ⟨false, 1, -700⟩) else roundF32 keepSub (.fin ⟨false, 1, 700⟩))
    else if d.atLeast (-100) then roundNear keepSub (expDyad d)
    else roundF32 keepSub (.fin (if d.neg then nudgeDown Dyad.one else nudgeUp Dyad.one))

/-- LOG of Table 5.5. -/
def fnLog (keepSub : Bool) (a : Fp) : Fp :=
  match a with
  | .nan => .nan
  | .inf n => if n then .nan else .inf false
  | .fin d =>
    if d.isZero then .inf true
    else if d.neg then .nan
    else
      let v := lnDyad d
      if v.isZero then fpZero else roundNear keepSub v

/-- TANH: 1 − 2 ÷ (e^2y + 1) written as (e^2y − 1) ÷ (e^2y + 1); near zero it lies just below y. -/
def fnTanh (keepSub : Bool) (a : Fp) : Fp :=
  match a with
  | .nan => .nan
  | .inf n => .fin ⟨n, 1, 0⟩
  | .fin d =>
    if d.isZero then .fin d
    else if d.atLeast 8 then roundF32 keepSub (.fin (nudgeDown ⟨d.neg, 1, 0⟩))
    else if d.atLeast (-100) then
      let e := expDyad (d.abs.scale 1)
      let q := (e.addW ⟨true, 1, 0⟩).quot (e.addW Dyad.one)
      roundNear keepSub { q with neg := d.neg }
    else roundF32 keepSub (.fin (nudgeDown d))

def fnSigmoid (keepSub : Bool) (a : Fp) : Fp :=
  match a with
  | .nan => .nan
  | .inf n => if n then fpZero else fpOne
  | .fin d => sigmaRounded keepSub d

def fnSilu (keepSub : Bool) (a : Fp) : Fp :=
  match a with
  | .nan => .nan
  | .inf n => if n then fpZero else .inf false
  | .fin d => xSigma keepSub d d

def fnGelu (keepSub : Bool) (a : Fp) : Fp :=
  match a with
  | .nan => .nan
  | .inf n => if n then fpZero else .inf false
  | .fin d => if d.isZero then .fin d else
    if d.atLeast 6 then
      (if d.neg then roundF32 keepSub (.fin ⟨true, 1, -2000⟩) else roundF32 keepSub (.fin (nudgeDown d)))
    else xSigma keepSub d (geluArg d)

def fnRelu (a : Fp) : Fp :=
  match a with
  | .nan => .nan
  | x => if x.isNeg || x.isZero then fpZero else x

/-- b × f′(a) of a finite non-zero b and a positive or negative derivative value, rounded once. -/
def timesDeriv (keepSub : Bool) (b : Fp) (deriv : Dyad) (exact : Bool) : Fp :=
  match b with
  | .nan => .nan
  | .inf n => if deriv.isZero then .nan else .inf (n != deriv.neg)
  | .fin d =>
    if d.isZero || deriv.isZero then .fin (Dyad.zero (d.neg != deriv.neg))
    else if exact then roundF32 keepSub (.fin (d.mul deriv))
    else roundNear keepSub (d.mul deriv)

/-- f′(a) of x·σ(v(x)): σ(v)·(1 + x·(1 − σ(v))·v′). -/
def xSigmaSlope (x v slope : Dyad) : Dyad :=
  (sigmaD v).mul (Dyad.one.addW ((x.mul (sigmaD v.negate)).mul slope))

/-- The limit of a derivative of 0 or 1 at ±∞, times b, rounded once (Table 5.5). -/
def gradAtInf (keepSub : Bool) (b : Fp) (one : Bool) : Fp :=
  roundF32 keepSub (b.mulX (if one then fpOne else fpZero))

/-- b × SILU′(a). -/
def fnSiluGrad (keepSub : Bool) (a b : Fp) : Fp :=
  if a.isNan || b.isNan then .nan
  else match a with
  | .nan => .nan
  | .inf n => gradAtInf keepSub b (!n)
  | .fin d =>
    if d.isZero then timesDeriv keepSub b Dyad.halfD true
    else if d.atLeast 10 then
      -- beyond 1024 the derivative is 1 + tiny or −tiny
      timesDeriv keepSub b (if d.neg then ⟨true, 1, -2000⟩ else nudgeUp Dyad.one) true
    else if d.atLeast (-250) then timesDeriv keepSub b (xSigmaSlope d d Dyad.one) false
    else timesDeriv keepSub b (if d.neg then nudgeDown Dyad.halfD else nudgeUp Dyad.halfD) true

/-- b × GELU′(a). -/
def fnGeluGrad (keepSub : Bool) (a b : Fp) : Fp :=
  if a.isNan || b.isNan then .nan
  else match a with
  | .nan => .nan
  | .inf n => gradAtInf keepSub b (!n)
  | .fin d =>
    if d.isZero then timesDeriv keepSub b Dyad.halfD true
    else if d.atLeast 5 then
      timesDeriv keepSub b (if d.neg then ⟨true, 1, -2000⟩ else nudgeUp Dyad.one) true
    else if d.atLeast (-250) then timesDeriv keepSub b (xSigmaSlope d (geluArg d) (geluArgSlope d)) false
    else timesDeriv keepSub b (if d.neg then nudgeDown Dyad.halfD else nudgeUp Dyad.halfD) true

/-- b × σ(a)(1 − σ(a)). -/
def fnSigmoidGrad (keepSub : Bool) (a b : Fp) : Fp :=
  if a.isNan || b.isNan then .nan
  else match a with
  | .nan => .nan
  | .inf _ => gradAtInf keepSub b false
  | .fin d =>
    if d.isZero then timesDeriv keepSub b ⟨false, 1, -2⟩ true
    else if d.atLeast 10 then timesDeriv keepSub b ⟨false, 1, -2000⟩ true
    else if d.atLeast (-150) then timesDeriv keepSub b ((sigmaD d).mul (sigmaD d.negate)) false
    else timesDeriv keepSub b (nudgeDown ⟨false, 1, -2⟩) true

/-- RELU_GRAD of Table 5.4. -/
def fnReluGrad (a b : Fp) : Fp :=
  if a.isNan || b.isNan then .nan
  else if fpZero.lt a then b else fpZero

end Sys2Proof.Machine
end

