-- ==== Sys2Proof/Machine/Training.lean ====
section
/-! DEFINITION. Training state on the base dies: lantern counters, the writing of block-scaled values, the format
converter, add-on-write and the gradient accumulation buffers (R224 to R258). -/
namespace Sys2Proof.Machine

/-! ### Values as they are written and counted -/

/-- One value written under a tag: its encoding, what narrowing did, the value it represents, whether the encoding is
subnormal in its format (Table 7.6), and the overflows and underflows on the way to it (R68, R163). -/
structure Written where
  bits   : Nat
  note   : NarrowNote
  value  : Fp
  sub    : Bool
  overs  : Nat := 0
  unders : Nat := 0
deriving DecidableEq, Repr

/-- Whether an encoding is subnormal in a format. -/
def subnormalIn (code bits : Nat) : Bool := match fpFormatOf code with | some f => f.isSubnormal bits | none => false

/-- Flushes an element that is subnormal in its own format F32, B16 or H16, unless subnormals are kept (R163, log 54). -/
def flushElem (keep : Bool) (fmt bits : Nat) (x : Fp) : Fp :=
  if !keep && (fmt = 0 || fmt = 2 || fmt = 3) && subnormalIn fmt bits then
    (match x with | .fin d => .fin (Dyad.zero d.neg) | y => y)
  else x

/-- An unscaled value as it is written in a format (R59 to R61). -/
def writeElem (code : Nat) (novf subn compat : Bool) (x : Fp) : Written :=
  let n := narrowElem code novf subn compat x
  { bits := n.bits, note := n.note, value := decodeElem code n.bits, sub := subnormalIn code n.bits }

/-- A block as it is written with a block scale: the scale and the elements (R66, R67). -/
def writeBlock (code : Nat) (novf subn compat : Bool) (xs : List Fp) : BlockScale × List Written :=
  match fpFormatOf code with
  | none => (⟨127, false⟩, xs.map (writeElem code novf subn compat))
  | some f =>
    let b := chooseScale f xs
    if b.s = 255 then (b, xs.map fun _ => { bits := 0, note := .plain, value := .nan, sub := false })
    else (b, xs.map fun x =>
      let w := writeElem code novf subn compat (x.scale (127 - (b.s : Int)))
      { w with value := w.value.scale ((b.s : Int) - 127) })

/-- The word of Table 7.6, 12 to 79, in which a value falls (R252, R253). -/
def classWord (w : Written) : Nat :=
  match w.value with
  | .nan => 79
  | .inf _ => 78
  | .fin d =>
    if d.isZero then 76
    else if w.sub then 77
    else
      let b := (d.lead + 128) / 4
      if d.lead < -128 then 12 else if b > 63 then 75 else 12 + b.toNat

/-- The words of Table 7.6 that a written value adds 1 to. -/
def countWords (w : Written) : List Nat :=
  let nan := w.value.isNan || w.note == .nanZero
  [1, classWord w] ++ (if w.note == .overflow then [2] else []) ++ (if w.note == .underflow then [3] else []) ++
    (if w.note == .saturated then [4] else []) ++ (if nan then [5] else []) ++
    List.replicate w.overs 2 ++ List.replicate w.unders 3

/-- The tag under which partition `p` counts, and whether the tag it wrote lies outside its range (R250). -/
def State.tagFor (s : State) (p tag : Nat) : Nat × Bool :=
  let lo := s.val (0x6000 + p) 2
  if lo ≤ tag ∧ tag < lo + s.val (0x6000 + p) 3 then (tag, false) else (lo, true)

/-- The key of a local lantern count; format 15 holds the words 3 to 6 of the record itself. -/
def lanternKey (die p tag fmt word : Nat) : Nat := (((die * 16 + p) * 4096 + tag) * 16 + fmt) * 80 + word

/-- The address of a tag's record, none where the partition keeps no table (R252). -/
def State.lanternRecord (s : State) (p tag : Nat) : Option Nat :=
  let base := s.val (0x6000 + p) 1
  if base = 0 then none else some (base + 4096 * (tag - s.val (0x6000 + p) 2))

/-- The slot of a format in a tag's record; where the format has none, base die `die` assigns one in an atomic step at the
home of the record (R253). -/
def State.formatSlot (s : State) (die rec fmt : Nat) : Nat × State :=
  let word := fun k => s.load (rec + 512 + 640 * k) 8
  match (List.range 5).find? fun k => bitOf (word k) 8 && (word k % 256 == fmt || (k == 4 && word k % 256 == 255)) with
  | some k => (k, s)
  | none =>
    let k := ((List.range 5).find? fun k => !bitOf (word k) 8).getD 4
    let a := rec + 512 + 640 * k
    let s := s.homeAtomic (lanternWho die) a
    (k, if s.homeFenced a then s else s.store a 8 (256 + if k = 4 then 255 else fmt))

/-- Adds to a local lantern count. -/
def State.lanternAdd (s : State) (key n : Nat) : State :=
  { s with lantern := FMap.set s.lantern key 0 (FMap.get s.lantern key 0 + n) }

/-- Counts one value written in format `fmt` by a unit on die pair `die` (R250 to R254). -/
def State.countValue (s : State) (die : Nat) (part : Option Nat) (tag fmt : Nat) (w : Written) : State :=
  match part with
  | none => s
  | some p =>
    let (tag, outside) := s.tagFor p tag
    let s := if outside then s.bump (0x6100 + p) 7 1 else s
    let s := match FMap.get s.lantern (lanternKey die p tag fmt 1) 0, s.lanternRecord p tag with
      | 0, some rec => (s.formatSlot die rec fmt).2
      | _, _ => s
    (countWords w).foldl (fun s k =>
      let s := s.lanternAdd (lanternKey die p tag fmt k) 1
      if k ≤ 5 then s.bump (0x6100 + p) k 1 else s) s

/-- Counts a list of values. -/
def State.countAll (s : State) (die : Nat) (part : Option Nat) (tag fmt : Nat) (ws : List Written) : State :=
  ws.foldl (fun s w => s.countValue die part tag fmt w) s

/-- Adds a converter figure to the tag: word 3 bytes in, 4 bytes out, 5 zero granules (R233). -/
def State.tagFigure (s : State) (die : Nat) (part : Option Nat) (tag word n : Nat) : State :=
  match part with
  | none => s
  | some p => if n = 0 then s else s.lanternAdd (lanternKey die p (s.tagFor p tag).1 15 word) n

/-- Raises the tag's RELERR to at least `e` (R233). -/
def State.tagError (s : State) (die : Nat) (part : Option Nat) (tag e : Nat) : State :=
  match part with
  | none => s
  | some p =>
    let k := lanternKey die p (s.tagFor p tag).1 15 6
    { s with lantern := FMap.set s.lantern k 0 (max (FMap.get s.lantern k 0) e) }

/-- The integer add-on-write of base die `die` to the word at `a`, or its integer maximum, in the memory controller's path
of the word's home (R237); poisoned bytes stay poisoned. -/
def State.countInto (s : State) (die p a n : Nat) (most : Bool) : State :=
  if !s.admits (some p) a 8 [rightAow] then s
  else
    let s := s.accessHome (lanternWho die) .add a 8
    let v := if most then s.load a 8 / 2 ^ 32 * 2 ^ 32 + max (s.load a 4) n else (s.load a 8 + n) % 2 ^ 64
    if s.homeFenced a then s else s.store a 8 v

/-- Adds one local count into memory by the integer add-on-write, RELERR by the integer maximum (R237, R254). -/
def State.flushCount (s : State) (key n : Nat) : State :=
  let die := key / 83886080
  let word := key % 80
  let fmt := key / 80 % 16
  let tag := key / 1280 % 4096
  let p := key / 5242880 % 16
  match s.lanternRecord p tag with
  | none => s
  | some rec =>
    if fmt = 15 then s.countInto die p (rec + 8 * word) n (word = 6)
    else
      let (k, s) := s.formatSlot die rec fmt
      s.countInto die p (rec + 512 + 640 * k + 8 * word) n false

/-- LANTERN_FLUSH (R254): die `d` adds its local counts into the records. -/
def execLanternFlush (d : Nat) (s : State) : Result :=
  if 16 ≤ d then .next s else
  let mine := s.lantern.filter fun e => e.1 / 83886080 = d
  let s := mine.foldl (fun s e => s.flushCount e.1 e.2) s
  .next { s with lantern := s.lantern.filter fun e => e.1 / 83886080 != d }

/-- The error bound e of a block, rounded up to F32 (R232): half a unit in the last place of the stored format in the
binade of the largest scaled magnitude, divided by that magnitude. -/
def blockError (code : Nat) (b : BlockScale) (xs : List Fp) : Option Nat :=
  match fpFormatOf code with
  | none => none
  | some f =>
    let m := xs.foldl (fun (a : Dyad) x => match x with | .fin d => if a.lt d.abs then d.abs else a | _ => a) (Dyad.zero false)
    if b.s = 255 ∨ b.clamped ∨ m.isZero then none
    else
      let x := m.scale (127 - (b.s : Int))
      let u : Int := max (x.lead - f.fracBits) f.quantum - 1
      let k := 24 + x.mag.log2
      let t := (2 ^ k + x.mag - 1) / x.mag
      some (toF32Bits false (.fin ⟨false, t, u - x.exp - k⟩)).toNat

/-! ### Gradient accumulation buffers (R238 to R243) -/

/-- Allotment of partition `p` on die `d`: base and length in bytes (R239). -/
def State.allotment (s : State) (p d : Nat) : Nat × Nat :=
  let v := s.val (0x3610 + p) (d + 1)
  (field v 15 8 * 2 ^ 20, field v 7 0 * 2 ^ 20)

def paneKey (p d k : Nat) : Nat := (p * 16 + d) * 2 + k
def State.pane (s : State) (p d k : Nat) : Pane := FMap.get s.panes (paneKey p d k) {}
def State.setPane (s : State) (p d k : Nat) (x : Pane) : State := { s with panes := FMap.set s.panes (paneKey p d k) {} x }

/-- Base and length in bytes of pane `k` (R239). -/
def State.paneSpan (s : State) (p d k : Nat) : Nat × Nat :=
  let (b, n) := s.allotment p d
  (b + k * (n / 2), n / 2)

/-- A gradient-buffer address: die and byte offset, none where A[61:31] is not zero (Table 7.1). -/
def gradAddr (a : Nat) : Option (Nat × Nat) := if field a 61 31 = 0 then some (field a 30 27, field a 26 0) else none

/-- Key of a buffer byte. -/
def gradKey (d off : Nat) : Nat := 2 ^ 27 * d + off

/-- The pane that holds `[off, off + n)` of die `d` for partition `p`. -/
def State.paneAt (s : State) (p d off n : Nat) : Option Nat :=
  (List.range 2).find? fun k => let (b, len) := s.paneSpan p d k; b ≤ off && off + n ≤ b + len

/-- What a buffer access meets: blocked, or a die, an offset and a pane. -/
def State.gradTarget (s : State) (part : Option Nat) (a n : Nat) : Option (Nat × Nat × Nat × Nat) :=
  match part, gradAddr a with
  | some p, some (d, off) => if s.dieFenced d || s.domainDown d then none else (s.paneAt p d off n).map fun k => (p, d, off, k)
  | _, _ => none

/-- A read of a pane returns its current values and changes nothing (R240). -/
def State.gradRead (s : State) (r : Requester) (part : Option Nat) (a n : Nat) : Answer × State :=
  match s.gradTarget part a n with
  | none => (⟨0, true⟩, s.blocked r part a n)
  | some (_, d, off, _) => (⟨FMap.readLE s.grad (gradKey d off) n, false⟩, s)

/-- A write or addition that reaches a Draining pane (Table 7.3). -/
def State.lateWrite (s : State) (r : Requester) (p d k : Nat) (utag : Nat) : State :=
  (s.bump (0x3600 + d) 3 1).postLimited (paneKey p d k) msTicks
    { code := 0x3640, plane := 2, part := p, kind := 2, num := d, utag := utag, detail := [(1, d), (2, r.entry)] }

/-- Marks a pane Open once something was written into it. -/
def State.openPane (s : State) (p d k : Nat) : State :=
  let x := s.pane p d k
  if x.st = .empty then s.setPane p d k { x with st := .opened } else s

/-- Whether a pane is draining. -/
def Pane.draining (x : Pane) : Bool := match x.st with | .draining _ _ => true | _ => false

/-- A COPY_OUT of `n` bytes into a pane; answers whether it ended in an error. -/
def State.gradWrite (s : State) (r : Requester) (part : Option Nat) (utag a n v : Nat) : Bool × State :=
  match s.gradTarget part a n with
  | none => (true, s.blocked r part a n)
  | some (p, d, off, k) =>
    if (s.pane p d k).draining then (true, s.lateWrite r p d k utag)
    else (false, { s with grad := FMap.writeLE s.grad (gradKey d off) n v }.openPane p d k)

/-- One addition of add-on-write (R234), whose source was flushed as it was read: the sum's bits, whether it overflowed,
whether it made a NaN. -/
def addOnWrite (a : Fp) (target : Nat) : Nat × Bool × Bool :=
  let t := f32Format.decode target
  let n := f32Format.narrow false false false (a.addX t)
  let made := !a.isNan && !t.isNan && (a.addX t).isNan
  (n.bits, n.note == .overflow, made)

/-- Adds to the add-on-write counters of die `d`. -/
def State.countAdd (s : State) (d : Nat) (big nan : Bool) : State :=
  let s := s.bump (0x3600 + d) 1 1
  let s := if big then s.bump (0x3600 + d) 4 1 else s
  if nan then s.bump (0x3600 + d) 5 1 else s

/-- Adds values into consecutive F32 elements of the buffer from `a`, one request of at most a line (R188, R234). -/
def State.gradAdd (s : State) (r : Requester) (part : Option Nat) (utag a : Nat) (xs : List Fp) : Bool × State :=
  match s.gradTarget part a (4 * xs.length) with
  | none => (true, s.blocked r part a (4 * xs.length))
  | some (p, d, off, k) =>
    if (s.pane p d k).draining then (true, s.lateWrite r p d k utag)
    else
      let (_, s) := xs.foldl (fun ((o, s) : Nat × State) src =>
        let (v, big, nan) := addOnWrite src (FMap.readLE s.grad (gradKey d o) 4)
        (o + 4, { s with grad := FMap.writeLE s.grad (gradKey d o) 4 v }.countAdd d big nan)) (off, s)
      (false, s.openPane p d k)

/-- Adds values into consecutive F32 elements of memory from `a`, at their home: one request of at most a line (R188,
R207, R236). -/
def State.memAdd (s : State) (r : Requester) (part : Option Nat) (a : Nat) (xs : List Fp) : Bool × State :=
  if s.admits part a (4 * xs.length) [rightAow] then
    let s := s.accessHome r.who .add a (4 * xs.length)
    if s.homeFenced a then (true, s)
    else
      let bad := s.badRange a (4 * xs.length)
      let (_, s) := xs.foldl (fun ((b, s) : Nat × State) src =>
        let (v, big, nan) := addOnWrite src (s.load b 4)
        (b + 4, { s with mem := FMap.writeLE s.mem b 4 v }.countAdd (s.home a) big nan)) (a, s)
      (bad, s)
  else (true, s.blocked r part a (4 * xs.length))

/-- The elements of a drained pane, in ascending offset: `n` values of `[off, …)` narrowed to a G format with exponent
`k`, each with its error term in compensated-pair mode (R241). -/
def drainElement (g : Nat) (k : Int) (bits : Nat) : Written × Nat :=
  let x := (f32Format.decode bits).scale k
  let hi := writeElem g false false false x
  let lo := match hi.value with
    | .fin h => match x with
      | .fin d => (narrowElem g false true false (.fin (d.sub h))).bits
      | _ => 0
    | _ => 0
  (hi, lo)

/-- PANE_DRAIN_END (R240, R241): the last element is released and the rest zeroed; the pane is Empty. -/
def execPaneDrainEnd (d p k : Nat) (s : State) : Result :=
  let x := s.pane p d k
  guardEvent (decide (d < 16) && decide (p < 16) && decide (k < 2) && x.draining) s <|
  let (b, n) := s.paneSpan p d k
  .next ({ s with grad := FMap.clearRange s.grad (gradKey d b) (gradKey d (b + n)) }.setPane p d k { x with st := .empty })

/-! ### The format converter (R225 to R233) -/

/-- A converted region (Table 7.2). -/
structure Region where
  zrc   : Bool
  subn  : Bool
  novf  : Bool
  blk   : Nat
  bscl  : Bool
  vf    : Nat
  sf    : Nat
  len   : Nat       -- bytes of the stored element array
  map   : Nat
  scale : Nat
  base  : Nat
deriving DecidableEq, Repr

/-- Elements per block of a BLK field (Table 2.4). -/
def blockSize (blk : Nat) : Nat := 16 * 2 ^ blk

/-- Reads the fields of a region entry. -/
def regionOf (v : Nat) : Region :=
  { zrc := bitOf v 237, subn := bitOf v 236, novf := bitOf v 235, blk := blockSize (field v 234 233), bscl := bitOf v 232,
    vf := field v 231 228, sf := field v 227 224, len := field v 223 192 * 4096, map := field v 168 128,
    scale := field v 104 64, base := field v 40 0 }

/-- Region `r` of partition `p`. -/
def State.region (s : State) (p r : Nat) : Region := regionOf (s.val (0x3500 + p) (r + 1))

/-- Bytes that `n` elements of a format take. -/
def elemBytes (code n : Nat) : Nat := n * formatBits code / 8

/-- Element `i` of packed elements; E2M1 holds two to the byte, the even one low (R52). -/
def elemAt (code bits i : Nat) : Nat := (bits >>> (formatBits code * i)) % 2 ^ formatBits code

/-- Packs encodings. -/
def packElems (code : Nat) (es : List Nat) : Nat :=
  es.foldr (fun e acc => e % 2 ^ formatBits code + acc <<< formatBits code) 0

/-- Cuts a list into runs of `n`, at most `fuel` of them. -/
def chunksOf {α : Type} (n : Nat) : Nat → List α → List (List α)
  | 0, _ => []
  | fuel + 1, xs => if xs.isEmpty then [] else xs.take n :: chunksOf n fuel (xs.drop n)

/-- Sets or clears a granule's zero-run bit by an atomic step at the home of its map word (R229). -/
def State.setZeroRun (s : State) (r : Requester) (part : Option Nat) (g : Region) (granule : Nat) (b : Bool) : Bool × State :=
  let a := g.map + 8 * (granule / 64)
  if s.admits part a 8 [rightWr] then
    let s := s.homeAtomic r.who a
    if s.homeFenced a then (true, s) else (false, s.store a 8 (setBit (s.load a 8) (granule % 64) b))
  else (true, s.blocked r part a 8)

/-- Writes the stored bytes of whole granules, leaving out those that are zero where ZRC is 1 (R229). -/
def State.writeStored (s : State) (r : Requester) (part : Option Nat) (die tag : Nat) (g : Region) (off n v : Nat) :
    Bool × State :=
  if !g.zrc then
    let s := (s.bump (0x3600 + die) 7 n).tagFigure die part tag 4 n
    s.writeMany r part (g.base + off) n v
  else
    (List.range (n / 64)).foldl (fun (e, s) i =>
      let b := (v >>> (512 * i)) % 2 ^ 512
      let gr := off / 64 + i
      if b = 0 then
        let s := (s.bump (0x3600 + die) 8 1).tagFigure die part tag 5 1
        let (x, s) := s.setZeroRun r part g gr false
        (e || x, s)
      else
        let s := (s.bump (0x3600 + die) 7 64).tagFigure die part tag 4 64
        let (x, s) := s.writeMany r part (g.base + 64 * gr) 64 b
        let (y, s) := s.setZeroRun r part g gr true
        (e || x || y, s)) (false, s)

/-- Converted-space traffic of a mast whose domain is down is blocked (R444). -/
def State.converterDown (s : State) (r : Requester) : Bool :=
  match r with
  | .thread m _ | .stream m _ _ => s.domainDown (mastDie m)
  | .port _ _ => false

/-- The view elements of a row of `n` bytes at view offset `off`: the number of the first, how many there are, and how many
of them lie below the region's end (R227). A disabled region has none below it. -/
def Region.row (g : Region) (off n : Nat) : Nat × Nat × Nat :=
  let vb := formatBits g.vf / 8
  if vb = 0 then (0, 0, 0)
  else
    let i0 := off / vb
    (i0, n / vb, min (n / vb) (8 * g.len / formatBits g.sf - i0))

/-- The answer to the elements of a converted row from element `i` of region `reg` on: blocked (R225, R227). -/
def State.blockedView (s : State) (r : Requester) (part : Option Nat) (reg off n : Nat) : State :=
  s.blocked r part (2 ^ 62 + reg * 2 ^ 56 + off) n

/-- A view or stored element as the converter reads it: flushed in compatibility mode (R58, Table 2.6). -/
def convertElem (compat : Bool) (code bits : Nat) : Fp := flushElem (!compat) code bits (decodeElem code bits)

/-- A row of a COPY_OUT to converted space: `n` bytes `v` of view elements at view offset `off` (R228). -/
def State.convertOut (s : State) (r : Requester) (part : Option Nat) (compat : Bool) (tag reg off n v : Nat) : Bool × State :=
  match part with
  | none => (true, s.blockedView r part reg off n)
  | some p =>
    let g := s.region p reg
    let vb := formatBits g.vf / 8
    let (i0, all, count) := g.row off n
    let o := elemBytes g.sf i0
    if s.converterDown r ∨ count = 0 then (true, s.blockedView r part reg off n)
    else
      let late := decide (count < all)
      let s := if late then s.blockedView r part reg (off + count * vb) (n - count * vb) else s
      let n := count * vb
      let xs := (List.range count).map fun i => convertElem compat g.vf (elemAt g.vf v i)
      let s := (s.bump (0x3600 + r.die) 6 n).tagFigure r.die part tag 3 n
      if g.bscl then
        let blocks := (chunksOf g.blk count xs).map fun b => (b, writeBlock g.sf g.novf (g.subn && !compat) compat b)
        let ws := blocks.flatMap fun b => b.2.2
        let scales := packElems 7 (blocks.map fun b => b.2.1.s)
        let s := blocks.foldl (fun s b => match blockError g.sf b.2.1 b.1 with
          | some e => s.tagError r.die part tag e
          | none => s) s
        let (e1, s) := s.writeStored r part r.die tag g o (elemBytes g.sf count) (packElems g.sf (ws.map (·.bits)))
        let s := (s.bump (0x3600 + r.die) 7 blocks.length).tagFigure r.die part tag 4 blocks.length
        let (e2, s) := s.writeMany r part (g.scale + i0 / g.blk) blocks.length scales
        (late || e1 || e2, s.countAll r.die part tag g.sf ws)
      else
        let ws := xs.map (writeElem g.sf g.novf (g.subn && !compat) compat)
        let (e, s) := s.writeStored r part r.die tag g o (elemBytes g.sf count) (packElems g.sf (ws.map (·.bits)))
        (late || e, s.countAll r.die part tag g.sf ws)

/-- Reads the stored bytes of whole granules; a granule whose zero-run bit is 0 is zero and is not read (R230). -/
def State.readStored (s : State) (r : Requester) (part : Option Nat) (g : Region) (off n : Nat) : Answer × State :=
  if !g.zrc then s.readMany r part (g.base + off) n
  else
    (List.range (n / 64)).foldl (fun (ans, s) i =>
      let gr := off / 64 + i
      let (w, s) := s.readReq r part (g.map + 8 * (gr / 64)) 8
      if !bitOf w.val (gr % 64) then (⟨ans.val, ans.err || w.err⟩, s)
      else
        let (x, s) := s.readMany r part (g.base + 64 * gr) 64
        (⟨ans.val + x.val <<< (512 * i), ans.err || w.err || x.err⟩, s)) (⟨0, false⟩, s)

/-- A view element read back (R230): widened, scaled, and narrowed to the view format. -/
def viewElem (g : Region) (compat : Bool) (bits scale : Nat) : Nat :=
  let x := convertElem compat g.sf bits
  if g.vf = 4 then (narrowElem 4 true true compat x).bits
  else
    let wide : Fp := if g.bscl then f32Format.decode (applyScale scale x).bits else x
    if g.vf = 0 then (toF32Bits compat wide).toNat
    else (narrowElem g.vf g.novf (g.subn && !compat) compat wide).bits

/-- A row of a COPY_IN from converted space: `n` view bytes at view offset `off` (R230). -/
def State.convertIn (s : State) (r : Requester) (part : Option Nat) (compat : Bool) (reg off n : Nat) : Answer × State :=
  match part with
  | none => (⟨0, true⟩, s.blockedView r part reg off n)
  | some p =>
    let g := s.region p reg
    let vb := formatBits g.vf / 8
    let (i0, all, count) := g.row off n
    let o := elemBytes g.sf i0
    if s.converterDown r ∨ count = 0 then (⟨0, true⟩, s.blockedView r part reg off n)
    else
      let late := decide (count < all)
      let s := if late then s.blockedView r part reg (off + count * vb) (n - count * vb) else s
      let (el, s) := s.readStored r part g o (elemBytes g.sf count)
      let (sc, s) := if g.bscl && g.vf != 4 then s.readMany r part (g.scale + i0 / g.blk) (count / g.blk) else (⟨0, false⟩, s)
      let es := (List.range count).map fun i =>
        viewElem g compat (elemAt g.sf el.val i) ((sc.val >>> (8 * (i / g.blk))) % 256)
      (⟨packElems g.vf es, late || el.err || sc.err⟩, s)

end Sys2Proof.Machine
end

