-- ==== Sys2Proof/Machine/Admission.lean ====
section
/-! DEFINITION. Plans as they are loaded, groups and rank blocks, and deadline admission (R355 to R365, R377 to R382,
R384). -/
namespace Sys2Proof.Machine

/-- The plan header (Table 11.1). -/
structure PlanHead where
  s0     : Nat
  valid  : Bool
  bken   : Bool
  bkm    : Nat
  dgr    : Nat
  chk    : Nat
  sealen : Bool
  sealph : Nat
  nph    : Nat        -- number of phases
  alt    : Bool
  cp     : Bool
  gf     : Nat
  vc     : Nat
  part   : Nat
  id     : Nat
deriving DecidableEq, Repr

def planHead (v : Nat) : PlanHead :=
  { s0 := field v 89 58, valid := bitOf v 57, bken := bitOf v 56, bkm := field v 55 50, dgr := field v 49 45,
    chk := field v 44 41, sealen := bitOf v 40, sealph := field v 39 35, nph := field v 34 30 + 1, alt := bitOf v 29,
    cp := bitOf v 28, gf := field v 27 24, vc := field v 23 20, part := field v 19 16, id := field v 15 0 }

/-- A phase entry (Table 11.2). -/
structure Phase where
  count    : Nat      -- NHI and N
  xaddr    : Nat
  split    : Bool
  taddr    : Nat
  daddr    : Nat
  saddr    : Nat
  tv       : Nat
  maxb     : Nat
  deadline : Nat
  ttag     : Nat
  k        : Nat
  lit      : Nat
  grp      : Nat
  wake     : Nat
  ret      : Bool
  pane     : Nat
  dstk     : Nat
  srck     : Nat
  trig     : Nat
  dir      : Nat
  axis     : Nat
  op       : Nat
deriving DecidableEq, Repr

def phaseOf (v : Nat) : Phase :=
  { count := field v 380 365 * 2 ^ 32 + field v 135 104, xaddr := field v 364 324, split := bitOf v 323,
    taddr := field v 322 282, daddr := field v 281 241, saddr := field v 240 200, tv := field v 199 168,
    maxb := field v 167 136, deadline := field v 103 72, ttag := field v 71 60, k := field v 59 52, lit := field v 51 36,
    grp := field v 35 18, wake := field v 17 16, ret := bitOf v 15, pane := field v 14 14, dstk := field v 13 12,
    srck := field v 11 10, trig := field v 9 8, dir := field v 7 6, axis := field v 5 4, op := field v 3 0 }

def Phase.lo (x : Phase) : Nat := field x.grp 17 12
def Phase.cnt (x : Phase) : Nat := field x.grp 11 6
def Phase.step (x : Phase) : Nat := field x.grp 5 0
def Phase.mask (x : Phase) : Nat := field x.grp 15 0

/-- Whether a phase is a reduction: REDUCE_SCATTER or ALL_REDUCE. -/
def Phase.reduces (x : Phase) : Bool := x.op == 0 || x.op == 2

/-- The header and a phase of the plan in slot `k`. -/
def State.head (s : State) (k : Nat) : PlanHead := planHead (s.val (0x5000 + k) 1)
def State.phase (s : State) (k i : Nat) : Phase := phaseOf ((s.obj (0x5000 + k) 2).slice (64 * i) 64).bits

/-- The loaded slots. -/
def State.loaded (s : State) : List Nat := (List.range 64).filter fun k => (s.head k).valid

/-- Whether loaded slot `k` uses an object (R88, R412). -/
def State.slotUses (s : State) (k key : Nat) : Bool :=
  let h := s.head k
  let i := keyIdx key
  let xs := (List.range h.nph).map (s.phase k)
  i == 0x5000 + k || (h.bken && i == 0x5040 + h.bkm) || i == 0x5100 + h.part || i == 0x7110 + h.part || i == 0x3500 + h.part ||
    (i == 0x3610 + h.part && xs.any fun x => x.srck == 1) ||
    (xs.any (fun x => x.dstk == 1) && (i == 0x6340 + h.part || (0x6300 ≤ i && i ≤ 0x633F && s.val i 1 == h.part))) ||
    key == objKey 0x6500 (h.part + 1)

/-- The loaded slots that use an object. -/
def State.usersOf (s : State) (key : Nat) : List Nat := s.loaded.filter fun k => s.slotUses k key

/-- Whether a deferred value waits for a slot (R412): every loaded plan that uses it, also one loaded since (R88). -/
def State.awaited (s : State) (k : Nat) : Bool :=
  (s.head k).valid && s.deferred.any fun d => s.slotUses k d.key

/-! ### Groups and ranks (R358) -/

/-- The dies of a mask, ascending. -/
def maskDies (mask : Nat) : List Nat := (List.range 16).filter (bitOf mask)

/-- The physical axis of a role (5100h): 0 X, 1 Y, 2 Z. -/
def State.axisOf (s : State) (part axis : Nat) : Nat := s.val (0x5100 + part) axis - 1

/-- The members of a phase in rank order: coordinates, or die numbers on AXIS 00b. -/
def State.members (s : State) (h : PlanHead) (x : Phase) : List Nat :=
  if x.axis = 0 then maskDies x.mask
  else
    let a := s.axisOf h.part x.axis
    let n := coordAt s.sizes a
    (List.range x.cnt).map fun j => coordWith s.coord a ((x.lo + j * x.step) % (max n 1))

/-- The place of an element in a list. -/
def rankIn (c : Nat) (ms : List Nat) : Option Nat := ms.findIdx? (· == c)

/-- Number of ranks. -/
def Phase.ranks (x : Phase) : Nat := if x.axis = 0 then (maskDies x.mask).length else x.cnt

/-! ### Rank blocks (R361) -/

/-- Groups of 64 of a vector. -/
def groupsOf (n : Nat) : Nat := (n + 63) / 64

/-- Groups of rank `i` of an even split. -/
def evenSplit (q p i : Nat) : Nat := q / p + if i < q % p then 1 else 0

/-- The groups that each rank owns. -/
def State.splits (s : State) (x : Phase) : List Nat :=
  if x.split then (List.range x.ranks).map fun i => s.load (x.xaddr + 4 * i) 4
  else (List.range x.ranks).map (evenSplit (groupsOf x.count) x.ranks)

/-- First group of rank `i`. -/
def blockStart (splits : List Nat) (i : Nat) : Nat := (splits.take i).foldl (· + ·) 0

/-- First group and number of groups of the part of block `i` on a ring: 0 the + ring, 1 the − ring (R359). -/
def blockPart (dir : Nat) (splits : List Nat) (i half : Nat) : Nat × Nat :=
  let g := splits.getD i 0
  let plus := if dir = 0 then (g + 1) / 2 else if dir = 1 then g else 0
  if half = 0 then (blockStart splits i, plus) else (blockStart splits i + plus, g - plus)

/-- Bytes of a value in a chunk that is being reduced, or of a finished one (R366, R372). -/
def valueBytes (pairs : Bool) : Nat := if pairs then 4 else 2

/-- Payload bytes of a chunk (Table 11.1). -/
def chunkSize (h : PlanHead) : Nat := 4096 * 2 ^ h.chk

/-! ### Backup maps (R384) -/

/-- Entry of a backup map (Table 11.10). -/
structure BackupEntry where
  slf     : Bool
  standby : Bool
  coord   : Nat
  rank    : Nat
deriving DecidableEq, Repr

/-- The valid entries of map `m`. -/
def State.backups (s : State) (m : Nat) : List BackupEntry :=
  (List.range 64).filterMap fun i =>
    let v := s.val (0x5040 + m) (i + 1)
    if bitOf v 26 then some ⟨bitOf v 25, bitOf v 24, coordOfField (field v 23 6), field v 5 0⟩ else none

/-- The entry by which this package is itself a backup of a plan: its data-axis reductions send their values to the
primary, and every other phase completes as soon as it triggers (R384). -/
def State.selfBackup (s : State) (h : PlanHead) : Option BackupEntry :=
  if h.bken then (s.backups h.bkm).find? (·.slf) else none

/-- Whether a backup map is used by a phase: a reduction on the data axis (R384). -/
def Phase.backed (x : Phase) : Bool := x.reduces && x.axis == 3

/-- Whether a coordinate lies in the ranges of R46. -/
def coordInRange (c : Nat) : Bool := coordAt c 0 < 16 && coordAt c 1 < 32 && coordAt c 2 < 48

/-- Whether the backup map of a plan is invalid (R384). -/
def State.badBackups (s : State) (k : Nat) (h : PlanHead) : Bool :=
  let es := (s.backups h.bkm).filter fun e => !e.slf
  let groups := ((List.range h.nph).map (s.phase k)).filter fun x => x.reduces && x.axis == 3
  h.bken && (es.any (fun e => !coordInRange e.coord || groups.any (fun x => (s.members h x).contains e.coord)) ||
    (es.any fun e => es.any fun f => e.coord == f.coord && e.rank != f.rank) ||
    s.loaded.any fun j => let g := s.head j; g.bken && g.bkm == h.bkm && g.part != h.part)

/-! ### Sources and destinations (R363, R381) -/

/-- Values that a rank owns, without padding. -/
def ownCount (x : Phase) (splits : List Nat) (i : Nat) : Nat :=
  min (64 * splits.getD i 0) (x.count - 64 * blockStart splits i)

/-- The group counts that admission and the window checks use: with SPLIT, MAXB for every rank. -/
def admissionSplits (x : Phase) : List Nat :=
  if x.split then List.replicate x.ranks x.maxb else (List.range x.ranks).map (evenSplit (groupsOf x.count) x.ranks)

/-- Bytes of a rank's result (R363, R372). -/
def resultBytes (x : Phase) (splits : List Nat) (i : Nat) : Nat :=
  match x.op with
  | 0 => 2 * ownCount x splits i
  | 3 => x.ranks * (x.maxb + 16)
  | 4 => x.count
  | 5 => x.count
  | _ => 2 * x.count

/-- The dies on which a partition holds an allotment. -/
def State.paneDies (s : State) (p : Nat) : List Nat := (List.range 16).filter fun d => (s.allotment p d).2 != 0

/-- The die rings of a phase: one per allotted die for a pane source on an axis, else one (R363). -/
def State.dieRings (s : State) (h : PlanHead) (x : Phase) : List Nat :=
  if x.srck = 1 ∧ x.axis ≠ 0 then s.paneDies h.part else [0]

/-- Result offset of die `d`'s ring (R363). -/
def ringOffset (x : Phase) (r d : Nat) : Nat := if x.srck = 1 then d * ((r + 4095) / 4096) * 4096 else 0

/-- Whether the phase's source is wrong (code 07h). -/
def State.badSource (s : State) (h : PlanHead) (x : Phase) (rank : Nat) : Bool :=
  let e := if h.cp && x.reduces then 4 else 2
  match x.srck with
  | 0 =>
    let n := match x.op with | 3 => 16 * x.ranks | 4 => x.count | 5 => x.count | _ => e * x.count
    if (x.op = 4 ∨ x.op = 5) ∧ rank ≠ 0 then false else !s.inWindows h.part x.saddr n [rightRd]
  | 1 =>
    let dies := if x.axis = 0 then maskDies x.mask else s.paneDies h.part
    dies.isEmpty || dies.any fun d => (s.allotment h.part d).2 / 8 < x.count
  | 2 => !s.inWindows h.part x.saddr 64 [rightRd, rightAt]
  | _ => false

/-- Whether the phase's destination is wrong (code 08h). -/
def State.badDest (s : State) (h : PlanHead) (x : Phase) (rank : Nat) : Bool :=
  let r := resultBytes x (admissionSplits x) rank
  let rings := if x.axis = 0 ∧ x.srck = 1 then maskDies x.mask else s.dieRings h x
  match x.dstk with
  | 0 => if (x.op = 4 ∧ rank = 0) ∨ (x.op = 5 ∧ rank = 0) then false
         else rings.any fun d => !s.inWindows h.part (x.daddr + ringOffset x r d) r [rightWr]
  | 1 => rings.any fun d => s.val (0x6340 + h.part) 2 ≤ x.daddr % 65536 + (if x.srck = 1 then d else 0)
  | _ => false

/-! ### Ports of a phase -/

/-- The ranks that rank `j` sends to in a phase, by ring direction. -/
def Phase.nextRanks (x : Phase) (j : Nat) : List Nat :=
  let p := x.ranks
  match x.op with
  | 3 => (List.range p).filter (· != j)
  | 5 => if j = 0 then [1] else []
  | _ => (if x.dir = 2 then [] else [(j + 1) % p]) ++ (if x.dir = 1 then [] else [(j + p - 1) % p])

/-- The ranks that rank `j` receives from. -/
def Phase.prevRanks (x : Phase) (j : Nat) : List Nat :=
  let p := x.ranks
  match x.op with
  | 3 => (List.range p).filter (· != j)
  | 5 => if j = 1 then [0] else []
  | _ => (if x.dir = 2 then [] else [(j + p - 1) % p]) ++ (if x.dir = 1 then [] else [(j + 1) % p])

/-- The port by which a package's flits toward a coordinate leave, and by which another's arrive here. -/
def State.portTo (s : State) (c : Nat) : Option Nat := primaryPort s.coord c s.sizes

/-- The port at which flits from coordinate `c` arrive here: opposite to the port by which they leave on their last hop. -/
def State.portFrom (s : State) (c : Nat) : Option Nat :=
  (List.range 3).reverse.findSome? fun a =>
    let n := coordAt s.sizes a
    let d := (coordAt s.coord a + n - coordAt c a % (max n 1)) % (max n 1)
    if d = 0 then none else some (if 2 * d ≤ n then 2 * a + 1 else 2 * a)

/-- The ports that a phase sends by, and all that it uses. -/
def State.phasePorts (s : State) (h : PlanHead) (x : Phase) : List Nat × List Nat :=
  let ms := s.members h x
  match s.selfBackup h, rankIn s.coord ms with
  | some e, _ => if x.backed then let out := (s.portTo e.coord).toList; (out, out) else ([], [])
  | none, some j =>
    let out := (x.nextRanks j).filterMap fun r => s.portTo (ms.getD r 0)
    let inn := (x.prevRanks j).filterMap fun r => s.portFrom (ms.getD r 0)
    (out, out ++ inn)
  | none, none => ([], [])

/-- The ratline links that an in-package phase uses. -/
def State.phaseLinks (s : State) (x : Phase) : List Nat :=
  let ds := maskDies x.mask
  (List.range ds.length).flatMap fun j => (x.nextRanks j).flatMap fun r => s.dieRoute (ds.getD j 0) (ds.getD r 0)

/-! ### The worst-case time (R378, R379, Table 11.8), in ns -/

/-- Virtual channels of the loaded plans. -/
def State.planVcs (s : State) : List Nat := (s.loaded.map fun k => (s.head k).vc).foldl (fun l v => insertSorted v l) []

/-- Sum of the weights of those channels and of `vc`, from 4040h or 4840h (R303). -/
def State.weightSum (s : State) (idx vc : Nat) : Nat :=
  ((insertSorted vc s.planVcs).filter fun v => 2 ≤ v && v ≤ 14).foldl (fun t v => t + s.val idx (v - 1)) 0

/-- Payload rate of a port in bytes per ns (R310, R322). -/
def State.payloadRate (s : State) (p : Nat) : Rat :=
  let l := (s.port p).link
  (l.width * l.rate : Rat) / 8 * (if l.gen = 1 then (232 : Rat) / 256 else (240 : Rat) / 272)

/-- Guaranteed rate of a VC on a port (R345). -/
def State.portRate (s : State) (p vc : Nat) : Rat :=
  let w := (s.val 0x4040 (vc - 1) : Rat)
  let a := (15 : Rat) / 16 * s.payloadRate p * w / (s.weightSum 0x4040 vc : Rat)
  let b := (((s.val 0x4030 (vc + 1) : Rat) - 16) * 272) / (2 * ((s.port p).link.latency : Rat) + 100)
  min a b

/-- Guaranteed rate of a VC on a ratline (R303). -/
def State.ratRate (s : State) (l vc : Nat) : Rat :=
  (15 : Rat) / 16 * 700 * (s.linkWidth l : Rat) / 32 * (s.val 0x4840 (vc - 1) : Rat) / (s.weightSum 0x4840 vc : Rat)

/-- The least of a list of rates. -/
def leastRate (d : Rat) (xs : List Rat) : Rat := match xs with | [] => d | x :: r => r.foldl min x

/-- The greatest of a list of times, 0 for none. -/
def mostTime (xs : List Rat) : Rat := xs.foldl max 0

/-- Forwarding delay between the two ports of an axis of this package (R344). -/
def State.ownForward (s : State) (a : Nat) : Rat := 120 + s.routeCost (portDie (2 * a)) (portDie (2 * a + 1))

/-- Latency of a ring link between two coordinates along one axis: this package's own hops at L of its port, the others at
600 + 264 ns (Table 11.8). -/
def State.pathLatency (s : State) (a : Nat) (dst : Nat) : Nat → Nat → Rat
  | 0, _ => 0
  | fuel + 1, c =>
    let n := max (coordAt s.sizes a) 1
    let x := coordAt c a
    let d := (coordAt dst a + n - x % n) % n
    if d = 0 then 0
    else
      let up := decide (2 * d ≤ n)
      let nx := if up then (x + 1) % n else (x + n - 1) % n
      let c' := coordWith c a nx
      let own := fun (p : Nat) => ((s.port p).link.latency : Rat) + s.ownForward a
      let t := if c = s.coord then own (if up then 2 * a else 2 * a + 1)
        else if c' = s.coord then own (if up then 2 * a + 1 else 2 * a) else 864
      t + s.pathLatency a dst fuel c'

/-- H of Table 11.8. -/
def State.ringLatency (s : State) (h : PlanHead) (x : Phase) : Rat :=
  let ms := s.members h x
  let links := (List.range ms.length).flatMap fun j => (x.nextRanks j).map fun r => (ms.getD j 0, ms.getD r 0)
  60 + mostTime (if x.axis = 0 then links.map fun e => s.routeCost e.1 e.2
    else links.map fun e => s.pathLatency (s.axisOf h.part x.axis) e.2 64 e.1)

/-- The bound of Table 6.4 for the farthest of some homes, from any die. -/
def State.farBound (s : State) (homes : List Nat) : Rat :=
  mostTime (homes.flatMap fun h => (List.range 16).map fun d => if d = h then 400 else 484 + s.routeCost d h)

/-- The homes that a range of memory spans (R194, R195). -/
def State.homesOf (s : State) (p a n : Nat) : List Nat :=
  let striped := match (List.range 16).find? fun k => winAllows (s.window p k) a 1 [] with
    | some k => bitOf (s.window p k) 49
    | none => false
  if striped then
    (List.range 16).filter fun d => decide (((a + n - 1) / 2 ^ 23) - a / 2 ^ 23 ≥ 15) ||
      ((List.range 16).any fun i => a / 2 ^ 23 + i ≤ (a + n - 1) / 2 ^ 23 && (a / 2 ^ 23 + i) % 16 == d)
  else List.range 16

/-- T_s and T_d of Table 11.8. -/
def State.sourceTime (s : State) (h : PlanHead) (x : Phase) : Rat :=
  match x.srck with
  | 0 => s.farBound (s.homesOf h.part x.saddr (max 1 (2 * x.count)))
  | 1 =>
    let dies := if x.axis = 0 then maskDies x.mask else s.paneDies h.part
    mostTime (dies.flatMap fun d => if x.axis = 0 then [60] else
      (s.phasePorts h x).1.map fun p => 60 + s.routeCost d (portDie p))
  | 2 => s.farBound (List.range 16)
  | _ => 0

def State.destTime (s : State) (h : PlanHead) (x : Phase) (rank : Nat) : Rat :=
  let r := resultBytes x (admissionSplits x) rank
  match x.dstk with
  | 0 =>
    let rings := if x.axis = 0 ∧ x.srck = 1 then maskDies x.mask else s.dieRings h x
    s.farBound (rings.flatMap fun d => s.homesOf h.part (x.daddr + ringOffset x r d) (max 1 r))
  | 1 => s.farBound (List.range 16)
  | _ => 0

/-- W of Table 11.8. -/
def wakeTime (x : Phase) : Rat :=
  if x.lit = 0 then 0 else match x.wake with | 0 => 0 | 1 => 70 | 2 => 20000 | _ => 62180

/-- T of a phase in ns (R379). -/
def State.phaseTime (s : State) (h : PlanHead) (x : Phase) (rank : Nat) : Rat :=
  let p : Rat := x.ranks
  let size : Rat := chunkSize h
  let c1 : Rat := size + 48
  let e : Rat := if 4 ≤ x.op then 1 else if h.cp && x.reduces then 4 else 2
  let g : Nat := if x.split then x.maxb else (groupsOf x.count + x.ranks - 1) / (max x.ranks 1)
  let b : Rat :=
    if x.op = 4 then (if x.dir = 0 then (((x.count + 1) / 2 : Nat) : Rat) else x.count) * c1 / size
    else 64 * e * (if x.dir = 0 then (((g + 1) / 2 : Nat) : Rat) else g) * c1 / size
  let m : Rat := if x.srck = 1 ∧ x.axis ≠ 0 then max 1 (s.dieRings h x).length else 1
  let rates := (if x.axis = 0 then (s.phaseLinks x).map fun l => s.ratRate l h.vc
    else (s.phasePorts h x).1.map fun q => s.portRate q h.vc).map (· / m)
  let adder : List Rat := if x.reduces then [(256 : Rat) * 141 / 100 * e / m] else []
  let r := leastRate 1 (rates ++ adder)
  let hh := s.ringLatency h x
  let core : Rat := match x.op with
    | 0 => (p - 1) * (b / r + hh + c1 / r)
    | 1 => (p - 1) * (b / r + hh + c1 / r)
    | 2 => 2 * (p - 1) * (b / r + hh + c1 / r)
    | 4 => b / r + (if x.dir = 0 then ((x.ranks / 2 : Nat) : Rat) else p - 1) * (hh + c1 / r)
    | 5 => (x.count : Rat) * c1 / (size * r) + hh + c1 / r
    | _ =>
      let half := (x.ranks - 1) / 2
      let d : Rat := ((half * (half + 1) / 2 : Nat) : Rat) + if x.ranks % 2 = 0 then p / 2 else 0
      d * ((x.maxb : Rat) + 16) * c1 / (size * r) + (((x.ranks + 1) / 2 : Nat) : Rat) * (hh + c1 / r)
  wakeTime x + s.sourceTime h x + s.destTime h x rank + core

/-- The computed ticks of a phase (R378). -/
def State.phaseTicks (s : State) (h : PlanHead) (x : Phase) (rank : Nat) : Nat := (s.phaseTime h x rank / 40).ceil.toNat

/-! ### Refusal codes (Table 11.9) -/

/-- What admission finds of a slot: the code (0 admitted), the phase, the subindex it names, the computed ticks. -/
structure Verdict where
  code  : Nat
  phase : Nat
  sub   : Nat
  ticks : List Nat
deriving DecidableEq, Repr

/-- A code that concerns the header alone. -/
def State.headCode (s : State) (k : Nat) (h : PlanHead) : Nat :=
  let xs := (List.range h.nph).map (s.phase k)
  if (h.gf != 2 && h.gf != 3) || 8 < h.chk then 0x0A
  else if h.vc < 2 || (if xs.any Phase.reduces then 9 else 13) < h.vc then 5
  else if !bitOf (s.val (0x7140 + h.part) 2) k || !bitOf (s.val (0x7140 + h.part) 1) h.vc then 5
  else if s.badBackups k h then 9
  else 0

/-- Whether another loaded plan with reduction phases uses the VC with another group (code 05h). -/
def State.vcClash (s : State) (k : Nat) (h : PlanHead) (x : Phase) : Bool :=
  x.reduces && s.loaded.any fun j =>
    let g := s.head j
    j != k && g.vc == h.vc && ((List.range g.nph).map (s.phase j)).any fun y =>
      y.reduces && (y.axis != x.axis || s.members g y != s.members h x)

/-- Whether the group of a phase is invalid (code 04h). -/
def State.badGroup (s : State) (h : PlanHead) (x : Phase) : Bool :=
  if x.axis = 0 then (maskDies x.mask).length < 2 || (x.op == 5 && (maskDies x.mask).length != 2)
  else x.cnt < 2 || x.step == 0 || !(s.members h x).Nodup || (x.op == 5 && x.cnt != 2)

/-- Whether the dies that LIT names include a fenced mast of the partition (code 0Bh); every mast of a domain that is down
counts as fenced (R444). -/
def State.fencedLit (s : State) (h : PlanHead) (x : Phase) : Bool :=
  ((List.range 16).any fun d => bitOf x.lit d && s.domainDown d && field (s.val (0x7120 + h.part) 1) (192 * d + 191) (192 * d) != 0) ||
  s.masts.any fun e => e.2.fenced && bitOf x.lit (mastDie e.1) && bitOf (s.val (0x7120 + h.part) 1) e.1

/-- Whether a port that the phase uses lacks a feature it needs (code 06h). -/
def State.lacksFeature (s : State) (h : PlanHead) (x : Phase) : Bool :=
  (s.phasePorts h x).2.any fun p =>
    let f := (s.port p).peer.feat
    (h.cp && x.reduces && !bitOf f 1) || (h.bken && h.dgr != 31 && x.backed && !bitOf f 2) || (h.alt && !bitOf f 3)

/-- Whether a port or ratline that the phase uses is not Live (code 02h). -/
def State.routeDead (s : State) (h : PlanHead) (x : Phase) : Bool :=
  if x.axis = 0 then (s.selfBackup h).isNone && (s.phaseLinks x).any fun l => !s.linkLive l
  else (s.phasePorts h x).2.any fun p => s.portState p != portLive

/-- The code of a phase, its time aside (Table 11.9); the first that holds, in this order (log 25). -/
def State.phaseCode (s : State) (k : Nat) (h : PlanHead) (i : Nat) (x : Phase) : Nat :=
  let rank := rankIn s.coord (s.members h x)
  if 5 < x.op || x.dir == 3 || x.trig == 3 || x.dstk == 3 || (s.obj (0x5000 + k) 2).len < 64 * (i + 1) then 0x0A
  else if i = 0 ∧ x.trig = 0 then 0x0C
  else if s.badGroup h x then 4
  else if x.axis ≠ 0 ∧ rank.isNone ∧ (s.selfBackup h).isNone then 3
  else if s.vcClash k h x then 5
  else if s.routeDead h x then 2
  else if s.lacksFeature h x then 6
  else if s.badSource h x (rank.getD 0) then 7
  else if s.badDest h x (rank.getD 0) then 8
  else if s.fencedLit h x then 0x0B
  else 0

/-- Judges the phases of a slot in order. -/
def State.judgeFrom (s : State) (k : Nat) (h : PlanHead) (i : Nat) (ticks : List Nat) : Nat → Verdict
  | 0 => ⟨0, 0, 0, ticks⟩
  | left + 1 =>
    let x := s.phase k i
    let c := s.phaseCode k h i x
    if c ≠ 0 then ⟨c, i, if c = 5 then 1 else 2, ticks⟩
    else
      let t := s.phaseTicks h x ((rankIn s.coord (s.members h x)).getD 0)
      if x.deadline ≠ 0 ∧ x.deadline < t then ⟨1, i, 2, ticks ++ [t]⟩
      else s.judgeFrom k h (i + 1) (ticks ++ [t]) left

/-- What admission finds of the plan in slot `k`. -/
def State.judge (s : State) (k : Nat) : Verdict :=
  let h := s.head k
  let c := s.headCode k h
  if c ≠ 0 then ⟨c, 0, 1, []⟩ else s.judgeFrom k h 0 [] h.nph

/-- Writes a verdict into 5080h + k with a state (Table 11.13). -/
def State.noteVerdict (s : State) (k st : Nat) (v : Verdict) : State :=
  let i := 0x5080 + k
  let s := ((s.setVal i 1 st).setVal i 2 v.code).setVal i 3 v.phase
  forRange 32 s fun j s => s.setVal i (4 + j) (v.ticks.getD j 0)

/-- One slot of an admission re-run (R382): codes 01h, 02h and 0Bh mark the plan, a plan that fits loses the mark, and any
other code leaves the mark as it is. -/
def State.rejudge (s : State) (k : Nat) : State :=
  let v := s.judge k
  let was := s.val (0x5080 + k) 1
  let part := (s.head k).part
  if v.code = 1 ∨ v.code = 2 ∨ v.code = 0x0B then
    let s := s.noteVerdict k 2 v
    if was = 2 then s
    else s.post { code := 0x3120, plane := 1, part := part, kind := 6,
                  detail := [(1, k), (1, v.code), (1, v.phase), (4, v.ticks.getD v.phase 0)] }
  else if v.code ≠ 0 then s
  else
    let s := s.noteVerdict k 1 v
    if was = 2 then s.post { code := 0x3122, plane := 1, part := part, kind := 6, detail := [(1, k)] } else s

/-- Admission runs again for every loaded slot (R382). -/
def State.readmit (s : State) : State := s.loaded.foldl State.rejudge s

end Sys2Proof.Machine
end

