-- ==== Sys2Proof/Machine/Flags.lean ====
section
/-! DEFINITION. The sticky flags of an accumulator row (R79, R141) and how an addition sets them. -/
namespace Sys2Proof.Machine

/-- The sticky flags of R79. -/
structure Flags4 where
  inv   : Bool := false
  ovf   : Bool := false
  unf   : Bool := false
  nanin : Bool := false
deriving DecidableEq, Repr

/-- Flags set by either of two additions. -/
def Flags4.or (a b : Flags4) : Flags4 := ⟨a.inv || b.inv, a.ovf || b.ovf, a.unf || b.unf, a.nanin || b.nanin⟩

/-- Records the flags of an addition at column `col` (R141). -/
def AccRow.note (r : AccRow) (f : Flags4) (col : Nat) : AccRow :=
  { r with inv := r.inv || f.inv, ovf := r.ovf || f.ovf, unf := r.unf || f.unf, nanin := r.nanin || f.nanin,
           lowInv := if f.inv then (if r.inv then min r.lowInv col else col) else r.lowInv,
           lowNan := if f.nanin then (if r.nanin then min r.lowNan col else col) else r.lowNan }

end Sys2Proof.Machine
end

