-- ==== Sys2Proof/Machine/Halyard.lean ====
section
/-! DEFINITION. The start of a descriptor in an engine queue, and the halyard's transfers (R107 to R116). -/
namespace Sys2Proof.Machine

/-- UTAG, TTAG, CC, FENCE and NCTL of the common header (Table 3.7, Table 2.4). -/
def descUtag (d : Nat) : Nat := field d 127 96
def descTag (d : Nat) : Nat := field d 47 36
def descCc (d : Nat) : Nat := field d 31 26
def descOp (d : Nat) : Nat := field d 15 8
def descNovf (d : Nat) : Bool := bitOf d 59
def descSubn (d : Nat) : Bool := bitOf d 58
def descF19r (d : Nat) : Bool := bitOf d 57
def descBscl (d : Nat) : Bool := bitOf d 56
def descBlk (d : Nat) : Nat := blockSize (field d 55 54)

/-- Whether an earlier descriptor of the same thread stands in a queue or in execution (FENCE, Table 3.7). -/
def Mast.earlierPending (x : Mast) (p : Posted) : Bool :=
  (x.queues.any fun q => q.2.any fun y => y.thread = p.thread && y.num < p.num) ||
  (x.running.any fun r => r.2.post.thread = p.thread && r.2.post.num < p.num)

/-- Starts the descriptor at the head of engine `e`'s queue, if it names `op`, the engine is idle and FENCE allows it. -/
def startOp (m e op : Nat) (s : State) (k : Mast → Posted → Result) : Result :=
  let x := s.mast m
  match x.queue e with
  | [] => .next s
  | p :: rest =>
    guardEvent (decide (m < 3072) && descOp p.desc == op && (x.run e).isNone && x.awake &&
      !(bitOf p.desc 19 && x.earlierPending p)) s (k (x.setQueue e rest) p)

/-- Puts a started descriptor into execution. -/
def State.began (s : State) (m e : Nat) (r : Running) : State := s.setMast m ((s.mast m).setRun e r)

/-- Ends the descriptor in execution: its counter is incremented, with ERR where it met an error (R96). -/
def State.completeRun (s : State) (m e : Nat) (r : Running) : State :=
  let x := (s.mast m).endRun e
  s.setMast m (x.signal (descCc r.post.desc) 1#32 r.err)

/-! ### Halyard descriptors (Table 3.8) -/

structure Transfer where
  fmt   : Nat
  tg    : Bool
  tr    : Bool
  rce   : Bool
  rcc   : Nat
  dmast : Nat
  ds2   : Int
  ds1   : Int
  ss2   : Int
  ss1   : Int
  n2    : Nat
  n1    : Nat
  l0    : Nat
  daddr : Nat
  saddr : Nat
deriving DecidableEq, Repr

/-- Reads the fields of a halyard descriptor. -/
def transferOf (d : Nat) : Transfer :=
  { fmt := field d 469 466, tg := bitOf d 465, tr := bitOf d 464, rce := bitOf d 462, rcc := field d 461 456,
    dmast := field d 455 448, ds2 := signedOf 32 (field d 447 416), ds1 := signedOf 32 (field d 415 384),
    ss2 := signedOf 32 (field d 383 352), ss1 := signedOf 32 (field d 351 320), n2 := field d 319 304,
    n1 := field d 303 288, l0 := field d 287 256, daddr := field d 255 192, saddr := field d 191 128 }

/-- Bytes of an element of a transposing read (TG). -/
def Transfer.granule (t : Transfer) : Nat := if t.tg then 4 else 2

/-- The host errors of R122, item 4, that a halyard descriptor can hold. -/
def Transfer.bad (t : Transfer) (d : Nat) (trAllowed : Bool) : Bool :=
  field d 511 470 != 0 || t.l0 % 8 != 0 || t.l0 > 2 ^ 20 || (t.tr && !trAllowed) || (t.tr && t.l0 % t.granule != 0)

/-- The rows of a transfer: source and destination start of each (R113). -/
def Transfer.rows (t : Transfer) : List (Int × Int) :=
  (List.range t.n2).flatMap fun (i : Nat) => (List.range t.n1).map fun (j : Nat) =>
    ((t.saddr : Int) + i * t.ss2 + j * t.ss1, (t.daddr : Int) + i * t.ds2 + j * t.ds1)

/-- Whether `[a, a + n)` lies in the scratchpad (R122, item 1). -/
def inPad (a : Int) (n : Nat) : Bool := 0 ≤ a && a + n ≤ 2 ^ 20

/-- Source rows of a transposing read and, for each, plane and row number (R114). -/
def Transfer.planeRows (t : Transfer) : List (Nat × Nat × Int) :=
  (List.range t.n2).flatMap fun (i : Nat) => (List.range t.n1).map fun (j : Nat) =>
    (i, j, (t.saddr : Int) + i * t.ss2 + j * t.ss1)

/-- Where element (j, k) of plane i goes (R114). -/
def Transfer.turned (t : Transfer) (i j k : Nat) : Int := (t.daddr : Int) + i * t.ds2 + k * t.ds1 + (j * t.granule : Nat)

/-- The scratchpad writes that a row of `n` bytes `v` makes: addresses and byte counts with values, transposed or not. -/
def Transfer.rowWrites (t : Transfer) (i j : Nat) (v : Nat) : List (Int × Nat × Nat) :=
  if t.tr then
    (List.range (t.l0 / t.granule)).map fun k =>
      (t.turned i j k, t.granule, (v >>> (8 * t.granule * k)) % 2 ^ (8 * t.granule))
  else [((t.daddr : Int) + i * t.ds2 + j * t.ds1, t.l0, v)]

/-- Whether every scratchpad byte that the transfer writes lies in the scratchpad. -/
def Transfer.padWritesOk (t : Transfer) : Bool :=
  t.planeRows.all fun (i, j, _) => (t.rowWrites i j 0).all fun (a, n, _) => inPad a n

/-- Whether every scratchpad byte that the transfer reads lies in the scratchpad. -/
def Transfer.padReadsOk (t : Transfer) : Bool := t.rows.all fun r => inPad r.1 t.l0

/-- Applies scratchpad writes. -/
def Mast.padWrites (x : Mast) (ws : List (Int × Nat × Nat)) : Mast :=
  ws.foldl (fun x (a, n, v) => x.padWrite a.toNat n v) x

/-- A 64-bit halyard address. -/
def addr64 (a : Int) : Nat := wrapTo 64 a

/-- Whether a row of an enabled region breaks R258, item 1: it does not start and end on multiples of 128 view elements. -/
def State.convertedBad (s : State) (part : Option Nat) (a n : Nat) : Bool :=
  match part with
  | none => false
  | some p =>
    let g := s.region p (field a 61 56)
    let vb := formatBits g.vf / 8
    g.len != 0 && vb != 0 && (field a 55 0 % (128 * vb) != 0 || n % (128 * vb) != 0)

/-- Whether a row in memory, or in converted space, holds a poisoned granule half that its read fetches (R199, R230). -/
def State.rowBad (s : State) (part : Option Nat) (a n : Nat) : Bool :=
  let hit := fun (b k h : Nat) => k != 0 && b < 64 * h + 64 && 64 * h < b + k
  match field a 63 62, part with
  | 0, _ => s.poisoned.any (hit a n)
  | 1, some p =>
    let g := s.region p (field a 61 56)
    let (i0, _, count) := g.row (field a 55 0) n
    let stored := fun (h : Nat) => let k := h - g.base / 64; !g.zrc || bitOf (s.load (g.map + 8 * (k / 64)) 8) (k % 64)
    s.poisoned.any fun h => (hit (g.base + elemBytes g.sf i0) (elemBytes g.sf count) h && stored h) ||
      (g.bscl && g.vf != 4 && hit (g.scale + i0 / g.blk) (count / g.blk) h)
  | _, _ => false

/-- One row read from the space that its address selects (Table 7.1). -/
def State.readRow (s : State) (r : Requester) (part : Option Nat) (compat : Bool) (a n : Nat) : Answer × State :=
  match field a 63 62 with
  | 0 => s.readMany r part a n
  | 1 => s.convertIn r part compat (field a 61 56) (field a 55 0) n
  | 2 =>
    (linePieces a n).foldl (fun (ans, s) (b, k) =>
      let (x, s) := s.gradRead r part b k
      (⟨ans.val + x.val <<< (8 * (b - a)), ans.err || x.err⟩, s)) (⟨0, false⟩, s)
  | _ => (⟨0, true⟩, s.blocked r part a n)

/-- One row written to the space that its address selects (Table 7.1). -/
def State.writeRow (s : State) (r : Requester) (part : Option Nat) (compat : Bool) (desc a n v : Nat) : Bool × State :=
  match field a 63 62 with
  | 0 => s.writeMany r part a n v
  | 1 => s.convertOut r part compat (descTag desc) (field a 61 56) (field a 55 0) n v
  | 2 =>
    (linePieces a n).foldl (fun (e, s) (b, k) =>
      let (x, s) := s.gradWrite r part (descUtag desc) b k ((v >>> (8 * (b - a))) % 2 ^ (8 * k))
      (e || x, s)) (false, s)
  | _ => (true, s.blocked r part a n)

/-- One row of values added in the space that its address selects (Table 7.1), a request for each line. -/
def State.addRow (s : State) (r : Requester) (part : Option Nat) (desc a : Nat) (xs : List Fp) : Bool × State :=
  (linePieces a (4 * xs.length)).foldl (fun ((e, s) : Bool × State) (b, k) =>
    let ys := (xs.drop ((b - a) / 4)).take (k / 4)
    let (x, s) := match field a 63 62 with
      | 0 => s.memAdd r part b ys
      | 2 => s.gradAdd r part (descUtag desc) b ys
      | _ => (true, s.blocked r part b k)
    (e || x, s)) (false, s)

/-- COPY_IN (R113 to R115): memory, converted space or a pane into the scratchpad. -/
def execCopyIn (m k : Nat) (s : State) : Result :=
  if 2 ≤ k then .next s else
  startOp m k 0x00 s fun x p =>
    let t := transferOf p.desc
    let part := s.partOfMast m
    if t.bad p.desc true then .next (s.hostError m 122 4)
    else if !t.padWritesOk then .next (s.hostError m 122 1)
    else if t.rows.any fun r => field (addr64 r.1) 63 62 = 1 && s.convertedBad part (addr64 r.1) t.l0 then
      .next (s.hostError m 258 1)
    else
      let s := s.setMast m x
      let (err, s) := t.planeRows.foldl (fun (e, s) (i, j, a) =>
        let (ans, s) := s.readRow (.stream m k (descUtag p.desc)) part p.compat (addr64 a) t.l0
        (e || ans.err, s.setMast m ((s.mast m).padWrites (t.rowWrites i j ans.val)))) (false, s)
      .next (s.began m k { post := p, err := err })

/-- COPY_OUT (R113, R115): the scratchpad into memory, converted space or a pane. -/
def execCopyOut (m k : Nat) (s : State) : Result :=
  if 2 ≤ k then .next s else
  startOp m k 0x01 s fun x p =>
    let t := transferOf p.desc
    let part := s.partOfMast m
    if t.bad p.desc false then .next (s.hostError m 122 4)
    else if !t.padReadsOk then .next (s.hostError m 122 1)
    else if t.rows.any fun r => field (addr64 r.2) 63 62 = 1 && (s.convertedBad part (addr64 r.2) t.l0 ||
        (match part with
          | some q => let g := s.region q (field (addr64 r.2) 61 56); g.len != 0 && g.vf == 4
          | none => false)) then
      .next (s.hostError m 258 1)
    else
      let s := s.setMast m x
      let (err, s) := t.rows.foldl (fun (e, s) r =>
        let (f, s) := s.writeRow (.stream m k (descUtag p.desc)) part p.compat p.desc (addr64 r.2) t.l0 ((s.mast m).padRead r.1.toNat t.l0)
        (e || f, s)) (false, s)
      .next (s.began m k { post := p, err := err })

/-- MESH (R112 to R116): the bytes leave the scratchpad toward mast DMAST of the same die. -/
def execMesh (m k : Nat) (s : State) : Result :=
  if 2 ≤ k then .next s else
  startOp m k 0x02 s fun x p =>
    let t := transferOf p.desc
    if t.bad p.desc true ∨ 192 ≤ t.dmast then .next (s.hostError m 122 4)
    else if !t.padReadsOk ∨ !t.padWritesOk then .next (s.hostError m 122 1)
    else
      let bytes := t.planeRows.flatMap fun (i, j, a) =>
        (t.rowWrites i j (x.padRead a.toNat t.l0)).flatMap fun (b, n, v) =>
          (List.range n).map fun q => (b.toNat + q, BitVec.ofNat 8 (v >>> (8 * q)))
      .next ((s.setMast m x).began m k { post := p, bytes := bytes })

/-- LOCAL (R112 to R115): scratchpad to scratchpad. -/
def execLocalCopy (m k : Nat) (s : State) : Result :=
  if 2 ≤ k then .next s else
  startOp m k 0x03 s fun x p =>
    let t := transferOf p.desc
    if t.bad p.desc true then .next (s.hostError m 122 4)
    else if !t.padReadsOk ∨ !t.padWritesOk then .next (s.hostError m 122 1)
    else
      let x := t.planeRows.foldl (fun x (i, j, a) => x.padWrites (t.rowWrites i j (x.padRead a.toNat t.l0))) x
      .next ((s.setMast m x).began m k { post := p })

/-- ADD_OUT (R113, R234): scratchpad values added into F32 elements of memory or of a pane. -/
def execAddOut (m k : Nat) (s : State) : Result :=
  if 2 ≤ k then .next s else
  startOp m k 0x04 s fun x p =>
    let t := transferOf p.desc
    let part := s.partOfMast m
    let fmtOk := t.fmt = 0 ∨ t.fmt = 2 ∨ t.fmt = 3
    let e := formatBits t.fmt / 8
    if t.bad p.desc false ∨ ¬fmtOk then .next (s.hostError m 122 4)
    else if !t.padReadsOk then .next (s.hostError m 122 1)
    else
      let s := s.setMast m x
      let (err, s) := t.rows.foldl (fun (e0, s) r =>
        let v := x.padRead r.1.toNat t.l0
        let xs := (List.range (t.l0 / e)).map fun n => let b := elemAt t.fmt v n; flushElem false t.fmt b (decodeElem t.fmt b)
        let (f, s) := s.addRow (.stream m k (descUtag p.desc)) part p.desc (addr64 r.2) xs
        (e0 || f, s)) (false, s)
      .next (s.began m k { post := p, err := err })

/-- Whether a COPY_IN read poisoned data, found by its own reads at the latest (R199). -/
def State.copyInBad (s : State) (m : Nat) (r : Running) : Bool :=
  let t := transferOf r.post.desc
  descOp r.post.desc == 0 && t.rows.any fun row => s.rowBad (s.partOfMast m) (addr64 row.1) t.l0

/-- HALYARD_COMPLETE (R115): every byte is readable or visible, so none of the stream's requests is under way; the counter
is incremented. -/
def execHalyardComplete (m k : Nat) (s : State) : Result :=
  match (s.mast m).run k with
  | none => .next s
  | some r =>
    guardEvent (decide (k < 2) && descOp r.post.desc != 2 && (s.mast m).wild.isNone && !s.awaits (streamWho m k)) s
      (.next (s.completeRun m k { r with err := r.err || s.copyInBad m r }))

/-- MESH_ARRIVAL (R115, R121): the last byte is written at the destination, which increments RCC and acknowledges; a
transfer to a mast of another partition or of none is discarded at its router. -/
def execMeshArrival (m k : Nat) (s : State) : Result :=
  match (s.mast m).run k with
  | none => .next s
  | some r =>
    if 2 ≤ k ∨ descOp r.post.desc ≠ 2 ∨ r.arrived ∨ (s.mast m).wild.isSome then .next s else
    let t := transferOf r.post.desc
    let dst := 192 * mastDie m + t.dmast
    let own := s.partOfMast m
    if own = none ∨ s.partOfMast dst ≠ own then
      let s := (s.began m k { r with arrived := true, err := true, bytes := [] }).bump (0x3800 + mastDie m) 5 1
      .next (s.post { code := 0x3820, plane := 2, part := partOr own, kind := 3, num := dst, utag := descUtag r.post.desc,
                      detail := [(2, m), (2, dst)] })
    else
      let y := s.mast dst
      if y.power ≠ .lit ∨ y.goal.isSome then .next s else
      let y := r.bytes.foldl (fun y c => { y with pad := FMap.set y.pad c.1 0#8 c.2 }) y
      let y := if t.rce then y.signal t.rcc 1#32 false else y
      let s := s.setMast dst y
      .next (s.began m k { r with arrived := true, bytes := [] })

/-- MESH_ACK (R115): on the acknowledgement the sender's counter is incremented. -/
def execMeshAck (m k : Nat) (s : State) : Result :=
  match (s.mast m).run k with
  | none => .next s
  | some r => guardEvent (decide (k < 2) && r.arrived && (s.mast m).wild.isNone) s (.next (s.completeRun m k r))

end Sys2Proof.Machine
end

