-- ==== Sys2Proof/Machine/Mainsail.lean ====
section
/-! DEFINITION. The mainsail: exact-group sums, the accumulator, row flags, completion records, and the operations
MATMUL, ACLR, ADAPT and SEND (R69 to R80, R124 to R157). -/
namespace Sys2Proof.Machine

/-! ### The exact-group sum (R69 to R76) -/

/-- A value truncated toward zero to a multiple of 2^e, in those units (step 4 of R69). -/
def Dyad.truncUnits (d : Dyad) (e : Int) : Int :=
  let m : Nat := if d.exp ≥ e then d.mag <<< (d.exp - e).toNat else d.mag >>> (e - d.exp).toNat
  if d.neg then -(m : Int) else m

/-- The group sum of operand pairs with the window of `w` bits below the leading one: 55 natively, 39 in compatibility
mode (R69, R74 to R76, Table 2.6). -/
def groupSum (w : Int) (ps : List (Fp × Fp)) : Fp × Flags4 :=
  if ps.any fun p => p.1.isNan || p.2.isNan then (.nan, { nanin := true })
  else
    let prods := ps.map fun p => p.1.mulX p.2
    let pos := prods.any fun x => x == .inf false
    let neg := prods.any fun x => x == .inf true
    if (prods.any Fp.isNan) || (pos && neg) then (.nan, { inv := true })
    else if pos then (.inf false, {})
    else if neg then (.inf true, {})
    else
      let ds := prods.filterMap fun x => match x with | .fin d => if d.isZero then none else some d | _ => none
      match ds with
      | [] => (fpZero, {})
      | d0 :: _ =>
        let top := ds.foldl (fun m d => max m d.lead) d0.lead
        let e := top - w
        let sum := ds.foldl (fun t d => t + d.truncUnits e) 0
        let n := f32Format.narrow false false false (.fin (Dyad.ofUnits sum e false))
        (f32Format.decode n.bits, { ovf := n.note == .overflow, unf := n.note == .underflow })

/-- Adds a group sum into an F32 accumulator value (step 7 of R69, R74 to R76). -/
def accumulate (acc g : Fp) : Fp × Flags4 :=
  if acc.isNan || g.isNan then (.nan, {})
  else
    let x := acc.addX g
    if x.isNan then (.nan, { inv := true })
    else
      let n := f32Format.narrow false false false x
      (f32Format.decode n.bits, { ovf := n.note == .overflow, unf := n.note == .underflow })

/-- Adds an exact integer group sum into an I32 element, saturating (R73). -/
def accumulateInt (acc : Word32) (g : Int) : Word32 × Flags4 :=
  let v := acc.toInt + g
  if v > 2147483647 then (0x7FFFFFFF#32, { ovf := true })
  else if v < -2147483648 then (0x80000000#32, { ovf := true })
  else (BitVec.ofInt 32 v, {})

/-! ### Operands (R126, R131, R74) -/

/-- Bytes of a row of 64 elements (Table 4.1). -/
def rowBytes (fmt : Nat) : Nat := if fmt = 1 then 256 else 64 * formatBits fmt / 8

/-- Element `k` of a row as the array takes it, with whether its conversion to F19 overflowed: subnormals are zero, a
block scale of FFh makes it NaN. -/
def sailElem (fmt : Nat) (f19r : Bool) (row k : Nat) (scale : Option Nat) : Fp × Bool :=
  let bits := elemAt fmt row k
  let (v, big) :=
    if fmt = 1 then
      let (b, o) := toF19 f19r (elemAt 0 row k)
      (f19Format.decode b, o)
    else if subnormalIn fmt bits then
      ((match decodeElem fmt bits with | .fin d => .fin (Dyad.zero d.neg) | x => x), false)
    else (decodeElem fmt bits, false)
  match scale with
  | none => (v, big)
  | some 255 => (.nan, big)
  | some sc => (v.scale ((sc : Int) - 127), big)

/-- The 64 elements of a row word with its scale bytes, one for each `blk` elements. -/
def sailRow (fmt : Nat) (f19r : Bool) (row : Nat) (scales : Option (Nat × Nat)) : List (Fp × Bool) :=
  (List.range 64).map fun k =>
    sailElem fmt f19r row k (scales.map fun (sc, blk) => (sc >>> (8 * (k / blk))) % 256)

/-- The fields of a mainsail descriptor (Table 4.2). -/
structure Sail where
  fin   : Bool
  um    : Nat
  urb   : Nat
  rank  : Nat
  brs   : Nat
  ars   : Nat
  baddr : Nat
  aaddr : Nat
  wsrs  : Nat
  xsrs  : Nat
  wsa   : Nat
  xsa   : Nat
  sheet : Bool
  accm  : Nat
  wf    : Nat
  xf    : Nat
  gn    : Nat       -- groups
  mr    : Nat       -- rows
  arb   : Nat
  wgs   : Nat
  wrs   : Nat
  xgs   : Nat
  xrs   : Nat
  waddr : Nat
  xaddr : Nat
  bscl  : Bool
  blk   : Nat
  f19r  : Bool
  compat : Bool
deriving DecidableEq, Repr

/-- Reads the fields of a mainsail descriptor. -/
def sailOf (p : Posted) : Sail :=
  let d := p.desc
  { fin := bitOf d 484, um := field d 483 482, urb := field d 481 472, rank := field d 471 464 + 1, brs := field d 463 448,
    ars := field d 447 432, baddr := field d 427 408, aaddr := field d 403 384, wsrs := field d 383 368,
    xsrs := field d 367 352, wsa := field d 339 320, xsa := field d 319 300, sheet := bitOf d 298,
    accm := field d 297 296, wf := field d 295 292, xf := field d 291 288, gn := field d 281 272 + 1,
    mr := field d 265 256 + 1, arb := field d 249 240, wgs := field d 239 224, wrs := field d 223 208,
    xgs := field d 207 192, xrs := field d 191 176, waddr := field d 171 152, xaddr := field d 147 128,
    bscl := descBscl d, blk := descBlk d, f19r := descF19r d && !p.compat, compat := p.compat }

/-- The reserved fields of Table 4.2 that are not zero (R122, item 4). -/
def sailReserved (d : Nat) : Bool :=
  field d 511 485 != 0 || field d 431 428 != 0 || field d 407 404 != 0 || field d 351 340 != 0 || bitOf d 299 ||
  field d 287 282 != 0 || field d 271 266 != 0 || field d 255 250 != 0 || field d 175 172 != 0 || field d 151 148 != 0

/-- Whether block scales act on a format (Table 2.4). -/
def scaledFormat (fmt : Nat) : Bool := fmt = 4 || fmt = 5 || fmt = 6

/-- Whether a pairing stands in Table 2.5 (R126: code 6h never does). -/
def pairingOk (xf wf : Nat) : Bool :=
  (xf = 1 && wf = 1) || (xf = 7 && wf = 7) || ([2, 3, 4, 5].contains xf && [2, 3, 4, 5].contains wf)

/-- I8 pairings sum in I32 rows (R139). -/
def Sail.isInt (q : Sail) : Bool := q.xf = 7

/-- Row `i` of streamed group `g`, with its scale bytes (R131). -/
def Sail.streamRow (q : Sail) (x : Mast) (g i : Nat) : Nat × Option (Nat × Nat) :=
  (x.padRead (q.xaddr + i * q.xrs + g * q.xgs) (rowBytes q.xf),
   if q.bscl && scaledFormat q.xf then
     some (x.padRead (q.xsa + i * q.xsrs + g * 64 / q.blk) (max (64 / q.blk) 1), q.blk)
   else none)

/-- Row `j` of stationary block `g`, with its scale bytes (R131). -/
def Sail.blockRow (q : Sail) (x : Mast) (g j : Nat) : Nat × Option (Nat × Nat) :=
  (x.padRead (q.waddr + g * q.wgs + j * q.wrs) (rowBytes q.wf),
   if q.bscl && scaledFormat q.wf then
     some (x.padRead (q.wsa + j * q.wsrs + g * 64 / q.blk) (max (64 / q.blk) 1), q.blk)
   else none)

/-- Whether every row and block lies in the scratchpad and is aligned (R131; R157, item 1). Scale bytes are no part of the
item: their addresses use bits [19:0] (R131). -/
def Sail.operandsOk (q : Sail) : Bool :=
  let xb := rowBytes q.xf
  let wb := rowBytes q.wf
  q.xaddr % xb = 0 && q.xrs % xb = 0 && q.xgs % xb = 0 && q.waddr % wb = 0 && q.wrs % wb = 0 && q.wgs % wb = 0 &&
  q.xaddr + (q.mr - 1) * q.xrs + (q.gn - 1) * q.xgs + xb ≤ 2 ^ 20 &&
  q.waddr + 63 * q.wrs + (q.gn - 1) * q.wgs + wb ≤ 2 ^ 20

/-! ### The accumulator (R139 to R141) -/

def Mast.accAt (x : Mast) (row col : Nat) : Word32 := FMap.get x.acc (64 * row + col) 0#32
def Mast.setAcc (x : Mast) (row col : Nat) (v : Word32) : Mast := { x with acc := FMap.set x.acc (64 * row + col) 0#32 v }
def Mast.rowInfo (x : Mast) (row : Nat) : AccRow := FMap.get x.rows row {}
def Mast.setRow (x : Mast) (row : Nat) (r : AccRow) : Mast := { x with rows := FMap.set x.rows row {} r }

/-- Puts one group sum into an element: it replaces the element where `start`, and adds otherwise (R140). -/
def Mast.intoElem (x : Mast) (compat start : Bool) (row col : Nat) (g : Fp) (f : Flags4) : Mast :=
  let (v, f2) := if start then (g, {}) else accumulate (f32 (x.accAt row col)) g
  (x.setAcc row col (toF32Bits compat v)).setRow row ((x.rowInfo row).note (f.or f2) col)

/-- The integer form of `intoElem`. -/
def Mast.intoIntElem (x : Mast) (start : Bool) (row col : Nat) (g : Int) : Mast :=
  let (v, f) := if start then (BitVec.ofInt 32 g, {}) else accumulateInt (x.accAt row col) g
  (x.setAcc row col v).setRow row ((x.rowInfo row).note f col)

/-- A row is started: its flags are cleared and it takes the type of the descriptor (R139, R140). -/
def Mast.startRow (x : Mast) (row : Nat) (int : Bool) : Mast := x.setRow row { int := int }

/-- The exact sum of a group of integer products (R73). -/
def intGroup (ps : List (Fp × Fp)) : Int :=
  ps.foldl (fun t p => match p.1, p.2 with
    | .fin u, .fin v => t + (u.mul v).toUnits 0
    | _, _ => t) 0

/-- One streamed row against one loaded block: one group of 64, or two of 32 in compatibility mode (R125, R128). `start`
replaces. -/
def Mast.streamInto (x : Mast) (int compat start : Bool) (row : Nat) (a : List (Fp × Bool)) (bs : List (List (Fp × Bool))) :
    Mast :=
  let x := if start then x.startRow row int else x
  let rowBig := a.any (·.2)
  ((List.range 64).zip bs).foldl (fun x (col, b) =>
    let ps := a.zip b |>.map fun (u, v) => (u.1, v.1)
    let big : Flags4 := { ovf := rowBig || b.any (·.2) }
    if int then
      if compat then (x.intoIntElem start row col (intGroup (ps.take 32))).intoIntElem false row col (intGroup (ps.drop 32))
      else x.intoIntElem start row col (intGroup ps)
    else if compat then
      let (g1, f1) := groupSum 39 (ps.take 32)
      let (g2, f2) := groupSum 39 (ps.drop 32)
      (x.intoElem true start row col g1 (f1.or big)).intoElem true false row col g2 f2
    else
      let (g, f) := groupSum 55 ps
      x.intoElem false start row col g (f.or big)) x

/-- Loads a block into the free plane (R124, R134). -/
def Mast.loadPlane (x : Mast) (rows : List Nat) : Mast :=
  { x with planes := FMap.set x.planes x.plane [] rows, plane := 1 - x.plane }

/-- The accumulator rows `[base, base + n)` modulo 1,024. -/
def accRows (base n : Nat) : List Nat := (List.range n).map fun i => (base + i) % 1024

/-- Streams rows 0 to M − 1 of group `g` against block `g` into the output rows (Table 4.3). -/
def Mast.matmulGroup (x : Mast) (q : Sail) (g : Nat) : Mast :=
  let blocks := (List.range 64).map (q.blockRow x g)
  let bs := blocks.map fun (w, sc) => sailRow q.wf q.f19r w sc
  forRange q.mr (x.loadPlane (blocks.map (·.1))) fun i x =>
    let (w, sc) := q.streamRow x g i
    x.streamInto q.isInt q.compat (q.accm = 1 && g = 0) ((q.arb + i) % 1024) (sailRow q.xf q.f19r w sc) bs

/-- Rank blocks of an ADAPT (R150). -/
def Sail.rankBlocks (q : Sail) : Nat := (q.rank + 63) / 64

/-- A stationary block of 16-bit elements with row stride `rs`; rows from `rows` on and elements from `cols` on are zero
and are not read (R150, R152). -/
def adaptBlock (x : Mast) (fmt base rs rows cols : Nat) : List Nat :=
  (List.range 64).map fun j => if rows ≤ j then 0 else x.padRead (base + j * rs) 128 % 2 ^ (formatBits fmt * min cols 64)

/-- Streams group `g` against intermediate block (g, q) into the intermediate rows (phase 1 of R150). -/
def Mast.adaptGroup (x : Mast) (q : Sail) (g b : Nat) : Mast :=
  let words := adaptBlock x q.wf (q.aaddr + (g * q.rankBlocks + b) * 64 * q.ars) q.ars (q.rank - 64 * b) 64
  let bs := words.map fun w => sailRow q.wf q.f19r w none
  forRange q.mr (x.loadPlane words) fun i x =>
    let (w, sc) := q.streamRow x g i
    x.streamInto false q.compat (q.um = 1 && g = 0) ((q.urb + b * q.mr + i) % 1024) (sailRow q.xf q.f19r w sc) bs

/-- The intermediate row narrowed to the streamed format; an overflow or underflow is noted in the output row (R151). -/
def Mast.intermediate (x : Mast) (q : Sail) (row cols : Nat) : List (Fp × Bool) × Flags4 :=
  let ws := (List.range 64).map fun k =>
    if cols ≤ k then (⟨0, .plain⟩ : Narrowed) else narrowElem q.xf false false q.compat (f32 (x.accAt row k))
  (ws.map fun w => (decodeElem q.xf w.bits, false),
   { ovf := ws.any fun w => w.note == .overflow, unf := ws.any fun w => w.note == .underflow })

/-- Streams the intermediate rows of rank block `b` against output block `b` into the output rows (phase 3 of R150). -/
def Mast.adaptOutput (x : Mast) (q : Sail) (b : Nat) : Mast :=
  let words := adaptBlock x q.wf (q.baddr + b * 64 * q.brs) q.brs 64 (q.rank - 64 * b)
  let bs := words.map fun w => sailRow q.wf q.f19r w none
  forRange q.mr (x.loadPlane words) fun i x =>
    let (a, f) := x.intermediate q ((q.urb + b * q.mr + i) % 1024) (q.rank - 64 * b)
    let row := (q.arb + i) % 1024
    let x := x.setRow row ((x.rowInfo row).note f 0)
    x.streamInto false q.compat false row a bs

/-- The three phases of ADAPT (R150). -/
def Mast.adaptRun (x : Mast) (q : Sail) : Mast :=
  let x := forRange q.gn x fun g x =>
    let x := x.matmulGroup q g
    if q.um = 0 then x else forRange q.rankBlocks x fun b x => x.adaptGroup q g b
  if q.fin then forRange q.rankBlocks x fun b x => x.adaptOutput q b else x

/-! ### Holds and completion records (R143 to R146) -/

def recArb (r : Nat) : Nat := field r 83 74
def recRows (r : Nat) : Nat := field r 73 64 + 1
def recTag (r : Nat) : Nat := field r 95 84
def recInt (r : Nat) : Bool := bitOf r 63

/-- Whether a sheet entry holds an accumulator row (R143). -/
def recHolds (r row : Nat) : Bool := (row + 1024 - recArb r) % 1024 < recRows r

/-- Whether any of these rows is held. -/
def Mast.anyHeld (x : Mast) (rows : List Nat) : Bool := rows.any fun row => x.sheet.any fun r => recHolds r row

/-- The lowest row, relative to ARB, with a property, and the column that `low` gives for it (R146); zeros where no row has it,
a choice of the model's: the fields are then not valid (log 55). -/
def lowestFlag (rows : List AccRow) (has : AccRow → Bool) (low : AccRow → Nat) : Nat × Nat :=
  match (rows.zip (List.range rows.length)).find? fun e => has e.1 with
  | some (r, i) => (i, low r)
  | none => (0, 0)

/-- The completion record of a tile (Table 4.6), its SEQ left 0 until it is posted. -/
def Mast.tileRecord (x : Mast) (p : Posted) (q : Sail) (int : Bool) : Nat :=
  let rows := (accRows q.arb q.mr).map x.rowInfo
  let b := fun (v : Bool) (i : Nat) => if v then 2 ^ i else 0
  let (invR, invC) := lowestFlag rows (·.inv) (·.lowInv)
  let (nanR, nanC) := lowestFlag rows (·.nanin) (·.lowNan)
  descUtag p.desc * 2 ^ 96 + descTag p.desc * 2 ^ 84 + q.arb * 2 ^ 74 + (q.mr - 1) * 2 ^ 64 + b int 63 + b p.compat 62 +
    b (rows.any (·.inv)) 59 + b (rows.any (·.ovf)) 58 + b (rows.any (·.unf)) 57 + b (rows.any (·.nanin)) 56 +
    invR * 2 ^ 42 + invC * 2 ^ 36 + nanR * 2 ^ 26 + nanC * 2 ^ 20 + descCc p.desc * 2 ^ 14

/-- Starts a mainsail descriptor: it waits for held rows and for a sheet slot (R143, R144), runs `body` on the mast, and
stands in execution with its record. `check` names the host error that it holds, as rule and item. -/
def startSail (m op : Nat) (s : State) (check : Sail → Mast → Option (Nat × Nat))
    (rowsOf : Sail → List Nat) (body : Sail → Mast → Mast) (int : Sail → Mast → Bool) (steps : Sail → Nat) : Result :=
  startOp m 2 op s fun x p =>
    let q := sailOf p
    let sheet := q.sheet || op = 3
    if sailReserved p.desc then .next (s.hostError m 122 4)
    else if x.anyHeld (rowsOf q) ∨ (sheet ∧ 16 ≤ x.sheet.length) then .next s
    else match check q x with
    | some f => .next (s.hostError m f.1 f.2)
    | none =>
      let y := body q x
      let record := if sheet then some (y.tileRecord p q (int q y)) else none
      let s := (s.setMast m y).bump (0x3840 + mastDie m) 1 (steps q)
      .next (s.began m 2 { post := p, record := record })

/-- The host errors of a MATMUL or of phase 1 of an ADAPT (R157, items 1 to 3). -/
def matmulCheck (q : Sail) (x : Mast) : Option (Nat × Nat) :=
  if !pairingOk q.xf q.wf then some (157, 2)
  else if 2 ≤ q.accm then some (157, 3)
  else if !q.operandsOk then some (157, 1)
  else if q.accm = 0 ∧ (accRows q.arb q.mr).any fun r => (x.rowInfo r).int != q.isInt then some (157, 3)
  else none

/-- MATMUL (R130 to R141). -/
def execMatmul (m : Nat) (s : State) : Result :=
  startSail m 0x00 s matmulCheck (fun q => accRows q.arb q.mr)
    (fun q x => forRange q.gn x fun g x => x.matmulGroup q g) (fun q _ => q.isInt) (fun q => q.gn * q.mr)

/-- Zeroes an accumulator row, clears its flags and makes it F32 (ACLR). -/
def Mast.clearRow (x : Mast) (row : Nat) : Mast :=
  { x with acc := FMap.clearRange x.acc (64 * row) (64 * row + 64), rows := FMap.erase x.rows row }

/-- ACLR (R130). -/
def execAclr (m : Nat) (s : State) : Result :=
  startSail m 0x01 s (fun _ _ => none) (fun q => accRows q.arb q.mr)
    (fun q x => (accRows q.arb q.mr).foldl Mast.clearRow x) (fun _ _ => false) (fun _ => 0)

/-- The intermediate rows of an ADAPT. -/
def Sail.interRows (q : Sail) : List Nat := accRows q.urb (q.rankBlocks * q.mr)

/-- The host errors of an ADAPT (R157). -/
def adaptCheck (q : Sail) (x : Mast) : Option (Nat × Nat) :=
  let sixteen := (q.xf = 2 ∨ q.xf = 3) ∧ (q.wf = 2 ∨ q.wf = 3)
  let last := q.rank - 64 * (q.rankBlocks - 1) - 1
  let inside := q.aaddr + (q.gn * q.rankBlocks - 1) * 64 * q.ars + last * q.ars + 128 ≤ 2 ^ 20
  let insideB := q.baddr + (q.rankBlocks - 1) * 64 * q.brs + 63 * q.brs + 128 ≤ 2 ^ 20
  if ¬sixteen ∨ q.bscl then some (157, 2)
  else if q.um = 3 then some (157, 3)
  else if (q.um ≠ 0 ∧ (q.aaddr % 128 ≠ 0 ∨ q.ars % 128 ≠ 0 ∨ ¬inside)) ∨
      (q.fin ∧ (q.baddr % 128 ≠ 0 ∨ q.brs % 128 ≠ 0 ∨ ¬insideB)) then some (157, 1)
  else if (q.um ≠ 0 ∨ q.fin) ∧ q.interRows.any fun r => (accRows q.arb q.mr).contains r then some (157, 4)
  else if (q.um = 2 ∨ (q.um = 0 ∧ q.fin)) ∧ q.interRows.any fun r => (x.rowInfo r).int then some (157, 3)
  else matmulCheck q x

/-- ADAPT (R150 to R153). -/
def execAdapt (m : Nat) (s : State) : Result :=
  startSail m 0x02 s adaptCheck
    (fun q => accRows q.arb q.mr ++ (if q.um ≠ 0 ∨ q.fin then q.interRows else []))
    (fun q x => x.adaptRun q) (fun _ _ => false)
    (fun q => q.gn * q.mr * (1 + if q.um = 0 then 0 else q.rankBlocks) + if q.fin then q.mr * q.rankBlocks else 0)

/-- SEND (R130, R136): posts a record of rows that it does not compute. Its TYPE is that of row ARB, a choice of the model's
where the rows differ (log 55). -/
def execSend (m : Nat) (s : State) : Result :=
  startSail m 0x03 s (fun _ _ => none) (fun q => accRows q.arb q.mr) (fun _ x => x)
    (fun q x => (x.rowInfo q.arb).int) (fun _ => 0)

/-- MAINSAIL_COMPLETE (R136, R144, R145): the record is posted with its SEQ and the counter incremented. -/
def execMainsailComplete (m : Nat) (s : State) : Result :=
  match (s.mast m).run 2 with
  | none => .next s
  | some r =>
    guardEvent (s.mast m).wild.isNone s <|
    let x := s.mast m
    let c := 0x3840 + mastDie m
    let s := s.bump c 6 1
    let s := match r.record with
      | none => s
      | some w =>
        let s := s.setMast m { x with sheet := x.sheet ++ [w + x.seq % 256], seq := (x.seq + 1) % 256 }
        let s := if bitOf w 59 then s.bump c 7 1 else s
        let s := if bitOf w 58 then s.bump c 8 1 else s
        if bitOf w 56 then s.bump c 9 1 else s
    .next (s.completeRun m 2 r)

end Sys2Proof.Machine
end

