-- ==== Sys2Proof/Machine/Jib.lean ====
section
/-! DEFINITION. The jib: operands, operations, reductions, statistics, block-scaled results, summaries, and the sheet
queue that it consumes (R158 to R185). -/
namespace Sys2Proof.Machine

/-! ### The descriptor (Tables 5.1 and 5.2) -/

/-- One operand: kind (0 scratchpad, 1 operand cache, 2 sheet, 3 constant), format, base, strides of dimensions 1 to 4,
broadcast along dimension 0, scale-array base, constant. -/
structure JibOperand where
  kind    : Nat
  fmt     : Nat
  base    : Nat
  strides : List Int
  bcast   : Bool
  sbase   : Nat
  const   : Nat
  pair    : Bool := false       -- NORM: the element is a pair
deriving DecidableEq, Repr

structure JibDesc where
  op    : Nat
  ns    : List Nat      -- extents of dimensions 0 to 4
  a     : JibOperand
  b     : JibOperand
  c     : JibOperand
  d     : JibOperand
  rd    : Nat
  shn   : Nat           -- sheet entries
  act   : Nat
  raddr : Nat
  ssrc  : Bool
  sen   : Bool
  pred  : Nat
  sreg  : Nat
  pth   : Nat
  rwr   : Bool
  tsrc  : Bool
  rel   : Bool
  bscl  : Bool
  blk   : Nat
  novf  : Bool
  keep  : Bool          -- subnormals are kept
  compat : Bool
deriving DecidableEq, Repr

/-- Four 24-bit strides, dimension 4 highest, as a list from dimension 1 up. -/
def stridesOf (l lo : Nat) : List Int := (List.range 4).map fun k => signedOf 24 (l >>> (lo + 24 * k))

/-- Reads the fields of a jib descriptor and its layout record. -/
def jibOf (p : Posted) : JibDesc :=
  let d := p.desc
  let l := p.layout
  let norm := descOp d = 0x28
  { op := descOp d
    ns := [field d 243 228 + 1, field d 255 244 + 1, field d 267 256 + 1, field d 279 268 + 1, field d 291 280 + 1]
    a := { kind := field d 309 308, fmt := field d 299 296, base := field d 187 168, strides := stridesOf l 128,
           bcast := bitOf d 314, sbase := field l 243 224, const := field d 351 320 }
    b := { kind := field d 311 310, fmt := field d 303 300, base := field d 207 188, strides := stridesOf l 256,
           bcast := bitOf d 315, sbase := field l 371 352, const := field d 383 352, pair := norm }
    c := { kind := field d 313 312, fmt := field d 307 304, base := field d 227 208, strides := stridesOf l 384,
           bcast := bitOf d 316, sbase := field l 499 480, const := 0, pair := norm }
    d := { kind := field d 454 454, fmt := field d 295 292, base := field d 167 148, strides := stridesOf l 0,
           bcast := false, sbase := field l 115 96, const := 0 }
    rd := field d 453 452, shn := field d 451 450 + 1, act := field d 449 446, raddr := field d 445 426,
    ssrc := bitOf d 425, sen := bitOf d 424, pred := field d 423 421, sreg := field d 420 416, pth := field d 415 384,
    rwr := bitOf d 319, tsrc := bitOf d 318, rel := bitOf d 317, bscl := descBscl d, blk := descBlk d,
    novf := descNovf d, keep := descSubn d && !p.compat, compat := p.compat }

/-- The reserved bits of Tables 5.1 and 5.2 that are not zero (R122, item 4). -/
def jibReserved (p : Posted) : Bool :=
  field p.desc 511 455 != 0 || field p.layout 511 500 != 0 || field p.layout 383 372 != 0 ||
  field p.layout 255 244 != 0 || field p.layout 127 116 != 0

/-- Σ iₖ × Sₖ over dimensions 1 to 4 (R162). -/
def strideSum : List Int → List Nat → Int
  | s :: ss, i :: is => s * i + strideSum ss is
  | _, _ => 0

/-- Where element (i0, is) of an operand lies: bit address from the operand's memory start (R162). -/
def JibOperand.bitAddr (o : JibOperand) (i0 : Nat) (is : List Nat) : Int :=
  let e : Nat := formatBits o.fmt * (if o.pair then 2 else 1)
  8 * ((o.base : Int) + strideSum o.strides is) + (if o.bcast then 0 else (i0 * e : Nat))

/-- Bytes of the memory an operand lies in. -/
def JibOperand.limit (o : JibOperand) : Nat := if o.kind = 0 then 2 ^ 20 else 2 ^ 16

/-- Whether an operand's element lies inside its memory (R185, item 3). -/
def JibOperand.inside (o : JibOperand) (i0 : Nat) (is : List Nat) : Bool :=
  let a := o.bitAddr i0 is
  0 ≤ a && a + (formatBits o.fmt * (if o.pair then 2 else 1) : Nat) ≤ 8 * (o.limit : Int)

/-- `n` bits at a bit address of the scratchpad or of the operand cache. -/
def Mast.jibBits (x : Mast) (kind a n : Nat) : Nat :=
  let bytes := (a % 8 + n + 7) / 8
  let v := if kind = 0 then x.padRead (a / 8) bytes else FMap.readLE x.cache (a / 8) bytes
  (v >>> (a % 8)) % 2 ^ n

/-- The accumulator row that a sheet source reads (R162). -/
def JibOperand.sheetRow (o : JibOperand) (is : List Nat) : Nat :=
  (((o.base % 1024 : Nat) : Int) + strideSum o.strides is).emod 1024 |>.toNat

/-- The column that it reads; a pair of NORM takes two (R162). -/
def JibOperand.sheetCol (o : JibOperand) (i0 part : Nat) : Nat :=
  field o.base 15 10 + (if o.bcast then 0 else if o.pair then 2 * i0 else i0) + part

/-- The first entry among `rs` that holds a row. -/
def entryOf (rs : List Nat) (row : Nat) : Option Nat := rs.find? fun r => recHolds r row

/-- A value, with how many overflows and underflows its scaling and the operations on the way to it made (R68, R163). -/
structure Val where
  x      : Fp
  overs  : Nat := 0
  unders : Nat := 0
deriving DecidableEq, Repr

/-- An element widened to F32 (R58, R68, R163). -/
def widenElem (keep : Bool) (fmt bits : Nat) (scale : Option Nat) : Val :=
  let x := flushElem keep fmt bits (decodeElem fmt bits)
  match scale with
  | some s =>
    let n := applyScale s x
    ⟨f32Format.decode n.bits, if n.note == .overflow then 1 else 0, if n.note == .underflow then 1 else 0⟩
  | none => { x := if fmt = 8 then roundF32 true x else x }

/-- The element offset from the operand's base, where its block scale is looked up (R170). -/
def JibOperand.elemOffset (o : JibOperand) (i0 : Nat) (is : List Nat) : Int :=
  (o.bitAddr i0 is - 8 * (o.base : Int)) / (formatBits o.fmt : Int)

/-- Where the scale byte of element (i0, is) lies (R170): in the memory of the operand itself, a choice of the model's
(log 55). -/
def JibOperand.scaleAt (o : JibOperand) (blk i0 : Nat) (is : List Nat) : Int :=
  (o.sbase : Int) + o.elemOffset i0 is / (blk : Int)

/-- Value `part` (0, or 1 of a pair) of element (i0, is) of a source (R158, R162, R163). -/
def Mast.source (x : Mast) (q : JibDesc) (entries : List Nat) (o : JibOperand) (i0 : Nat) (is : List Nat) (part : Nat) : Val :=
  match o.kind with
  | 3 => { x := flushElem q.keep 0 o.const (f32Format.decode o.const) }
  | 2 =>
    let row := o.sheetRow is
    let w := (x.accAt row (o.sheetCol i0 part)).toNat
    match entryOf entries row with
    | some r => widenElem q.keep (if recInt r then 8 else 0) w none
    | none => { x := .nan }
  | k =>
    let n := formatBits o.fmt
    let a := (o.bitAddr i0 is).toNat + part * n
    let bits := x.jibBits k a n
    let scale := if q.bscl && scaledFormat o.fmt then some (x.jibBits k (8 * (o.scaleAt q.blk i0 is).toNat) 8) else none
    widenElem q.keep o.fmt bits scale

/-! ### Shapes: beats in order (R159, R162) -/

/-- Every index of dimensions 1 to 4, dimension 1 fastest. -/
def outerIndexes (ns : List Nat) : List (List Nat) :=
  let n := fun k => ns.getD k 1
  (List.range (n 4)).flatMap fun i4 => (List.range (n 3)).flatMap fun i3 => (List.range (n 2)).flatMap fun i2 =>
    (List.range (n 1)).map fun i1 => [i1, i2, i3, i4]

/-- The beats of a row of `n` elements: runs of up to 32. -/
def rowBeats (n : Nat) : List (List Nat) := chunksOf 32 (n / 32 + 1) (List.range n)

/-- Every beat of a shape, in order: dimension 0 indexes, and the outer index. -/
def allBeats (ns : List Nat) : List (List Nat × List Nat) :=
  (outerIndexes ns).flatMap fun is => (rowBeats (ns.getD 0 1)).map fun b => (b, is)

/-! ### Operations on values (R163) -/

/-- The overflows and underflows on the way to the values `vs` are also on the way to `v`. -/
def Val.from (v : Val) (vs : List Val) : Val :=
  { v with overs := vs.foldl (fun n y => n + y.overs) v.overs, unders := vs.foldl (fun n y => n + y.unders) v.unders }

/-- A value made by no operation that is counted. -/
def Val.bare (v : Val) : Val := { x := v.x }

/-- Rounds an exact result to F32, keeping or flushing subnormals; a result that becomes zero is an underflow. -/
def roundVal (keep : Bool) (x : Fp) : Val :=
  let n := f32Format.narrow false keep false x
  { x := f32Format.decode n.bits, unders := if n.note == .underflow then 1 else 0 }

def Val.add (keep : Bool) (a b : Val) : Val := (roundVal keep (a.x.addX b.x)).from [a, b]
def Val.mul (keep : Bool) (a b : Val) : Val := (roundVal keep (a.x.mulX b.x)).from [a, b]
def Val.neg (a : Val) : Val := { a with x := a.x.negate }

/-- A function value: it underflowed where it is zero though its exact value is not. -/
def fnVal (y : Fp) (nonzero : Bool) : Val := { x := y, unders := if y.isZero && nonzero then 1 else 0 }

/-- The gradients b × f′(a): zero only where b is, or f′(a) vanishes at 0. -/
def gradVal (y a b : Fp) : Val := fnVal y (a.isFinite && b.isFinite && !b.isZero)

/-- Activation (Table 5.3). -/
def activate (keep : Bool) (act : Nat) (v : Val) : Val :=
  let nz := v.x.isFinite && !v.x.isZero
  match act with
    | 1 => ({ x := fnRelu v.x } : Val).from [v]
    | 2 => (fnVal (fnGelu keep v.x) nz).from [v]
    | 3 => (fnVal (fnSilu keep v.x) nz).from [v]
    | 4 => (fnVal (fnSigmoid keep v.x) v.x.isFinite).from [v]
    | 5 => (fnVal (fnTanh keep v.x) nz).from [v]
    | _ => v

/-- The pointwise operations of Table 5.4; `vb2` and `vc2` are the second values of NORM's pairs. -/
def pointwise (keep : Bool) (op : Nat) (va vb vb2 vc vc2 : Val) : Val :=
  let a := va.x
  let b := vb.x
  match op with
  | 0x00 => va
  | 0x01 => va.add keep vb
  | 0x02 => va.add keep vb.neg
  | 0x03 => va.mul keep vb
  | 0x04 => (roundVal keep ((a.mulX b).addX vc.x)).from [va, vb, vc]
  | 0x05 => ({ x := if a.isNan || b.isNan then .nan else a.minimum b } : Val).from [va, vb]
  | 0x06 => ({ x := if a.isNan || b.isNan then .nan else a.maximum b } : Val).from [va, vb]
  | 0x07 => (va.mul keep vb).mul keep vc
  | 0x08 => (fnVal (fnExp keep a) a.isFinite).from [va]
  | 0x09 => (fnVal (fnLog keep a) false).from [va]
  | 0x0A => (fnVal (f32Div keep fpOne a) a.isFinite).from [va]
  | 0x0B => (fnVal (f32Rsqrt keep a) false).from [va]
  | 0x0C => (fnVal (f32Sqrt keep a) false).from [va]
  | 0x10 => ({ x := fnReluGrad a b } : Val).from [va, vb]
  | 0x11 => (gradVal (fnGeluGrad keep a b) a b).from [va, vb]
  | 0x12 => (gradVal (fnSiluGrad keep a b) a b).from [va, vb]
  | 0x13 => (gradVal (fnSigmoidGrad keep a b) a b).from [va, vb]
  | _ =>
    let e := (va.add keep vb.neg).mul keep vb2
    (roundVal keep ((e.x.mulX vc.x).addX vc2.x)).from [e, vc, vc2]

/-! ### Reductions (R168, R169) -/

/-- One level of the lane tree: neighbours are combined, an absent lane's partner passes up. -/
def treeLevel {α : Type} (f : α → α → α) : List (Option α) → List (Option α)
  | some a :: some b :: r => some (f a b) :: treeLevel f r
  | some a :: none :: r => some a :: treeLevel f r
  | none :: b :: r => b :: treeLevel f r
  | [x] => [x]
  | [] => []

/-- The five levels over 32 lanes. -/
def laneTree {α : Type} (f : α → α → α) (lanes : List (Option α)) : Option α :=
  let padded := lanes ++ List.replicate (32 - lanes.length) none
  ((treeLevel f (treeLevel f (treeLevel f (treeLevel f (treeLevel f padded))))).head?).join

/-- Adds a beat's sum to the running sum; an absent beat adds nothing. -/
def runningSum {α : Type} (f : α → α → α) : Option α → Option α → Option α
  | none, y => y
  | some a, some b => some (f a b)
  | some a, none => some a

/-- A sum in the fixed order of R168 over beats of lanes. -/
def fixedSum {α : Type} (f : α → α → α) (beats : List (List (Option α))) : Option α :=
  beats.foldl (fun acc lanes => runningSum f acc (laneTree f lanes)) none

/-- The value of a reduction or statistic over the beats of one reduced set: its result, or its pair. What scaling noted on
an element is counted once in the set. -/
def reduceSet (keep : Bool) (op eps : Nat) (beats : List (List Val)) : List Val :=
  let sumOf := fun (g : Val → Val) =>
    (fixedSum (Val.add keep) (beats.map fun b => b.map fun v => some (g v))).getD { x := fpZero }
  let square := fun (v : Val) => (Val.mul keep v.bare v.bare)
  let all := beats.flatten
  let top := fun (xs : List Fp) =>
    if xs.any Fp.isNan then Fp.nan else match xs with | [] => fpZero | x :: r => r.foldl Fp.maximum x
  let n : Fp := .fin (Dyad.ofUnits (all.length : Int) 0 false)
  let perN := fun (v : Val) => (roundVal keep (v.x.divX n)).from [v]
  let ka : Val := { x := flushElem keep 0 eps (f32Format.decode eps) }
  let rstd := fun (v : Val) => let w := v.add keep ka; ({ x := f32Rsqrt keep w.x } : Val).from [w]
  match op with
  | 0x20 => [sumOf id]
  | 0x21 => [sumOf fun v => (square v).from [v]]
  | 0x22 => [({ x := top (all.map (·.x)) } : Val).from all]
  | 0x23 => [({ x := top (all.map (·.x.abs)) } : Val).from all]
  | 0x24 =>
    let mean := perN (sumOf id)
    let var := (perN (sumOf square)).add keep (Val.mul keep mean.bare mean.bare).neg
    let var := if var.x.isNeg && !var.x.isNan && !var.x.isZero then { var with x := fpZero } else var
    [mean, rstd var]
  | _ => [{ x := fpZero }, rstd (perN (sumOf fun v => (square v).from [v]))]

/-! ### Running a descriptor -/

/-- Which of A, B and C an operation reads (Table 5.4). -/
def readsOperands (op : Nat) : Bool × Bool × Bool :=
  if op = 0x3F then (false, false, false)
  else if op = 0x04 ∨ op = 0x07 ∨ op = 0x28 then (true, true, true)
  else if (1 ≤ op ∧ op ≤ 0x06) ∨ (0x10 ≤ op ∧ op ≤ 0x13) then (true, true, false)
  else (true, false, false)

/-- Whether an operation reduces. -/
def isReduction (op : Nat) : Bool := 0x20 ≤ op && op ≤ 0x25

/-- Whether an operation writes a pair per result. -/
def writesPair (op : Nat) : Bool := op = 0x24 || op = 0x25

/-- Whether a format code may stand in a jib operand (R47, R48). -/
def storedFormat (fmt : Nat) : Bool := fmt = 0 || (2 ≤ fmt && fmt ≤ 8)

/-- The results of a descriptor in the order they are written: index of D, values. -/
def Mast.jibResults (x : Mast) (q : JibDesc) (entries : List Nat) : List (Nat × List Nat × List Val) :=
  let src := fun o i0 is part => x.source q entries o i0 is part
  if q.op = 0x3F then []
  else if isReduction q.op then
    let n := fun k => q.ns.getD k 1
    let kept := outerIndexes ((List.range 5).map fun k => if k ≤ q.rd then 1 else n k)
    let inner := outerIndexes ((List.range 5).map fun k => if k ≤ q.rd then n k else 1)
    kept.map fun base =>
      let beats := inner.flatMap fun is =>
        let at_ := (List.range 4).map fun k => base.getD k 0 + is.getD k 0
        (rowBeats (n 0)).map fun b => b.map fun i0 => src q.a i0 at_ 0
      (0, base, reduceSet q.keep q.op q.a.const beats)
  else
    let (_, rb, rc) := readsOperands q.op
    (outerIndexes q.ns).flatMap fun is => (List.range (q.ns.getD 0 1)).map fun i0 =>
      let none : Val := { x := fpZero }
      let b := if rb then src q.b i0 is 0 else none
      let b2 := if q.op = 0x28 then src q.b i0 is 1 else none
      let c := if rc then src q.c i0 is 0 else none
      let c2 := if q.op = 0x28 then src q.c i0 is 1 else none
      let v := pointwise q.keep q.op (src q.a i0 is 0) b b2 c c2
      (i0, is, [if q.op ≤ 0x0C ∨ q.op = 0x28 then activate q.keep q.act v else v])

/-- Whether D is block-scaled. -/
def JibDesc.scaledOut (q : JibDesc) : Bool := q.bscl && scaledFormat q.d.fmt

/-- Writes `n` bits at a bit address of the scratchpad or of the operand cache. -/
def Mast.jibPut (x : Mast) (kind a n v : Nat) : Mast :=
  let bytes := (a % 8 + n + 7) / 8
  let old := x.jibBits kind (a / 8 * 8) (8 * bytes)
  let mask := (2 ^ n - 1) <<< (a % 8)
  let new := (old - (old &&& mask)) + (v % 2 ^ n) <<< (a % 8)
  if kind = 0 then x.padWrite (a / 8) bytes new else { x with cache := FMap.writeLE x.cache (a / 8) bytes new }

/-- A result with the bit address of D and the element offset from D's base. -/
structure Placed where
  addr : Int
  off  : Int
  v    : Val
deriving DecidableEq, Repr

/-- What happened on the way to a value is counted with it (R68, R163). -/
def Written.noting (w : Written) (v : Val) : Written := { w with overs := v.overs, unders := v.unders }

/-- A result narrowed to the destination format (R163). -/
def JibDesc.narrowed (q : JibDesc) (v : Val) : Written := (writeElem q.d.fmt q.novf q.keep q.compat v.x).noting v

/-- One block of D: its elements with their places, and the place and value of its scale byte. -/
def JibDesc.writeScaled (q : JibDesc) (b : List Placed) : List (Int × Written) × (Int × Nat) :=
  let (sc, ws) := writeBlock q.d.fmt q.novf q.keep q.compat (b.map fun e => e.v.x)
  ((ws.zip b).map (fun (w, e) => (e.addr, w.noting e.v)),
   ((q.d.sbase : Int) + (b.head?.map (·.off)).getD 0 / (q.blk : Int), sc.s))

/-- The values as they are written, with where each goes, and the block scales. -/
def JibDesc.writes (q : JibDesc) (rs : List (Nat × List Nat × List Val)) :
    List (Int × Written) × List (Int × Nat) :=
  let flat : List Placed := rs.flatMap fun (i0, is, vs) =>
    (vs.zip (List.range vs.length)).map fun (v, k) =>
      ⟨q.d.bitAddr i0 is + (k * formatBits q.d.fmt : Nat), q.d.elemOffset i0 is, v⟩
  if q.scaledOut then
    let done := (chunksOf q.blk (flat.length + 1) flat).map q.writeScaled
    (done.flatMap (·.1), done.map (·.2))
  else (flat.map fun e => (e.addr, q.narrowed e.v), [])

/-- Whether a source shares bits with results of `width` bits at `dst`, for the overlap rule of R174. -/
def JibDesc.overlaps (q : JibDesc) (dst : List Int) (width : Nat) (o : JibOperand) : Bool :=
  let n : Int := (formatBits o.fmt * (if o.pair then 2 else 1) : Nat)
  o.kind = q.d.kind && (outerIndexes q.ns).any fun is => (List.range (q.ns.getD 0 1)).any fun i0 =>
    let a := o.bitAddr i0 is
    dst.any fun b => a < b + (width : Nat) && b < a + n

/-- The strides of an operand that are not ignored: those of dimensions with an extent above 1 (R161). -/
def JibDesc.stridesUsed (q : JibDesc) (o : JibOperand) : List Int :=
  ((o.strides.zip (q.ns.drop 1)).filter fun e => e.2 != 1).map (·.1)

/-- Whether D may stand where a source stands (R174). -/
def JibDesc.sameTensor (q : JibDesc) (o : JibOperand) : Bool :=
  !isReduction q.op && o.kind = q.d.kind && o.base = q.d.base && o.fmt = q.d.fmt && o.bcast = q.d.bcast && !o.pair &&
  q.stridesUsed o = q.stridesUsed q.d

/-- Whether a block-scaled operand has a stride that is no multiple of BLK elements (R65, R170). -/
def JibDesc.strideBad (q : JibDesc) (o : JibOperand) : Bool :=
  q.bscl && o.kind < 2 && scaledFormat o.fmt && (q.stridesUsed o).any fun s => 8 * s % (q.blk * formatBits o.fmt : Nat) != 0

/-- Whether the scale bytes of a block-scaled operand lie inside its memory (R185, item 3). -/
def JibDesc.scalesInside (q : JibDesc) (o : JibOperand) : Bool :=
  !(q.bscl && o.kind < 2 && scaledFormat o.fmt) || (outerIndexes q.ns).all fun is =>
    let last := q.ns.getD 0 1 - 1
    0 ≤ o.scaleAt q.blk 0 is && o.scaleAt q.blk last is < (o.limit : Int)

/-- The host errors of R185 that a descriptor shows. A reduction with a block-scaled destination, whose results form no blocks
that the spec describes, is taken as item 3, a choice of the model's (log 55). -/
def Mast.jibCheck (x : Mast) (q : JibDesc) (entries : List Nat) : Option (Nat × Nat) :=
  let (ra, rb, rc) := readsOperands q.op
  let ops := (if ra then [q.a] else []) ++ (if rb then [q.b] else []) ++ (if rc then [q.c] else [])
  let n0 := q.ns.getD 0 1
  let known := q.op ≤ 0x0C || (0x10 ≤ q.op && q.op ≤ 0x13) || isReduction q.op || q.op = 0x28 || q.op = 0x3F
  if !known || 6 ≤ q.act || q.c.kind = 3 || (!rb && q.b.kind = 3) || (!ra && q.a.kind = 3) ||
      (q.sen && (q.sreg = 0 || q.sreg = 31)) || (writesPair q.op && q.d.fmt != 0) ||
      (q.op = 0x28 && ((q.b.kind < 2 && q.b.fmt != 0 && q.b.fmt != 2) || (q.c.kind < 2 && q.c.fmt != 0 && q.c.fmt != 2))) then
    some (185, 1)
  else if q.rwr && q.raddr % 16 != 0 then some (185, 3)
  else if q.op = 0x3F then none
  else if (ops.any fun o => o.kind < 2 && !storedFormat o.fmt) || !storedFormat q.d.fmt then some (122, 4)
  else if ops.any fun o => o.kind = 2 && ((outerIndexes q.ns).any fun is =>
      (entryOf entries (o.sheetRow is)).isNone || 63 < o.sheetCol (n0 - 1) (if o.pair then 1 else 0)) then some (185, 2)
  else if (ops.any fun o => o.kind < 2 && ((outerIndexes q.ns).any fun is => !o.inside 0 is || !o.inside (n0 - 1) is)) ||
      (ops ++ [q.d]).any q.strideBad || !(ops ++ [q.d]).all q.scalesInside || (q.scaledOut && (n0 % q.blk != 0 || isReduction q.op)) then some (185, 3)
  else
    let rs := x.jibResults q entries
    let ws := (q.writes rs).1
    let width := formatBits q.d.fmt
    if ws.any fun w => w.1 < 0 || 8 * (q.d.limit : Int) < w.1 + (width : Nat) then some (185, 3)
    else
      if ops.any fun o => !q.sameTensor o && q.overlaps (ws.map (·.1)) width o then some (185, 4)
      else none

/-- Sum, largest magnitude, saturations and non-finite count of the summarised values (R181, R182). -/
structure Summary where
  sum  : Nat := 0
  maxa : Nat := 0
  sat  : Nat := 0
  nf   : Nat := 0
deriving DecidableEq, Repr

/-- Summarises beats of values; the flag marks a NaN that narrowing wrote as zero, which counts for NF and the predicate while
the zero itself is summed (R182). -/
def summarise (keep compat : Bool) (beats : List (List (Fp × Bool))) (sat : Nat) : Summary :=
  let all := beats.flatten
  let fin := fun (x : Fp × Bool) => x.1.isFinite
  let lanes := beats.map fun b => b.map fun x => if fin x then some ({ x := x.1 } : Val) else none
  let sum := ((fixedSum (Val.add keep) lanes).map (·.x)).getD fpZero
  let maxa := (all.filter fin).foldl (fun m x => m.maximum x.1.abs) fpZero
  { sum := (toF32Bits compat sum).toNat, maxa := (toF32Bits compat maxa).toNat, sat := min sat 0xFFFF,
    nf := (all.filter fun x => !fin x || x.2).length }

/-- P of Table 5.8. -/
def predicate (code pth : Nat) (y : Summary) : Bool :=
  let t := f32Format.decode pth
  let lt := fun a b : Fp => !a.isNan && !b.isNan && a.lt b
  let maxa := f32Format.decode y.maxa
  let sum := f32Format.decode y.sum
  match code with
  | 1 => 0 < y.nf
  | 2 => lt t maxa
  | 3 => lt maxa t
  | 4 => lt t sum
  | 5 => lt sum t
  | 6 => 0 < y.nf || lt t maxa
  | 7 => 0 < y.nf || 0 < y.sat
  | _ => false

/-- The two summary words (Table 5.7). -/
def Summary.words (y : Summary) (p : Bool) : Nat × Nat :=
  (y.sum * 2 ^ 32 + y.maxa, (if p then 2 ^ 63 else 0) + y.sat * 2 ^ 32 + y.nf % 2 ^ 32)

/-- The summarised values of a descriptor, in beats. Each result of a reduction, or its pair, is a beat of its own, a choice of
the model's (log 55). -/
def Mast.jibSummary (x : Mast) (q : JibDesc) (entries : List Nat) (ws : List Written) : Summary :=
  if q.op = 0x3F then {}
  else if q.ssrc then
    let beats := (allBeats q.ns).map fun (b, is) => b.map fun i0 => ((x.source q entries q.a i0 is 0).x, false)
    summarise q.keep q.compat beats 0
  else
    let vals := ws.map fun w => (w.value, w.note == .nanZero)
    let n0 := if isReduction q.op then (if writesPair q.op then 2 else 1) else q.ns.getD 0 1
    let rows := chunksOf n0 (vals.length + 1) vals
    let beats := rows.flatMap fun r => chunksOf 32 (r.length + 1) r
    summarise q.keep q.compat beats (ws.filter fun w => w.note == .saturated).length

/-- Beats issued and lanes masked (Table 5.9). -/
def JibDesc.beatCounts (q : JibDesc) : Nat × Nat :=
  if q.op = 0x3F then (0, 0)
  else
    let n0 := q.ns.getD 0 1
    let rows := (q.ns.drop 1).foldl (· * ·) 1
    (rows * ((n0 + 31) / 32), rows * ((n0 + 31) / 32 * 32 - n0))

/-- Starts a jib descriptor (R171, R177): its whole tensor work is done, and it stands in execution with its summaries. -/
def startJib (m op : Nat) (s : State) : Result :=
  startOp m 3 op s fun x p =>
    let q := jibOf p
    let sheetOps := let (ra, rb, rc) := readsOperands q.op
      (ra && q.a.kind = 2) || (rb && q.b.kind = 2) || (rc && q.c.kind = 2)
    let needs := sheetOps || q.rel || q.rwr || q.tsrc
    if jibReserved p then .next (s.hostError m 122 4)
    else if needs ∧ x.sheet.length < q.shn then .next s
    else
      let entries := x.sheet.take q.shn
      match x.jibCheck q entries with
      | some f => .next (s.hostError m f.1 f.2)
      | none =>
        let rs := x.jibResults q entries
        let (ws, scales) := q.writes rs
        let sums := x.jibSummary q entries (ws.map (·.2))
        let width := formatBits q.d.fmt
        let y := ws.foldl (fun y w => y.jibPut q.d.kind w.1.toNat width w.2.bits) x
        let y := scales.foldl (fun y sc => y.jibPut q.d.kind (8 * sc.1.toNat) 8 sc.2) y
        let words := sums.words (predicate q.pred q.pth sums)
        let tag := if q.tsrc then recTag (entries.headD 0) else descTag p.desc
        let die := mastDie m
        let (beats, masked) := q.beatCounts
        let s := ((s.setMast m y).bump (0x3850 + die) 1 beats).bump (0x3850 + die) 4 masked
        let s := if q.d.kind = 0 then s.countAll die (s.partOfMast m) tag q.d.fmt (ws.map (·.2)) else s
        .next (s.began m 3 { post := p, summary := some words, taken := if q.rel then q.shn else 0 })

/-- COPY (R165). -/
def execCopy (m : Nat) (s : State) : Result := startJib m 0x00 s
/-- ADD (R165). -/
def execJibAdd (m : Nat) (s : State) : Result := startJib m 0x01 s
/-- SUB (R165). -/
def execJibSub (m : Nat) (s : State) : Result := startJib m 0x02 s
/-- MUL (R165). -/
def execJibMul (m : Nat) (s : State) : Result := startJib m 0x03 s
/-- FMA, rounded once (R165). -/
def execFma (m : Nat) (s : State) : Result := startJib m 0x04 s
/-- MIN (R164, R165). -/
def execJibMin (m : Nat) (s : State) : Result := startJib m 0x05 s
/-- MAX (R164, R165). -/
def execJibMax (m : Nat) (s : State) : Result := startJib m 0x06 s
/-- MUL3 (R165). -/
def execMul3 (m : Nat) (s : State) : Result := startJib m 0x07 s
/-- EXP (R167). -/
def execExp (m : Nat) (s : State) : Result := startJib m 0x08 s
/-- LOG (R167). -/
def execLog (m : Nat) (s : State) : Result := startJib m 0x09 s
/-- RECIP (R167). -/
def execRecip (m : Nat) (s : State) : Result := startJib m 0x0A s
/-- RSQRT (R167). -/
def execRsqrt (m : Nat) (s : State) : Result := startJib m 0x0B s
/-- SQRT (R167). -/
def execSqrt (m : Nat) (s : State) : Result := startJib m 0x0C s
/-- RELU_GRAD (R165). -/
def execReluGrad (m : Nat) (s : State) : Result := startJib m 0x10 s
/-- GELU_GRAD (R167). -/
def execGeluGrad (m : Nat) (s : State) : Result := startJib m 0x11 s
/-- SILU_GRAD (R167). -/
def execSiluGrad (m : Nat) (s : State) : Result := startJib m 0x12 s
/-- SIGMOID_GRAD (R167). -/
def execSigmoidGrad (m : Nat) (s : State) : Result := startJib m 0x13 s
/-- RSUM (R168). -/
def execRsum (m : Nat) (s : State) : Result := startJib m 0x20 s
/-- RSUMSQ (R168). -/
def execRsumsq (m : Nat) (s : State) : Result := startJib m 0x21 s
/-- RMAX (R168). -/
def execRmax (m : Nat) (s : State) : Result := startJib m 0x22 s
/-- RMAXABS (R168). -/
def execRmaxabs (m : Nat) (s : State) : Result := startJib m 0x23 s
/-- RMSTAT (R169). -/
def execRmstat (m : Nat) (s : State) : Result := startJib m 0x24 s
/-- RMSSTAT (R169). -/
def execRmsstat (m : Nat) (s : State) : Result := startJib m 0x25 s
/-- NORM (R165). -/
def execNorm (m : Nat) (s : State) : Result := startJib m 0x28 s
/-- SKIP (R165). -/
def execSkip (m : Nat) (s : State) : Result := startJib m 0x3F s

/-- Writes the two summary words into registers SREG and SREG + 1 of a thread (R181). -/
def Mast.writeSummary (x : Mast) (t sreg : Nat) (w : Nat × Nat) : Mast :=
  x.setThread t (((x.thread t).setReg sreg (BitVec.ofNat 64 w.1)).setReg (sreg + 1) (BitVec.ofNat 64 w.2))

/-- JIB_COMPLETE (R172): summaries, then the record, the release of sheet entries and the counter. -/
def execJibComplete (m : Nat) (s : State) : Result :=
  let x := s.mast m
  match x.run 3 with
  | none => .next s
  | some r =>
    guardEvent x.wild.isNone s <|
    let q := jibOf r.post
    let words := r.summary.getD (0, 0)
    let x := if q.sen then x.writeSummary r.post.thread q.sreg words else x
    let x := if q.rwr then x.padWrite q.raddr 16 (x.sheet.headD 0) else x
    let x := { x with sheet := x.sheet.drop r.taken }
    let s := (s.setMast m x).completeRun m 3 r
    let c := 0x3850 + mastDie m
    let s := (s.bump c 5 1).bump c 6 r.taken
    let s := if bitOf words.2 63 then s.bump c 7 1 else s
    let err := ((s.mast m).counter (descCc r.post.desc)).err
    .next (if err then s.bump c 8 1 else s)

end Sys2Proof.Machine
end

