-- ==== Sys2Proof/Machine/Operands.lean ====
section
/-! DEFINITION. The operands of a control-core instruction word (Tables 3.3 and 3.4): fetch, opcode, and the fields as the
issuing thread reads them. -/
namespace Sys2Proof.Machine

/-- The operands of an instruction word (Table 3.3) as the issuing thread reads them. -/
structure Operands where
  d   : Nat
  sa  : Word64
  sb  : Word64
  imm : Word64
deriving DecidableEq, Repr

/-- v is sb + IMM (R92). -/
def Operands.v (o : Operands) : Word64 := o.sb + o.imm

/-- The instruction word at the program counter, whose bits [2:0] are ignored (R91). -/
def Mast.fetch (x : Mast) (th : Thread) : Nat := x.padRead (th.pc.toNat / 8 * 8) 8

/-- The opcode of a word (Table 3.3). -/
def opcodeOf (w : Nat) : Nat := field w 63 56

/-- Decodes the fields of a word and reads the source registers. -/
def readOperands (w : Nat) (th : Thread) : Operands :=
  { d := field w 55 51, sa := th.reg (field w 50 46), sb := th.reg (field w 45 41),
    imm := (BitVec.ofNat 41 w).signExtend 64 }

end Sys2Proof.Machine
end

