-- ==== Sys2Proof/Machine/Threads.lean ====
section
/-! DEFINITION. The control core (R89 to R104): issue of an instruction word, the operations of Table 3.4, the waits and
their ends. -/
namespace Sys2Proof.Machine

/-- Whether a Ready thread comes before `t` in the rotation (R90): its number follows the last issuer's before `t` does, and
it is none of the last seven issuers, so that it is eligible in any cycle in which `t` is. -/
def Mast.passedOver (x : Mast) (t : Nat) : Bool :=
  x.threads.any fun e => e.2.run == .ready && (e.1 + 511 - x.last) % 512 < (t + 511 - x.last) % 512 && !x.recent.contains e.1

/-- Whether thread `t` of a mast may issue (R90). -/
def Mast.mayIssue (x : Mast) (t : Nat) : Bool := x.awake && (x.thread t).run == .ready && !x.passedOver t

/-- Issues the operation `op` for thread `t` of mast `m`: the word at its program counter must carry that opcode. -/
def issue (m t op : Nat) (s : State) (k : Mast → Thread → Operands → Result) : Result :=
  let x := s.mast m
  let th := x.thread t
  guardEvent (decide (m < 3072) && decide (t < 512) && x.mayIssue t && opcodeOf (x.fetch th) == op) s
    (k x th (readOperands (x.fetch th) th))

/-- The next program counter: 8 on, modulo 1 MiB (R91). -/
def Thread.advance (th : Thread) : Thread := { th with pc := th.pc + 8#20 }

/-- Notes that thread `t` issued last (R90). -/
def Mast.issued (x : Mast) (t : Nat) : Mast := { x with last := t, recent := (t :: x.recent).take 7 }

/-- Puts the thread back and notes that it issued last (R90). -/
def retire (m t : Nat) (s : State) (x : Mast) (th : Thread) : State := s.setMast m ((x.setThread t th).issued t)

/-- The operations d ← f sa v of Table 3.4. -/
def alu (m t op : Nat) (f : Word64 → Word64 → Word64) (s : State) : Result :=
  issue m t op s fun x th o => .next (retire m t s x ((th.setReg o.d (f o.sa o.v)).advance))

def boolWord (b : Bool) : Word64 := if b then 1#64 else 0#64

/-- NOP (R92). -/
def execNop (m t : Nat) (s : State) : Result :=
  issue m t 0x00 s fun x th _ => .next (retire m t s x th.advance)

/-- ADD (R92). -/
def execAdd (m t : Nat) (s : State) : Result := alu m t 0x01 (fun a v => a + v) s
/-- SUB (R92). -/
def execSub (m t : Nat) (s : State) : Result := alu m t 0x02 (fun a v => a - v) s
/-- AND (R92). -/
def execAnd (m t : Nat) (s : State) : Result := alu m t 0x03 (fun a v => a &&& v) s
/-- OR (R92). -/
def execOr (m t : Nat) (s : State) : Result := alu m t 0x04 (fun a v => a ||| v) s
/-- XOR (R92). -/
def execXor (m t : Nat) (s : State) : Result := alu m t 0x05 (fun a v => a ^^^ v) s
/-- SHL by v[5:0] (R92). -/
def execShl (m t : Nat) (s : State) : Result := alu m t 0x06 (fun a v => a <<< (v.toNat % 64)) s
/-- SHR by v[5:0], logical (R92). -/
def execShr (m t : Nat) (s : State) : Result := alu m t 0x07 (fun a v => a >>> (v.toNat % 64)) s
/-- SAR by v[5:0], arithmetic (R92). -/
def execSar (m t : Nat) (s : State) : Result := alu m t 0x08 (fun a v => a.sshiftRight (v.toNat % 64)) s
/-- MUL, low 64 bits (R92). -/
def execMul (m t : Nat) (s : State) : Result := alu m t 0x09 (fun a v => a * v) s
/-- SLT, signed (R92). -/
def execSlt (m t : Nat) (s : State) : Result := alu m t 0x0A (fun a v => boolWord (a.slt v)) s
/-- SLTU, unsigned (R92). -/
def execSltu (m t : Nat) (s : State) : Result := alu m t 0x0B (fun a v => boolWord (a.ult v)) s
/-- SEQ (R92). -/
def execSeq (m t : Nat) (s : State) : Result := alu m t 0x0C (fun a v => boolWord (a == v)) s
/-- MIN, signed (R92). -/
def execMin (m t : Nat) (s : State) : Result := alu m t 0x0D (fun a v => if a.slt v then a else v) s
/-- MAX, signed (R92). -/
def execMax (m t : Nat) (s : State) : Result := alu m t 0x0E (fun a v => if a.slt v then v else a) s

/-- A scratchpad address of LDS, STS or POST with bits above [19] set is the host error of R122, item 1. -/
def padOperand (m : Nat) (s : State) (a : Word64) (k : Nat → Result) : Result :=
  if a.toNat < 2 ^ 20 then k a.toNat else .next (s.hostError m 122 1)

/-- LDS: a scratchpad word; the low three address bits are ignored (R92). -/
def execLds (m t : Nat) (s : State) : Result :=
  issue m t 0x10 s fun x th o => padOperand m s (o.sa + o.imm) fun a =>
    .next (retire m t s x ((th.setReg o.d (BitVec.ofNat 64 (x.padRead (a / 8 * 8) 8))).advance))

/-- STS (R92). -/
def execSts (m t : Nat) (s : State) : Result :=
  issue m t 0x11 s fun x th o => padOperand m s (o.sa + o.imm) fun a =>
    .next (retire m t s (x.padWrite (a / 8 * 8) 8 o.sb.toNat) th.advance)

/-- Stalls the thread until its memory result returns (R92, R94). -/
def awaitResult (m t : Nat) (s : State) (th : Thread) (d : Nat) (v : Word64) (addr : Option Nat) : State :=
  retire m t s (s.mast m) { th.advance with run := .stalled, wait := .result d v addr }

/-- LDM: the word is taken at issue and delivered by MEMORY_RESULT_RETURN; blocked or poisoned it is 0 (R188, R199). -/
def execLdm (m t : Nat) (s : State) : Result :=
  issue m t 0x12 s fun _ th o =>
    let a := wordAddr (o.sa + o.imm)
    let (ans, s') := s.readReq (.thread m t) (s.partOfMast m) a 8
    .next (awaitResult m t s' th o.d (if ans.err then 0#64 else BitVec.ofNat 64 ans.val) (if ans.err then none else some a))

/-- STM: visible in the order of R206 when the command ends (R94). -/
def execStm (m t : Nat) (s : State) : Result :=
  issue m t 0x13 s fun _ th o =>
    let s' := (s.writeReq (.thread m t) (s.partOfMast m) (wordAddr (o.sa + o.imm)) 8 o.sb.toNat).2
    .next (retire m t s' (s'.mast m) th.advance)

/-- The two atomic exchanges of Table 3.4 at the home directory (R207). -/
def atomicOp (m t op : Nat) (f : Word64 → Word64 → Word64) (s : State) : Result :=
  issue m t op s fun _ th o =>
    let a := wordAddr o.sa
    match s.atomicWord (.thread m t) (s.partOfMast m) a with
    | (none, s') => .next (awaitResult m t s' th o.d 0#64 none)
    | (some old, s') =>
      .next (awaitResult m t (s'.store a 8 (f (BitVec.ofNat 64 old) o.sb).toNat) th o.d (BitVec.ofNat 64 old) (some a))

/-- AMADD (R92). -/
def execAmadd (m t : Nat) (s : State) : Result := atomicOp m t 0x14 (fun old b => old + b) s
/-- AMSWAP (R92). -/
def execAmswap (m t : Nat) (s : State) : Result := atomicOp m t 0x15 (fun _ b => b) s

/-- A jump of IMM from the instruction's own address (R92). -/
def Thread.jump (th : Thread) (imm : Word64) : Thread := { th with pc := th.pc + imm.setWidth 20 }

/-- BR (R92). -/
def execBr (m t : Nat) (s : State) : Result :=
  issue m t 0x20 s fun x th o => .next (retire m t s x (th.jump o.imm))
/-- BZ (R92). -/
def execBz (m t : Nat) (s : State) : Result :=
  issue m t 0x21 s fun x th o => .next (retire m t s x (if o.sa = 0#64 then th.jump o.imm else th.advance))
/-- BNZ (R92). -/
def execBnz (m t : Nat) (s : State) : Result :=
  issue m t 0x22 s fun x th o => .next (retire m t s x (if o.sa = 0#64 then th.advance else th.jump o.imm))

/-- JAL: d ← pc + 8, pc ← sa + IMM (R92). The link and every branch's base keep the low three bits of pc that a fetch ignores,
and pc + 8 wraps at 1 MiB, a choice of the model's (log 64). -/
def execJal (m t : Nat) (s : State) : Result :=
  issue m t 0x23 s fun x th o =>
    let link := (th.pc + 8#20).setWidth 64
    .next (retire m t s x { th.setReg o.d link with pc := (o.sa + o.imm).setWidth 20 })

/-- The engine, 0 to 3, that a descriptor names (Table 3.7, STRM of Table 3.8); none for the reserved ENG. -/
def engineOf (desc : Nat) : Option Nat :=
  match field desc 7 6 with
  | 0 => some (field desc 463 463)
  | 1 => some 2
  | 2 => some 3
  | _ => none

/-- Whether the engine that a descriptor names has its operation (Tables 3.9, 4.3 and 5.4). -/
def opKnown (desc : Nat) : Bool :=
  let op := field desc 15 8
  match field desc 7 6 with
  | 0 => op ≤ 4
  | 1 => op ≤ 3
  | 2 => op ≤ 0x0C || (0x10 ≤ op && op ≤ 0x13) || (0x20 ≤ op && op ≤ 0x25) || op == 0x28 || op == 0x3F
  | _ => false

/-- Whether the common header breaks R107: VER other than 2, a reserved operation, or a reserved bit set (R122, item 4). -/
def headerBad (desc : Nat) : Bool :=
  !opKnown desc || field desc 3 0 != 2 || field desc 5 4 != 0 || field desc 18 16 != 0 || field desc 25 20 != 0 ||
  field desc 35 32 != 0 || field desc 95 64 != 0 || field desc 53 48 != 0 || field desc 63 60 != 0

/-- The mode in which a descriptor of this thread runs: its work item's, or the partition's (R104). -/
def State.threadMode (s : State) (m : Nat) (th : Thread) : Bool :=
  match th.item with | some c => c | none => s.compatOf (s.partOfMast m)

/-- The engine for which a thread's POST is stalled. -/
def Thread.stalledPost (th : Thread) : Option (Nat × Posted) :=
  match th.wait with
  | .slot p => (engineOf p.desc).map fun e => (e, p)
  | _ => none

/-- Whether a POST to engine `e` numbered below `num` is still stalled: posting order is issue order (R108). -/
def Mast.earlierStalled (x : Mast) (e num : Nat) : Bool :=
  x.threads.any fun y => match y.2.stalledPost with
    | some (k, p) => k = e && p.num < num
    | none => false

/-- POST (R108, R161): copies the descriptor, and the jib's layout record, into the queue of its engine, or stalls while
that is full. -/
def execPost (m t : Nat) (s : State) : Result :=
  issue m t 0x30 s fun x th o => padOperand m s (o.sa + o.imm) fun a =>
    let desc := x.padRead a 64
    let la := field desc 147 128
    if a % 64 ≠ 0 ∨ headerBad desc then .next (s.hostError m 122 4) else
    match engineOf desc with
    | none => .next (s.hostError m 122 4)
    | some e =>
      if e = 3 ∧ la % 64 ≠ 0 then .next (s.hostError m 185 3) else
      let p : Posted := { desc := desc, layout := if e = 3 then x.padRead la 64 else 0, thread := t, num := x.posts,
                          compat := s.threadMode m th }
      let x' := { x with posts := x.posts + 1 }
      if (x.queue e).length < queueSize e ∧ !x.earlierStalled e x.posts then
        .next (retire m t s (x'.setQueue e (x.queue e ++ [p])) th.advance)
      else .next (retire m t s x' { th.advance with run := .stalled, wait := .slot p })

/-- POST_SLOT_FREE (R108): a slot frees and the earliest stalled POST to that queue proceeds. -/
def execPostSlotFree (m t : Nat) (s : State) : Result :=
  let x := s.mast m
  let th := x.thread t
  match th.stalledPost with
  | none => .next s
  | some (e, p) =>
    if x.earlierStalled e p.num ∨ queueSize e ≤ (x.queue e).length then .next s
    else .next (s.setMast m ((x.setQueue e (x.queue e ++ [p])).setThread t { th with run := .ready, wait := .none }))

/-- WAITC (R97). -/
def execWaitc (m t : Nat) (s : State) : Result :=
  issue m t 0x31 s fun x th o =>
    let n := o.imm.toNat % 64
    let target : Word32 := o.sb.setWidth 32
    if counterReached (x.counter n).val target then
      .next (retire m t s x ((th.setReg o.d (counterWord (x.counter n))).advance))
    else .next (retire m t s x { th.advance with run := .stalled, wait := .counter n o.d target })

/-- How many WATCH operations of a mast are pending (R100). -/
def Mast.watchers (x : Mast) : Nat := (x.threads.filter fun e => e.2.run = .watching).length

/-- Takes up a WATCH (R98): blocked, poisoned or already different it wakes at once; else the far cache of the mast's die
keeps the line Shared (R99), and compares the word again where the line's own read is still on its way. `th` has moved on. -/
def State.watchWord (s : State) (m t a : Nat) (expect : Word64) (ticks d : Nat) (th : Thread) : State :=
  let (ans, s) := s.readReq (.thread m t) (s.partOfMast m) a 8
  let awake := { th with run := .ready, wait := .none }
  let put := fun (s : State) (th : Thread) => s.setMast m ((s.mast m).setThread t th)
  if ans.err then put s (awake.setReg d 0#64)
  else if BitVec.ofNat 64 ans.val ≠ expect then put s (awake.setReg d 1#64)
  else
    let deadline := if ticks = 0 then none else some (s.tick + ticks)
    let hit := s.awaits (threadWho m t)
    put (s.keepShared (mastDie m) (a / 128)) { th with run := .watching, wait := .watch a expect deadline d hit }

/-- WATCH (R98, R100). -/
def execWatch (m t : Nat) (s : State) : Result :=
  issue m t 0x32 s fun x th o =>
    let a := wordAddr o.sa
    let ticks := o.imm.toNat % 2 ^ 32
    if x.watchers < 16 then
      let s' := s.watchWord m t a o.sb ticks o.d th.advance
      .next (s'.setMast m ((s'.mast m).issued t))
    else .next (retire m t s x { th.advance with run := .stalled, wait := .entry a o.sb ticks o.d })

/-- WATCH_ENTRY_FREE (R100): an entry frees and a stalled WATCH proceeds under R98. -/
def execWatchEntryFree (m t : Nat) (s : State) : Result :=
  let x := s.mast m
  let th := x.thread t
  match th.wait with
  | .entry a expect ticks d =>
    if x.watchers < 16 then .next (s.watchWord m t a expect ticks d th) else .next s
  | _ => .next s

/-- Ends a WATCH: the thread is Ready with d (R98). -/
def State.endWatch (s : State) (m t d : Nat) (v : Word64) : State :=
  let x := s.mast m
  s.setMast m (x.setThread t { (x.thread t).setReg d v with run := .ready, wait := .none })

/-- WATCH_CHANGE (R98, R99): the line was invalidated or written, and the far cache re-reads the word. A word that differs
wakes the thread, and so does one that can no longer be read; else the line is kept Shared again. -/
def execWatchChange (m t : Nat) (s : State) : Result :=
  let x := s.mast m
  let th := x.thread t
  match th.wait with
  | .watch a expect deadline d true =>
    let (ans, s') := s.readReq (.thread m t) (s.partOfMast m) a 8
    if ans.err then .next (s'.endWatch m t d 0#64)
    else if BitVec.ofNat 64 ans.val = expect then
      let hit := s'.awaits (threadWho m t)
      let s' := s'.keepShared (mastDie m) (a / 128)
      .next (s'.setMast m ((s'.mast m).setThread t { th with wait := .watch a expect deadline d hit }))
    else .next ((s'.endWatch m t d 1#64).bump (0x3800 + mastDie m) 3 1)
  | _ => .next s

/-- WATCH_TIMEOUT (R98): the ticks have passed; a change on the same cycle is taken first. -/
def execWatchTimeout (m t : Nat) (s : State) : Result :=
  match ((s.mast m).thread t).wait with
  | .watch a expect (some deadline) d _ =>
    if s.tick < deadline then .next s else
    let changed := !s.badRange a 8 && BitVec.ofNat 64 (s.load a 8) != expect
    if changed then .next ((s.endWatch m t d 1#64).bump (0x3800 + mastDie m) 3 1)
    else .next (s.endWatch m t d 0#64)
  | _ => .next s

/-- The value of a FETCHW that claims nothing: 2^63 + TAIL[62:0] (R103). -/
def emptyList (tail : Nat) : Word64 := BitVec.ofNat 64 (2 ^ 63 + tail % 2 ^ 63)

/-- FETCHW (R103, R104): claims the next work item of the list at sa, and samples the arithmetic mode. -/
def execFetchw (m t : Nat) (s : State) : Result :=
  issue m t 0x33 s fun x th o =>
    let part := s.partOfMast m
    let a := wordAddr o.sa
    let idle := { th with item := none }
    let r : Requester := .thread m t
    let give := fun (s : State) (v : Word64) => Host.Outcome.next (retire m t s (s.mast m)
      { idle.advance with run := .stalled, wait := .fetched o.d v a })
    if !s.admits part (a + 128) 8 [rightAt] then give (s.blocked r part (a + 128) 8) (emptyList 0)
    else
    match s.atomicWord r part a with
    | (none, s') => give s' (emptyList 0)
    | (some tail, s') =>
      let s' := s'.homeAtomic r.who (a + 128)
      if s'.badRange (a + 128) 8 then give s' (emptyList 0) else
      let claim := s'.load (a + 128) 8
      if claim < tail ∧ x.goal.isNone then
        let s' := s'.store (a + 128) 8 (claim + 1)
        .next (retire m t s' (s'.mast m) { th.advance with
          run := .stalled, item := some (s.compatOf part), wait := .fetched o.d (BitVec.ofNat 64 claim) a })
      else give s' (emptyList tail)

/-- MEMORY_RESULT_RETURN (R92, R199): the data returns and the thread is Ready, once no request of the thread is under way.
A word that its own read found poisoned answers 0; a claim that it found so is taken back, and answers 2^63. -/
def execMemoryResultReturn (m t : Nat) (s : State) : Result :=
  let x := s.mast m
  let th := x.thread t
  let give := fun (s : State) (d : Nat) (v : Word64) (item : Option Bool) =>
    guardEvent (!s.awaits (threadWho m t)) s
      (.next (s.setMast m (x.setThread t { th.setReg d v with run := .ready, wait := .none, item := item })))
  match th.wait with
  | .result d v addr =>
    let bad := match addr with | some a => s.badRange a 8 | none => false
    give s d (if bad then 0#64 else v) th.item
  | .fetched d v a =>
    if th.item.isSome && (s.badRange a 8 || s.badRange (a + 128) 8) then
      guardEvent (!s.awaits (threadWho m t)) s
        (give (if s.load (a + 128) 8 = v.toNat + 1 then s.store (a + 128) 8 v.toNat else s) d (emptyList 0) none)
    else give s d v th.item
  | _ => .next s

/-- CINC: counter IMM[5:0] plus sb[31:0] (R92). -/
def execCinc (m t : Nat) (s : State) : Result :=
  issue m t 0x34 s fun x th o =>
    .next (retire m t s ((x.setThread t th.advance).signal (o.imm.toNat % 64) (o.sb.setWidth 32) false) th.advance)

/-- CCLR (R92): clearing a counter may also end a wait for a target that is not above 0. -/
def execCclr (m t : Nat) (s : State) : Result :=
  issue m t 0x35 s fun x th o =>
    let n := o.imm.toNat % 64
    .next (retire m t s (((x.setThread t th.advance).setCounter n {}).wakeCounter n) th.advance)

/-- START (R92): an Empty or Faulted thread becomes Ready; while a request for Wick or Dark pends it answers 1 (R118). -/
def execStart (m t : Nat) (s : State) : Result :=
  issue m t 0x36 s fun x th o =>
    let j := o.imm.toNat % 512
    let free := (x.thread j).run = .empty || (x.thread j).run = .faulted
    if free ∧ x.goal.isNone then
      let new : Thread := { ({} : Thread).setReg 1 o.sb with pc := o.sa.setWidth 20, run := .ready }
      .next (retire m t s (x.setThread j new) ((th.setReg o.d 0#64).advance))
    else .next (retire m t s x ((th.setReg o.d 1#64).advance))

/-- HALT (R92): the thread becomes Empty, and its work item ends (R104). -/
def execHalt (m t : Nat) (s : State) : Result :=
  issue m t 0x37 s fun x th _ => .next (retire m t s x { th.advance with run := .empty, item := none })

/-- RDSYS (R92). Mast cycles since launch, a partition or work item that is none, are open (log 1). -/
def execRdsys (m t : Nat) (s : State) : Result :=
  issue m t 0x38 s fun x th o =>
    let give := fun (s : State) (v : Nat) => .next (retire m t s x ((th.setReg o.d (BitVec.ofNat 64 v)).advance))
    match o.imm.toNat % 256 with
    | 0 => give s t
    | 1 => give s (mastLocal m)
    | 2 => give s (mastDie m)
    | 3 => match s.partOfMast m with
      | some p => give s p
      | none => let (v, s') := s.open 64; give s' v
    | 4 => let (v, s') := s.open 64; give s' v
    | 5 => give s s.tick
    | 6 => match th.item with
      | some c => give s (if c then 1 else 0)
      | none => let (v, s') := s.open 64; give s' v
    | _ => give s 0

/-- The opcodes of Table 3.4. -/
def definedOpcode (w : Nat) : Bool :=
  let op := opcodeOf w
  op ≤ 0x0E || (0x10 ≤ op && op ≤ 0x15) || (0x20 ≤ op && op ≤ 0x23) || (0x30 ≤ op && op ≤ 0x38)

/-- MAST_THREAD_FAULT (R93): an opcode absent from Table 3.4 puts the thread into Faulted; its work item ends. -/
def execMastThreadFault (m t : Nat) (s : State) : Result :=
  let x := s.mast m
  let th := x.thread t
  guardEvent (decide (m < 3072) && decide (t < 512) && x.mayIssue t && !definedOpcode (x.fetch th)) s <|
  let s := retire m t s x { th with run := .faulted, item := none }
  .next ((s.bump (0x3800 + mastDie m) 4 1).post
    { code := 0x3810, plane := 2, part := partOr (s.partOfMast m), kind := 3, num := m,
      detail := [(2, m), (2, t), (2, th.pc.toNat % 2 ^ 16)] })

end Sys2Proof.Machine
end

