-- ==== Sys2Proof/Machine/MastPower.lean ====
section
/-! DEFINITION. Launch and the power states of a mast (R105, R106, R117 to R121, R431, R432). -/
namespace Sys2Proof.Machine

/-- Package states (Table 13.2), held in 2000h:01. -/
def pkgOff : Nat := 0
def pkgStandby : Nat := 1
def pkgBooting : Nat := 2
def pkgReady : Nat := 3
def pkgShutdown : Nat := 4
def State.pkg (s : State) : Nat := s.val 0x2000 1

/-- The 2320h request of a mast: 0 run, 1 Wick, 2 Dark. -/
def State.mastRequest (s : State) (m : Nat) : Nat := s.val (0x2320 + mastDie m) (mastLocal m + 1)

/-- What 2330h reports (Table 3.11). -/
def Mast.status (x : Mast) : Nat :=
  if x.held then 7
  else match x.goal, x.power with
    | some .wick, _ => 4
    | some _, _ => 5
    | none, .lit => 0
    | none, .shuttered => 1
    | none, .wick => 2
    | none, .dark => 3
    | none, _ => 6

/-- Whether a mast is in Wick or Dark, or fenced, so that its clock tree may stop (R431). -/
def Mast.asleep (x : Mast) : Bool := x.power == .wick || x.power == .dark || x.fenced

/-- Starts or stops the mast clock tree of die `d` (R431). -/
def State.setTree (s : State) (d : Nat) (on : Bool) : State := s.setVal 0x2000 3 (setBit (s.val 0x2000 3) d on)

/-- Stops the tree of a die all of whose masts sleep (R431). -/
def State.settleTree (s : State) (d : Nat) : State :=
  if s.masts.all fun e => mastDie e.1 != d || e.2.asleep then s.setTree d false else s

/-- Whether mesh traffic is on its way to or from mast `m`. -/
def State.meshBusy (s : State) (m : Nat) : Bool :=
  s.masts.any fun e => mastDie e.1 = mastDie m && e.2.running.any fun r =>
    r.1 < 2 && descOp r.2.post.desc = 2 && field r.2.post.desc 7 6 = 0 &&
      (e.1 = m || (!r.2.arrived && (transferOf r.2.post.desc).dmast = mastLocal m))

/-- The engines and queues of a mast are empty and idle (R117). -/
def Mast.enginesIdle (x : Mast) : Bool := x.queues.isEmpty && x.running.isEmpty && x.sheet.isEmpty && x.launch.isNone

/-- The conditions of R117 for entering Shuttered: no Ready thread, no outstanding memory result, idle engines. -/
def State.mayShutter (s : State) (m : Nat) : Bool :=
  let x := s.mast m
  x.power == .lit && x.wild.isNone && x.enginesIdle && !s.meshBusy m &&
    x.threads.all fun e => e.2.run != .ready && (match e.2.wait with | .result _ _ _ | .fetched _ _ _ => false | _ => true)

/-- The conditions of R118 for a power-down: no thread Ready or Stalled besides. Traffic toward the mast waits at its sender
(R121). -/
def State.mayPowerDown (s : State) (m : Nat) : Bool :=
  let x := s.mast m
  (x.power == .lit || x.power == .shuttered || x.power == .wick) && x.wild.isNone && x.enginesIdle &&
    x.threads.all fun e => e.2.run != .ready && e.2.run != .stalled

/-- What Dark keeps: nothing but the fence and the bond's own record (Table 3.10). -/
def Mast.darkened (x : Mast) : Mast := { fenced := x.fenced, bond := { x.bond with up := {}, down := {} } }

/-- What Wick keeps: scratchpad and accumulator (Table 3.10, R141). -/
def Mast.wicked (x : Mast) : Mast :=
  { power := .wick, fenced := x.fenced, bond := { x.bond with up := {}, down := {} }, pad := x.pad, acc := x.acc, rows := x.rows }

/-- Posts ENABLE_HELD (R418): a function code of Table 12.8 and the function's number. -/
def State.postHeld (s : State) (part code num : Nat) : State :=
  s.post { code := 0x1F40, plane := 0, part := part, detail := [(1, code), (2, num)] }

/-- Whether the partition of a mast is Stopped: its masts are held Dark (R468). -/
def State.stopHolds (s : State) (m : Nat) : Bool :=
  match s.partOfMast m with
  | some p => (s.part p).st == .stopped
  | none => false

/-- Issues the power-up grant of a sleeping mast, where the package is Ready and no stop holds it (R39, R432, R468): toward
Lit, or from Dark to Wick. -/
def State.grantMast (s : State) (m : Nat) : State :=
  let x := s.mast m
  if s.pkg ≠ pkgReady ∨ x.fenced ∨ s.domainDown (mastDie m) ∨ s.stopHolds m then s
  else
    let up := match s.mastRequest m, x.power with
      | 0, .wick => some MastPower.wakingWick
      | 0, .dark => some .wakingDark
      | 1, .dark => some .wakingToWick
      | _, _ => none
    match up with
    | none => s
    | some p => (s.setMast m { x with power := p, goal := none, held := false }).setTree (mastDie m) true

/-- The effect of a value in a mast's 2320h object (R118 to R120); a Shuttered mast wakes on it (R117). -/
def State.requestMast (s : State) (m v : Nat) : State :=
  let s := s.setVal (0x2320 + mastDie m) (mastLocal m + 1) v
  let x := s.mast m
  if x.fenced then s
  else match v with
  | 0 =>
    if x.goal.isSome && !x.held then (s.setMast m { x with held := true }).postHeld (partOr (s.partOfMast m)) 1 m
    else if x.power == .shuttered then s.setMast m { x with power := .lit }
    else s
  | 1 =>
    if x.power == .wick && x.goal.isNone then s
    else if x.power == .dark || x.power == .wakingToWick then s.setMast m { x with held := false }
    else s.setMast m { x with goal := some .wick, held := false }
  | _ =>
    if x.power == .dark then s.setMast m { x with held := false }
    else s.setMast m { x with goal := some .dark, held := false }

/-- Reads a launch entry and starts the code copy of a mast that has become Lit (R105, R106), as requests of halyard stream 0.
A copy that fails goes on to its end, a choice of the model's: what it leaves of the failing pieces is 0 or open (log 55). -/
def State.launchMast (s : State) (m : Nat) : State :=
  let part := s.partOfMast m
  let base := match part with | some p => s.val 0x7130 (p + 1) | none => 0
  let s := s.bump (0x3800 + mastDie m) 6 1
  let fail := fun (s : State) (cause : Nat) =>
    s.post { code := 0x3830, plane := 2, part := partOr part, kind := 3, num := m, detail := [(2, m), (1, cause)] }
  if base = 0 then fail s 1
  else
    let r : Requester := .stream m 0 0
    let (ent, s) := s.readMany r part (base + 64 * m) 64
    if ent.err then fail s 2
    else
      let src := field ent.val 63 0
      let dst := field ent.val 127 96
      let clen := field ent.val 95 64
      if 2 ^ 20 < dst + clen then s.hostError m 122 1
      else
        let (code, s) := s.readMany r part src clen
        let x := (s.mast m).padWrite dst clen code.val
        s.setMast m { x with launch := some { entry := base + 64 * m, src := src, len := clen, valid := bitOf ent.val 160,
                                              pc0 := field ent.val 147 128, arg := field ent.val 255 192,
                                              cause := if code.err then 3 else 0 } }

/-- Why a launch fails (Table 3.12), 0 where it does not: its own reads may have found poison since (R199). -/
def State.launchCause (s : State) (l : Launch) : Nat :=
  if s.badRange l.entry 64 then 2
  else if l.cause ≠ 0 then l.cause
  else if l.len ≠ 0 && s.badRange l.src l.len then 3
  else 0

/-- LAUNCH_COPY_DONE (R106): the copy's requests have all ended; counters are cleared and thread 0 starts if VALID; a failed
copy starts none. -/
def execLaunchCopyDone (m : Nat) (s : State) : Result :=
  let x := s.mast m
  match x.launch with
  | none => .next s
  | some l =>
    guardEvent (x.wild.isNone && !s.awaits (streamWho m 0)) s <|
    let x := { x with launch := none, counters := [], seq := 0 }
    let cause := s.launchCause l
    if cause ≠ 0 then
      .next ((s.setMast m x).post { code := 0x3830, plane := 2, part := partOr (s.partOfMast m), kind := 3, num := m,
                                    detail := [(2, m), (1, cause)] })
    else if l.valid then
      let th : Thread := { ({} : Thread).setReg 1 (BitVec.ofNat 64 l.arg) with pc := BitVec.ofNat 20 l.pc0, run := .ready }
      .next (s.setMast m (x.setThread 0 th))
    else .next (s.setMast m x)

/-- SHUTTER_ENTRY (R117): after 64 idle cycles the mast stops its own clock. -/
def execShutterEntry (m : Nat) (s : State) : Result :=
  guardEvent (s.mayShutter m) s
    (.next ((s.setMast m { s.mast m with power := .shuttered }).bump (0x3800 + mastDie m) 2 1))

/-- SHUTTERED_WAKE (R117): a watch ended, mesh traffic arrives, or a power request came. -/
def execShutteredWake (m : Nat) (s : State) : Result :=
  let x := s.mast m
  guardEvent (x.power == .shuttered && ((x.threads.any fun e => e.2.run == .ready) || s.meshBusy m || x.goal.isSome)) s
    (.next (s.setMast m { x with power := .lit }))

/-- MAST_POWER_DOWN (R118, R120): the pending request takes effect, and a held power-up then proceeds. -/
def execMastPowerDown (m : Nat) (s : State) : Result :=
  let x := s.mast m
  match x.goal with
  | none => .next s
  | some g =>
    if !s.mayPowerDown m then .next s
    else
      let y := if g = .wick then x.wicked else x.darkened
      let s := s.setMast m y
      let s := if x.held then s.grantMast m else s
      .next (s.settleTree (mastDie m))

/-- WICK_WAKE_DONE (R119): the mast is Lit, its operand cache reads zero, and it launches. -/
def execWickWakeDone (m : Nat) (s : State) : Result :=
  let x := s.mast m
  guardEvent (x.power == .wakingWick) s (.next ((s.setMast m { x with power := .lit, cache := [] }).launchMast m))

/-- DARK_WAKE_DONE (R119): the scrub has zeroed the mast; it launches, or goes to Wick without a launch. -/
def execDarkWakeDone (m : Nat) (s : State) : Result :=
  let x := s.mast m
  let clean := { x.darkened with goal := x.goal, held := x.held }
  match x.power with
  | .wakingDark => .next ((s.setMast m { clean with power := .lit }).launchMast m)
  | .wakingToWick => .next ((s.setMast m { clean with power := .wick }).settleTree (mastDie m))
  | _ => .next s

/-- Whether a mast sleeps deeper than its request asks, and no grant that it wants has been asked for. -/
def State.asksGrant (s : State) (m : Nat) : Bool :=
  let x := s.mast m
  let deeper := (s.mastRequest m = 0 && (x.power == .wick || x.power == .dark)) || (s.mastRequest m = 1 && x.power == .dark)
  decide (m < 3072) && deeper && x.goal.isNone && !s.grants.contains m

/-- GRANT_REQUEST (R39, R42, R432) of a mast's power-up: it is answered on the next pilot-clock edge, after that edge's flips,
under the settings as they then stand; refused, nothing starts. -/
def execGrantRequest (m : Nat) (s : State) : Result := guardEvent (s.asksGrant m) s (.next { s with grants := s.grants ++ [m] })

end Sys2Proof.Machine
end

