-- ==== Sys2Proof/Machine/Trim.lean ====
section
/-! DEFINITION. The trim unit: entries, the recurrence, the states of Table 8.5, refusals and the seal (R259 to R279). -/
namespace Sys2Proof.Machine

/-! ### Entries (R259, R260) -/

/-- The key of entry `e` of partition `p`. -/
def trimKey (p e : Nat) : Nat := 65536 * p + e

/-- Entry `e` of partition `p` in the trim unit; an unlisted entry is Idle. -/
def State.trim (s : State) (p e : Nat) : Trim := FMap.get s.trims (trimKey p e) {}
def State.setTrim (s : State) (p e : Nat) (x : Trim) : State := { s with trims := FMap.set s.trims (trimKey p e) {} x }

/-- The address of an entry (R259). -/
def State.trimAddr (s : State) (p e : Nat) : Nat := s.val (0x6340 + p) 1 + 64 * e

/-- The eight words of an entry (Table 8.1). -/
def State.trimWords (s : State) (p e : Nat) : List Nat :=
  (List.range 8).map fun i => s.load (s.trimAddr p e + 8 * i) 8

/-- Word `i` of an entry. -/
def trimWord (ws : List Nat) (i : Nat) : Nat := ws.getD i 0

/-- Fields of the CTRL word. -/
def trimCount (ws : List Nat) : Nat := field (trimWord ws 6) 63 32
def trimLre (ws : List Nat) : Int := signedOf 8 (field (trimWord ws 6) 31 24)
def trimCf (ws : List Nat) : Nat := field (trimWord ws 6) 23 20
def trimSp (ws : List Nat) : Nat := field (trimWord ws 6) 19 18
def trimGroup (ws : List Nat) : Nat := field (trimWord ws 6) 17 12
def trimDie (ws : List Nat) : Nat := field (trimWord ws 6) 11 8
def trimRowLen (ws : List Nat) : Nat := 64 * (field (trimWord ws 6) 7 0 + 1)

/-- The shard record of an entry. -/
def trimRecord (ws : List Nat) : Nat := field (trimWord ws 0) 40 0

/-- Elements of an entry: COUNT of a dense one, rows times row length of a sparse one (R260). -/
def trimElements (ws : List Nat) : Nat :=
  if trimSp ws = 0 then trimCount ws else trimCount ws * trimRowLen ws

/-- Bytes of one element of the compute copy. -/
def copyBytes (cf : Nat) : Nat := if cf = 0 then 4 else 2

/-- The difference of two step numbers as a signed 32-bit value (R271). -/
def stepDiff (a b : Nat) : Int := signedOf 32 (a + 2 ^ 32 - b % 2 ^ 32)

/-! ### The recurrence (R261 to R265) -/

/-- An F32 operation of the trim unit: one rounding, a subnormal result flushed (R262). -/
def rf (x : Fp) : Fp := roundF32 false x
def rMul (a b : Fp) : Fp := rf (a.mulX b)
def rAdd (a b : Fp) : Fp := rf (a.addX b)

/-- sign (R262). -/
def trimSign (x : Fp) : Fp :=
  match x with
  | .nan => .nan
  | .inf n => .fin ⟨n, 1, 0⟩
  | .fin d => if d.isZero then x else .fin ⟨d.neg, 1, 0⟩

/-- Coefficient `i` of a group, in the order of its subindices from 03h. -/
def coef (cs : List Nat) (i : Nat) : Fp := f32Format.decode (cs.getD i 0)

/-- Equal values: zeros of either sign are equal, a NaN equals nothing. -/
def sameValue (a b : Fp) : Bool := !a.isNan && !b.isNan && !a.lt b && !b.lt a

/-- The bias-correction factor of coefficient `b` at step `t` (R265). -/
def biasFactor (on : Bool) (b : Fp) (t : Nat) : Fp :=
  if !on || t = 0 || sameValue b fpOne then fpOne else roundF32 true (f64Div fpOne (f64Sub fpOne (power64 b t)))

/-- What one element becomes, and what it counts (R263). -/
structure TrimElem where
  w        : Nat
  m        : Nat
  v        : Nat
  copy     : Nat
  under    : Bool     -- unscaled gradient element became zero
  nonFin   : Bool     -- non-finite g
  flushed  : Nat      -- m and v results flushed
  badW     : Bool
  stagnant : Bool
deriving DecidableEq, Repr

/-- One element through R261: gradient bits in format `fmt`, drain exponent `k`, bias factors `b1` and `b2`. -/
def trimElem (cs : List Nat) (flags fmt : Nat) (k lre : Int) (cf : Nat) (b1 b2 : Fp) (grad : Nat) (w m v : Fp) : TrimElem :=
  let un := f32Format.narrow false false false ((decodeElem fmt grad).scale (-k))
  let g0 := rMul (f32Format.decode un.bits) (coef cs 10)
  let g := if bitOf flags 7 && !g0.isFinite then fpZero else g0
  let g1 := rAdd g (rMul (coef cs 8) w)
  let mm := bitOf flags 0
  let mv := bitOf flags 1
  let mn := f32Format.narrow false false false ((rMul (coef cs 1) m).addX (rMul (coef cs 2) g1))
  let m1 := if mm then f32Format.decode mn.bits else fpZero
  let vn := f32Format.narrow false false false ((rMul (coef cs 3) v).addX (rMul (coef cs 4) (rMul g1 g1)))
  let v1 := if mv then f32Format.decode vn.bits else v
  let n := rAdd (rMul (coef cs 5) (rMul m1 b1)) (rMul (coef cs 6) g1)
  let d := match field flags 5 4 with
    | 0 => fpOne
    | 1 => rAdd (rf (rMul v1 b2).sqrtX) (coef cs 7)
    | _ => rf (rAdd (rMul v1 b2) (coef cs 7)).sqrtX
  let u := if bitOf flags 6 then trimSign n else rf (n.divX d)
  let dd := rMul (coef cs 0) (rAdd u (rMul (coef cs 9) w))
  let w1 := rf (w.addX (dd.scale lre).negate)
  { w := (toF32Bits false w1).toNat, m := (toF32Bits false m1).toNat, v := (toF32Bits false v1).toNat
    copy := (narrowElem cf false false false w1).bits
    under := un.note == .underflow
    nonFin := !g0.isFinite
    flushed := (if mm && mn.note == .underflow then 1 else 0) + (if mv && vn.note == .underflow then 1 else 0)
    badW := !w1.isFinite
    stagnant := dd.isFinite && !dd.isZero && sameValue w1 w }

/-- Adds one element's counts to the objects of die `d` (R263). -/
def State.countTrim (s : State) (d : Nat) (e : TrimElem) : State :=
  let add := fun (s : State) (sub n : Nat) => if n = 0 then s else s.bump (0x6350 + d) sub n
  let one := fun (b : Bool) => if b then 1 else 0
  add (add (add (add (add s 7 (one e.under)) 8 (one e.nonFin)) 9 e.flushed) 0xA (one e.badW)) 6 (one e.stagnant)

/-- Where one element lies: master, moments, gradient and compute copy. -/
structure TrimPlace where
  master : Nat
  mom1   : Nat
  mom2   : Nat
  grad   : Nat
  copy   : Nat
deriving DecidableEq, Repr

/-- The places of element `i` whose gradient is the `j`-th value at `g` (R260, R266). -/
def trimPlace (ws : List Nat) (slotAddr i g j : Nat) : TrimPlace :=
  ⟨field (trimWord ws 1) 40 0 + 4 * i, field (trimWord ws 2) 40 0 + 4 * i, field (trimWord ws 3) 40 0 + 4 * i, g + 2 * j,
   slotAddr + copyBytes (trimCf ws) * i⟩

/-- The factors of one update or one row: b1, b2, and the catch-up factors of m and v (R265, R267). -/
structure TrimFactors where
  b1 : Fp
  b2 : Fp
  c1 : Option Fp
  c2 : Option Fp
deriving DecidableEq, Repr

/-- The factors at step number `t`, with `j` skipped steps to catch up. -/
def trimFactors (x : Trim) (t j : Nat) : TrimFactors :=
  { b1 := biasFactor (bitOf x.flags 3) (coef x.coefs 1) t
    b2 := biasFactor (bitOf x.flags 2) (coef x.coefs 3) t
    c1 := if j = 0 then none else some (roundF32 true (power64 (coef x.coefs 1) j))
    c2 := if j = 0 then none else some (roundF32 true (power64 (coef x.coefs 3) j)) }

/-- A moment before R261: caught up by one multiplication where steps were skipped (R267). -/
def caughtUp (c : Option Fp) (m : Fp) : Fp := match c with | none => m | some f => rMul m f

/-- The arrays of `n` elements from `first` on that an update reads, and those that it writes; the gradient's are the values
from the `j0`-th at `g` on. A moment that is not kept is neither (R264). -/
def trimSpans (x : Trim) (slotAddr first n g j0 : Nat) : List (Nat × Nat) × List (Nat × Nat) :=
  let ws := x.words
  let lie := fun (w : Nat) => (field (trimWord ws w) 40 0 + 4 * first, 4 * n)
  let both := lie 1 :: ((if bitOf x.flags 0 then [lie 2] else []) ++ if bitOf x.flags 1 then [lie 3] else [])
  ((g + 2 * j0, 2 * n) :: both, both ++ [(slotAddr + copyBytes (trimCf ws) * first, copyBytes (trimCf ws) * n)])

/-- The requests of the trim unit for a span of elements reach the homes (R206, R209, R276). -/
def State.trimFetch (s : State) (who : Nat) (spans : List (Nat × Nat) × List (Nat × Nat)) : State :=
  let ask := fun (op : HomeOp) (s : State) (xs : List (Nat × Nat)) =>
    xs.foldl (fun s e => if e.2 = 0 then s else s.accessHome who op e.1 e.2) s
  ask .write (ask .read s spans.1) spans.2

/-- Reads, updates and writes one element; `keep` says which of master, moments and copy (bits 0 to 3) stay old, for an
interrupted update (R274). A moment that is not kept is neither read nor written; where DEN uses v without MV, the spec
states no v, which is a function of the element that nothing gives (R77, log 1). -/
def State.trimOne (s : State) (x : Trim) (f : TrimFactors) (pl : TrimPlace) (keep : Nat) : TrimElem × State :=
  let ws := x.words
  let mm := bitOf x.flags 0
  let mv := bitOf x.flags 1
  let (g, s) := s.engineValue pl.grad 2
  let (w, s) := s.engineValue pl.master 4
  let (m, s) := if mm then s.engineValue pl.mom1 4 else (0, s)
  let (v, s) := if mv then s.engineValue pl.mom2 4
    else (if field x.flags 5 4 = 0 then 0 else Config.unkeptMoment w m g % 2 ^ 32, s)
  let e := trimElem x.coefs x.flags x.fmt (signedOf 8 x.k) (trimLre ws) (trimCf ws) f.b1 f.b2 g (f32Format.decode w)
    (caughtUp f.c1 (f32Format.decode m)) (caughtUp f.c2 (f32Format.decode v))
  let s := if bitOf keep 0 then s else s.engineKeep pl.master 4 e.w
  let s := if mm && !bitOf keep 1 then s.engineKeep pl.mom1 4 e.m else s
  let s := if mv && !bitOf keep 2 then s.engineKeep pl.mom2 4 e.v else s
  let s := if bitOf keep 3 then s else s.engineKeep pl.copy (copyBytes (trimCf ws)) e.copy
  (e, s)

/-- The rows that a sparse gradient lists, with the offset of its first row of elements (Table 8.4). -/
def State.sparseRows (s : State) (grad : Nat) : List Nat × Nat :=
  let c := s.load grad 4
  ((List.range c).map fun i => s.load (grad + 64 + 4 * i) 4, 64 + 64 * ((c + 15) / 16))

/-- Whether row indices ascend and lie below COUNT (R266, R279). -/
def rowsValid (count : Nat) : List Nat → Bool
  | [] => true
  | [r] => r < count
  | r :: q :: rest => decide (r < q) && decide (r < count) && rowsValid count (q :: rest)

/-- Runs the elements of an update; `old` chooses, from an open number per element, what stays old where a reset
interrupts it (R274). Counts only where the update runs to its end. -/
def State.trimSpan (s : State) (who : Nat) (x : Trim) (f : TrimFactors) (d slotAddr first n g j0 : Nat)
    (interrupted : Bool) : State :=
  forRange n (s.trimFetch who (trimSpans x slotAddr first n g j0)) fun i s =>
    let (keep, s) := if interrupted then s.open 4 else (0, s)
    let (e, s) := s.trimOne x f (trimPlace x.words slotAddr (first + i) g (j0 + i)) keep
    if interrupted then s else s.countTrim d e

/-- The whole update of entry `e` of partition `p` in Running: a dense one, or the rows that a sparse one lists (R261, R266,
R267). -/
def State.trimRun (s : State) (p e : Nat) (x : Trim) (interrupted : Bool) : State :=
  let ws := x.words
  let d := trimDie ws
  let who := trimWho d p e
  let slotAddr := s.load (trimRecord ws + 24 + 8 * x.slot) 8 % 2 ^ 41
  let g := field (trimWord ws 4) 40 0
  if trimSp ws = 0 then s.trimSpan who x (trimFactors x x.step 0) d slotAddr 0 (trimCount ws) g 0 interrupted
  else
    let (rows, off) := s.sparseRows g
    let len := trimRowLen ws
    (rows.zip (List.range rows.length)).foldl (fun s (r, i) =>
      let a := field (trimWord ws 5) 40 0 + 8 * r
      let last := s.load (a + 4) 4
      let count := s.load a 4
      let j := if trimSp ws = 1 ∨ count = 0 then 0 else (x.step + 2 ^ 33 - last - 1) % 2 ^ 32
      let t := if trimSp ws = 1 then count + 1 else x.step
      let s := s.trimSpan who x (trimFactors x t j) d slotAddr (r * len) len (g + off) (i * len) interrupted
      if interrupted then s
      else (s.engineStore who a 8 (x.step * 2 ^ 32 + (count + 1) % 2 ^ 32)).bump (0x6350 + d) 2 1) s

/-! ### Refusals (R271 to R273) -/

/-- Refuses one entry's update: Idle, counted; the event is the caller's. -/
def State.dropTrim (s : State) (p e : Nat) : State :=
  (s.setTrim p e {}).bump (0x6350 + trimDie (s.trimWords p e)) 4 1

/-- Posts TRIM_UPDATE_REFUSED with an entry number or a count (R273). -/
def State.postRefused (s : State) (d p entry step cause : Nat) : State :=
  s.post { code := 0x3460, plane := 1, part := p, kind := 7, num := d,
           detail := [(1, p), (2, entry), (4, step), (1, cause)] }

/-- Refuses one entry's update with its own event. -/
def State.refuseTrim (s : State) (p e cause : Nat) : State :=
  let d := trimDie (s.trimWords p e)
  (s.dropTrim p e).postRefused d p e (s.trim p e).step cause

/-- The first of causes 2, 3, 6, 7, 8 and 9 of Table 8.6 that holds for a complete gradient, 0 for none; cause 9 also where
the entry's die is down (R444). -/
def State.trimCause (s : State) (p : Nat) (x : Trim) (ws : List Nat) : Nat :=
  if stepDiff x.step (trimWord ws 7) ≤ 0 then 2
  else if x.differ then 3
  else if trimSp ws ≠ 0 ∧ bitOf (s.load (trimRecord ws + 48) 8) 0 then 6
  else if (trimSp ws = 0 ∧ trimCount ws % 64 ≠ 0) ∨ s.load (trimRecord ws + 40) 8 ≠ trimElements ws * copyBytes (trimCf ws)
    then 7
  else if s.val (0x6300 + trimGroup ws) 1 ≠ p then 8
  else if s.domainDown (trimDie ws) then 9
  else 0

/-- A step that skips is counted and posted (R271). -/
def State.trimSkew (s : State) (p e : Nat) (x : Trim) (ws : List Nat) : State :=
  if 1 < stepDiff x.step (trimWord ws 7) then
    (s.bump (0x6350 + trimDie ws) 5 1).postLimited (trimKey p e) msTicks
      { code := 0x3450, plane := 1, part := p, kind := 7, num := trimDie ws,
        detail := [(1, p), (2, e), (4, x.step), (4, trimWord ws 7)] }
  else s

/-- An entry enters Checking: its words and its group's flags and coefficients are sampled (R275). -/
def State.startChecking (s : State) (p e : Nat) : State :=
  let x := s.trim p e
  let ws := s.trimWords p e
  let g := 0x6300 + trimGroup ws
  let s := s.trimSkew p e x ws
  s.setTrim p e { x with st := .checking, words := ws, flags := s.val g 2,
                         coefs := (List.range 11).map fun i => s.val g (3 + i) }

/-! ### Chunks, completion, seal, abort and resets (Table 8.5) -/

/-- Whether a chunk of step `step` must wait at its port for the entry (R275). -/
def State.trimBusy (s : State) (p e step : Nat) : Bool :=
  let x := s.trim p e
  match x.st with
  | .idle => false
  | .gathering => false
  | _ => decide (0 < stepDiff step x.step)

/-- A chunk of a step was delivered at GRAD: its header is recorded or compared (R270, R275). -/
def State.trimChunk (s : State) (p e step fmt k : Nat) (poison : Bool) : State :=
  let x := s.trim p e
  match x.st with
  | .idle => s.setTrim p e { st := .gathering, step := step, fmt := fmt, k := k, poison := poison }
  | .gathering =>
    s.setTrim p e { x with poison := x.poison || poison,
                           differ := x.differ || step != x.step || fmt != x.fmt || k != x.k }
  | _ => s

/-- The gradient of an entry is complete with `landed` bytes (Table 8.5): the checks, then Checking or, in a sealing
partition, the wait for the seal. -/
def State.trimComplete (s : State) (p e landed : Nat) (sealing : Bool) : State :=
  let x : Trim := { s.trim p e with landed := landed }
  if x.st != .gathering then s
  else
    let s := s.setTrim p e x
    let c := s.trimCause p x (s.trimWords p e)
    if sealing then s.setTrim p e { x with st := .awaiting, cause := c }
    else if x.poison then s.refuseTrim p e 1
    else if c ≠ 0 then s.refuseTrim p e c
    else s.startChecking p e

/-- The entries of a partition in a given state, ascending. -/
def State.trimsIn (s : State) (p : Nat) (st : TrimState) : List Nat :=
  (s.trims.filter fun t => t.1 / 65536 = p && t.2.st == st).map fun t => t.1 % 65536

/-- The lowest cause among those that apply, 0 for none (Table 8.6). -/
def firstCause (cs : List Nat) : Nat :=
  cs.foldl (fun a c => if c = 0 then a else if a = 0 then c else min a c) 0

/-- The seal of a partition's step (R244, Table 8.5): every entry goes on, or the whole step is refused with one event. -/
def State.trimSeal (s : State) (p step : Nat) (poison : Bool) : State :=
  let waiting := s.trimsIn p .awaiting
  let partly := s.trimsIn p .gathering
  let noted := waiting.map fun e => (s.trim p e).cause
  let c := firstCause ((if poison || waiting.any (fun e => (s.trim p e).poison) then 1 else 0) ::
    (if partly.isEmpty then 0 else 4) :: noted)
  if c = 0 then waiting.foldl (fun s e => s.startChecking p e) s
  else
    let all := (waiting ++ partly).foldl (fun l e => insertSorted e l) []
    let d := match all with | e :: _ => trimDie (s.trimWords p e) | [] => 0
    if all.isEmpty then s
    else (all.foldl (fun s e => s.dropTrim p e) s).postRefused d p all.length step c

/-- An abort of the plan that holds the seal: the waiting entries are refused with cause 5. -/
def State.trimAbort (s : State) (p step : Nat) : State :=
  let waiting := s.trimsIn p .awaiting
  match waiting with
  | [] => s
  | e :: _ =>
    let d := trimDie (s.trimWords p e)
    (waiting.foldl (fun s e => s.dropTrim p e) s).postRefused d p waiting.length step 5

/-- Whether a partition is sealing (R244): a resident plan disables retention or maps a backup copy. -/
def State.sealing (s : State) (p : Nat) : Bool :=
  s.loaded.any fun k =>
    let h := s.head k
    h.part == p && (h.bken || ((List.range h.nph).map (s.phase k)).any fun x => x.op == 1 && x.srck == 2 && !x.ret)

/-- Refuses the interrupted updates `es` of partition `p`: one event for each, in a sealing partition one for the step with
the number refused (R273, R278). -/
def State.refuseRunning (s : State) (p step : Nat) (es : List Nat) : State :=
  match es with
  | [] => s
  | e :: _ =>
    if s.sealing p then
      let d := trimDie (s.trimWords p e)
      (es.foldl (fun s e => s.dropTrim p e) s).postRefused d p es.length step 9
    else es.foldl (fun s e => s.refuseTrim p e 9) s

/-- A reset of the entries that `hit` names by partition and entry: each returns to Idle; a Running update is interrupted and
leaves each element old or new (R272, R274). -/
def State.trimReset (s : State) (hit : Nat → Nat → Trim → Bool) : State :=
  let xs := s.trims.filter fun t => hit (t.1 / 65536) (t.1 % 65536) t.2
  let run := xs.filter fun t => t.2.st == .running
  let s := xs.foldl (fun s t =>
    if t.2.st == .running then s.trimRun (t.1 / 65536) (t.1 % 65536) t.2 true
    else s.setTrim (t.1 / 65536) (t.1 % 65536) {}) s
  let groups := (run.map fun t => (t.1 / 65536, t.2.step)).eraseDups
  groups.foldl (fun s g => s.refuseRunning g.1 g.2
    ((run.filter fun t => t.1 / 65536 = g.1 && t.2.step = g.2).map fun t => t.1 % 65536)) s

/-- The entries of partition `p`. -/
def State.trimResetPart (s : State) (p : Nat) : State := s.trimReset fun q _ _ => q = p

/-- The entries that base die `d` runs. -/
def State.trimResetDie (s : State) (d : Nat) : State :=
  s.trimReset fun p e _ => trimDie (s.trimWords p e) = d

/-! ### The sequencer (R246, R272) -/

/-- The entry that die `d` checks next: the lowest entry number in Checking that no host error holds up. -/
def State.nextCheck (s : State) (d : Nat) : Option (Nat × Nat) :=
  let xs := s.trims.filter fun t => t.2.st == .checking && t.2.wild.isNone && trimDie t.2.words = d
  let keys := xs.map fun t => (t.1 % 65536, t.1 / 65536)
  match keys.foldl (fun (a : Option (Nat × Nat)) k => match a with
    | none => some k
    | some b => if k.1 < b.1 ∨ (k.1 = b.1 ∧ k.2 < b.2) then some k else some b) none with
  | some (e, p) => some (p, e)
  | none => none

/-- Entries that die `d` runs; at most 4. -/
def State.trimsRunning (s : State) (d : Nat) : Nat :=
  (s.trims.filter fun t => t.2.st == .running && trimDie t.2.words = d).length

/-- The target slot of a shard record (R246). -/
def State.targetSlot (s : State) (shard : Nat) : Nat :=
  let cur := s.load (shard + 16) 8 % 2
  if bitOf (s.load (shard + 48) 8) 0 then 1 - cur else cur

/-- Bytes of an entry's gradient: of a dense one 2 per element; of a sparse one what its first word lists (Table 8.4). -/
def State.gradientBytes (s : State) (ws : List Nat) : Nat :=
  if trimSp ws = 0 then 2 * trimCount ws
  else
    let c := s.load (field (trimWord ws 4) 40 0) 4
    64 + 64 * ((c + 15) / 16) + 2 * (c * trimRowLen ws)

/-- The arrays of an entry: master, gradient of `g` bytes, the moments its flags use, row states, and the slots of its record
(R260, R267, Table 7.4). -/
def State.trimArrays (s : State) (ws : List Nat) (flags g : Nat) : List (Nat × Nat) :=
  let n := trimElements ws
  let r := trimRecord ws
  let slot := fun i => (s.load (r + 24 + 8 * i) 8 % 2 ^ 41, n * copyBytes (trimCf ws))
  [(field (trimWord ws 1) 40 0, 4 * n), (field (trimWord ws 4) 40 0, g)] ++
    (if bitOf flags 0 then [(field (trimWord ws 2) 40 0, 4 * n)] else []) ++
    (if bitOf flags 1 then [(field (trimWord ws 3) 40 0, 4 * n)] else []) ++
    (if trimSp ws = 0 then [] else [(field (trimWord ws 5) 40 0, 8 * trimCount ws)]) ++
    (if bitOf (s.load (r + 48) 8) 0 then [slot 0, slot 1] else [slot (s.targetSlot r)])

/-- Whether two arrays share a byte. -/
def arraysMeet (a b : Nat × Nat) : Bool := a.1 < b.1 + b.2 && b.1 < a.1 + a.2 && a.2 != 0 && b.2 != 0

/-- Whether two arrays of one list share a byte. -/
def anyMeet : List (Nat × Nat) → Bool
  | [] => false
  | a :: rest => rest.any (arraysMeet a) || anyMeet rest

/-- The host errors of R279 that a check of entry `e` meets; of another sparse entry's gradient only the head is known. -/
def State.trimHostError (s : State) (p e : Nat) (x : Trim) : Option Nat :=
  let ws := x.words
  let mine := s.trimArrays ws x.flags (s.gradientBytes ws)
  let others := ((List.range (s.val (0x6340 + p) 2)).filter fun i => i != e && trimCount (s.trimWords p i) != 0).map fun i =>
    s.trimWords p i
  if trimSp ws = 3 ∨ !([0, 2, 3].contains (trimCf ws)) then some 6
  else if x.landed < s.gradientBytes ws then some (if trimSp ws = 0 then 3 else 2)
  else if trimSp ws ≠ 0 ∧ !rowsValid (trimCount ws) (s.sparseRows (field (trimWord ws 4) 40 0)).1 then some 2
  else if mine.any (fun a => !s.inWindows p a.1 a.2 []) || anyMeet mine ||
      others.any (fun o => (s.trimArrays o (s.val (0x6300 + trimGroup o) 2) (if trimSp o = 0 then 2 * trimCount o else 64)).any
        fun b => mine.any (arraysMeet b)) then some 1
  else if others.any fun o => trimRecord o == trimRecord ws then some 4
  else none

/-- TRIM_CHECK (R246, R272): die `d` checks the target slot of its next entry, which runs or is held; an entry that meets a
host error of R279 is held up where it is, until a reset returns it to Idle (R123, log 51). -/
def execTrimCheck (d : Nat) (s : State) : Result :=
  match s.nextCheck d with
  | none => .next s
  | some (p, e) =>
    guardEvent (decide (s.trimsRunning d < 4)) s <|
    let x := s.trim p e
    match s.trimHostError p e x with
    | some item => .next (s.setTrim p e { x with wild := some item })
    | none =>
      let shard := trimRecord x.words
      let t := s.targetSlot shard
      let a := shard + 8 * t
      let s := s.homeAtomic (trimWho d p e) a
      let w := s.load a 8
      if w % 2 ^ 32 = 0 then .next ((s.store a 8 (setBit w 31 true)).setTrim p e { x with st := .running, slot := t })
      else
        .next (((s.setTrim p e { x with st := .held }).bump (0x3600 + d) 9 1).postLimited shard msTicks
          { code := 0x3420, plane := 1, part := p, kind := 7, num := d, detail := [(2, e), (4, w % 2 ^ 31)] })

/-- TRIM_HELD_RECHECK (R246): the references of a held entry's target slot have reached zero. -/
def execTrimHeldRecheck (p e : Nat) (s : State) : Result :=
  let x := s.trim p e
  let shard := trimRecord x.words
  guardEvent (x.st == .held && s.load (shard + 8 * s.targetSlot shard) 8 % 2 ^ 31 == 0) s <|
    .next (s.setTrim p e { x with st := .checking })

/-- The end of an update (R246): version, WRITING and CUR in one step, T takes S, the counts of R263 and Table 8.9. -/
def State.trimFinish (s : State) (p e : Nat) : State :=
  let x := s.trim p e
  let ws := x.words
  let d := trimDie ws
  let s := s.trimRun p e x false
  let shard := trimRecord ws
  let a := shard + 8 * x.slot
  let s := s.homeAtomic (trimWho d p e) a
  let ver := s.load (shard + 8 * (s.load (shard + 16) 8 % 2)) 8 / 2 ^ 32
  let s := s.store a 8 (((ver + 1) % 2 ^ 32) * 2 ^ 32 + s.load a 8 % 2 ^ 31)
  let s := s.store (shard + 16) 8 x.slot
  let s := s.engineStore (trimWho d p e) (s.trimAddr p e + 56) 4 x.step
  let n := if trimSp ws = 0 then trimCount ws else (s.sparseRows (field (trimWord ws 4) 40 0)).1.length * trimRowLen ws
  let s := (s.bump (0x6350 + d) 1 n).bump (0x6350 + d) 3 1
  (s.bump (0x6300 + trimGroup ws) 0xE 1).setTrim p e {}

end Sys2Proof.Machine
end

