-- ==== Sys2Proof/Machine/Plans.lean ====
section
/-! DEFINITION. Collective plans: sources, chunks, adders, destinations, plan states, aborts and backups (R248, R249, R255,
R357 to R376, R383 to R387). -/
namespace Sys2Proof.Machine

/-! ### Slots (Table 11.7) -/

def State.plan (s : State) (k : Nat) : Plan := FMap.get s.plans k {}

/-- Puts a slot's state back; 5000h:03 and 5000h:04 report its step and state. -/
def State.setPlan (s : State) (k : Nat) (x : Plan) : State :=
  ({ s with plans := FMap.set s.plans k {} x }.setVal (0x5000 + k) 3 x.step).setVal (0x5000 + k) 4 x.st

/-- A plan with its work of the phase cleared; what it recorded for later phases stays. -/
def Plan.clean (x : Plan) : Plan :=
  { st := x.st, phase := x.phase, step := x.step, fired := x.fired, served := x.served, seen := x.seen }

/-- Whether a plan has a phase in progress (R373). -/
def Plan.inProgress (x : Plan) : Bool := x.st == 3 || x.st == 4 || x.st == 5 || (x.st == 2 && x.phase != 0)

/-- Sets a partition's poison bit (R243): cause and the base die where it was detected. -/
def State.setPoison (s : State) (p cause d : Nat) : State :=
  let x := s.part p
  if x.poison then s
  else ((s.setPart p { x with poison := true }).setVal 0x3620 (p + 1) 1).post
    { code := 0x3440, plane := 2, part := p, kind := 2, num := d, detail := [(1, p), (1, cause)] }

/-- Clears it. -/
def State.clearPoison (s : State) (p : Nat) : State :=
  (s.setPart p { s.part p with poison := false }).setVal 0x3620 (p + 1) 0

/-! ### Chunks (R366, R386) -/

/-- The 32 bytes of a chunk header (Table 11.6). -/
def chunkHeader (c : Chunk) : Nat :=
  c.planId % 2 ^ 16 + c.phase % 32 * 2 ^ 16 + c.ctype % 16 * 2 ^ 21 + (if c.poison then 2 ^ 25 else 0) +
  (if c.cp then 2 ^ 26 else 0) + c.gf % 16 * 2 ^ 27 + (if c.half then 2 ^ 31 else 0) + c.k % 256 * 2 ^ 32 +
  c.die % 16 * 2 ^ 40 + c.rank % 64 * 2 ^ 44 + c.step % 2 ^ 32 * 2 ^ 56 + c.version % 2 ^ 32 * 2 ^ 88 +
  c.index % 2 ^ 24 * 2 ^ 120 + c.len % 2 ^ 21 * 2 ^ 144

/-- The digest of a chunk: SHAKE256 of its header with CTYPE and POISON cleared, then the payload (R386). -/
def chunkDigest (c : Chunk) : Nat :=
  (shake256 (Octets.append ⟨32, chunkHeader { c with ctype := 0, poison := false }⟩ ⟨c.len, c.payload⟩) 8).bits

/-- A chunk as it travels: header, payload, trailer. -/
def chunkBytes (c : Chunk) : Octets :=
  Octets.append (Octets.append ⟨32, chunkHeader c⟩ ⟨c.len, c.payload % 2 ^ (8 * c.len)⟩)
    ⟨16, c.digest % 2 ^ 64 + if c.trailerPoison then 2 ^ 64 else 0⟩

/-- Whether a chunk carries poison (R367); a placeholder does. -/
def chunkPoisoned (c : Chunk) : Bool := c.poison || c.trailerPoison || c.ctype == 2

/-- A data chunk of a plan's phase. -/
def mkChunk (h : PlanHead) (x : Phase) (i step rank half die index version : Nat) (pairs poison : Bool) (payload : Octets) :
    Chunk :=
  let c : Chunk :=
    { len := payload.len, index := index, version := version, step := step, rank := rank, die := die, k := x.k,
      half := half == 1, gf := h.gf, cp := pairs, poison := poison, ctype := 0, phase := i, planId := h.id,
      payload := payload.bits, digest := 0, trailerPoison := poison }
  { c with digest := chunkDigest c }

/-- Sends a chunk to a member: as a message of kind CHUNK on the plan's VC, remembered until it is acknowledged (R369,
R374). A member that is this package itself is a die pair's matter and sends nothing. -/
def State.sendChunk (s : State) (k : Nat) (h : PlanHead) (dst : Nat) (resend : Bool) (c : Chunk) : State :=
  let n := s.sentNum + 1
  let s := { s with sentNum := n, sent := FMap.put s.sent n { slot := k, phase := c.phase, dst := dst, resend := resend, c := c } }
  s.sendTo h.vc dst n (message 0x0201 0 0 0 (chunkBytes c))

/-! ### Adders (R371, R372) -/

/-- The counted adder event (R371): an overflow from finite inputs, or a NaN made of inputs that are not NaN. -/
def adderEvent (xs : List Fp) (out : Fp) : Bool :=
  (xs.all Fp.isFinite && !out.isFinite) || (out.isNan && !(xs.any Fp.isNan))

/-- One addition in round-to-nearest-even mode (R371). -/
def addRne (gf a b : Nat) : Nat × Bool :=
  let x := decodeElem gf a
  let y := decodeElem gf b
  let r := (narrowElem gf false false false (roundF32 true (x.addX y))).bits
  (r, adderEvent [x, y] (decodeElem gf r))

/-- One addition of pairs (R372): low half hi, high half lo. -/
def addPair (gf a b : Nat) : Nat × Bool :=
  let xs := [a % 65536, a / 65536, b % 65536, b / 65536].map (decodeElem gf)
  let t := xs.foldl Fp.addX (.fin (Dyad.zero true))
  let hi := (narrowElem gf false true false t).bits
  let lo := match t, decodeElem gf hi with
    | .fin d, .fin e => (narrowElem gf false true false (.fin (d.sub e))).bits
    | _, _ => 0
  (hi + lo * 65536, adderEvent xs (decodeElem gf hi))

/-- A pair at the last rank of a block: RNE(hi + lo), or hi where it is not finite (R372). -/
def collapsePair (gf a : Nat) : Nat :=
  match decodeElem gf (a % 65536), decodeElem gf (a / 65536) with
  | .fin d, .fin e => (narrowElem gf false true false (.fin (d.add e))).bits
  | _, _ => a % 65536

/-- Element `i` of packed values of `eb` bytes. -/
def valueAt (eb v i : Nat) : Nat := (v >>> (8 * eb * i)) % 2 ^ (8 * eb)

/-- Packs values of `eb` bytes. -/
def packValues (eb : Nat) (vs : List Nat) : Nat := vs.foldr (fun v acc => v + acc <<< (8 * eb)) 0

/-- Adds the rank's own values into a passing sum: the received sum first (R360). -/
def addChunk (gf eb n a b : Nat) : Nat × Nat :=
  let rs := (List.range n).map fun i =>
    if eb = 4 then addPair gf (valueAt 4 a i) (valueAt 4 b i) else addRne gf (valueAt 2 a i) (valueAt 2 b i)
  (packValues eb (rs.map (·.1)), (rs.filter (·.2)).length)

/-! ### Reading sources (R363) -/

/-- Reads bytes by the scheduler, as requester `who`, at their homes: value, whether a poisoned half was met. -/
def State.engineRead (s : State) (who a n : Nat) : (Nat × Bool) × State :=
  (linePieces a n).foldl (fun (x : (Nat × Bool) × State) (b, k) =>
    let bad := x.2.badRange b k
    let (v, s) := x.2.engineLoad who b k
    ((x.1.1 + v <<< (8 * (b - a)), x.1.2 || bad), s)) ((0, false), s)

/-- Counts released values under the phase's tag, and notes whether all were zero (R251, R255). -/
def State.release (s : State) (k d : Nat) (h : PlanHead) (x : Phase) (ws : List Written) : State :=
  let s := s.countAll d (some h.part) x.ttag h.gf ws
  let p := s.plan k
  s.setPlan k { p with quiet := p.quiet && ws.all (fun w => w.value.isZero), released := p.released + ws.length }

/-- Takes the values of a memory source of a reduction. -/
def State.takeMemory (s : State) (k d : Nat) (h : PlanHead) (x : Phase) : State :=
  let eb := valueBytes h.cp
  let ((v, bad), s) := s.engineRead (planWho k) x.saddr (eb * x.count)
  let ws := (List.range x.count).map fun i =>
    let b := valueAt eb v i % 65536
    (⟨b, .plain, decodeElem h.gf b, subnormalIn h.gf b, 0, 0⟩ : Written)
  let s := s.release k d h x ws
  let p := s.plan k
  s.setPlan k { p with vals := FMap.put p.vals d ⟨eb * x.count, v⟩,
                       bad := if bad || (s.part h.part).poison then insertSorted d p.bad else p.bad }

/-- Starts the drain of die `d`'s pane: its first N elements are narrowed, released and zeroed (R240, R241). -/
def State.drainPane (s : State) (k i d : Nat) (h : PlanHead) (x : Phase) : State :=
  let (base, _) := s.paneSpan h.part d x.pane
  let es := (List.range x.count).map fun j =>
    drainElement h.gf (signedOf 8 x.k) (FMap.readLE s.grad (gradKey d (base + 4 * j)) 4)
  let eb := valueBytes h.cp
  let v := packValues eb (es.map fun e => if h.cp then e.1.bits + e.2 * 65536 else e.1.bits)
  let s := { s with grad := FMap.clearRange s.grad (gradKey d base) (gradKey d (base + 4 * x.count)) }
  let s := (s.setPane h.part d x.pane { s.pane h.part d x.pane with st := .draining k i }).bump (0x3600 + d) 2 x.count
  let s := s.release k d h x (es.map (·.1))
  let p := s.plan k
  s.setPlan k { p with vals := FMap.put p.vals d ⟨eb * x.count, v⟩,
                       bad := if (s.part h.part).poison then insertSorted d p.bad else p.bad }

/-- Die `d`'s pane of a phase starts draining now, or its start is held behind those held already (R240). -/
def State.startPane (s : State) (k i d : Nat) (h : PlanHead) (x : Phase) : State :=
  let y := s.pane h.part d x.pane
  if y.draining then s.setPane h.part d x.pane { y with held := y.held ++ [(k, i)] } else s.drainPane k i d h x

/-- The slot and version of a shard gather (R248, R249): the current slot, or in a re-gather the version served in the
paired phase where a slot still holds it whole. -/
def State.shardSlot (s : State) (k : Nat) (x : Phase) : Nat × Nat :=
  let word := fun t => s.load (x.saddr + 8 * t) 8
  let cur := s.load (x.saddr + 16) 8 % 2
  let now := (cur, word cur / 2 ^ 32)
  if !bitOf x.k 7 then now
  else
    let was := FMap.get (s.plan k).served (x.k % 32) 0
    if was = 0 then now
    else
      let ver := (was - 1) % 2 ^ 32
      match [(was - 1) / 2 ^ 32, 0, 1].find? fun t =>
        word t / 2 ^ 32 = ver && !bitOf (word t) 31 && (t = 0 || bitOf (s.load (x.saddr + 48) 8) 0) with
      | some t => (t, ver)
      | none => now

/-- Takes the owner's references when a gather with retention begins (R248): one for each gatherer. -/
def State.takeReferences (s : State) (k rec slot n : Nat) (up : Bool) : State :=
  let a := rec + 8 * slot
  let w := s.load a 8
  let refs := if up then w % 2 ^ 31 + n else w % 2 ^ 31 + 2 ^ 31 - n
  (s.homeAtomic (planWho k) a).store a 8 (w / 2 ^ 31 * 2 ^ 31 + refs % 2 ^ 31)

/-- Whether the owner may take its references now: the slot that it would serve is not being written (R247, R248). -/
def State.shardFree (s : State) (x : Phase) : Bool :=
  !(x.ret && !bitOf x.k 7) || !bitOf (s.load (x.saddr + 8 * (s.load (x.saddr + 16) 8 % 2)) 8) 31

/-- Takes a rank's block of a shard source; where the owner takes references it waits while WRITING is set (R247, R248). -/
def State.takeShard (s : State) (k i : Nat) (x : Phase) (n : Nat) : State :=
  if !s.shardFree x then s else
  let (t, ver) := s.shardSlot k x
  let addr := s.load (x.saddr + 24 + 8 * t) 8 % 2 ^ 41
  let ((v, bad), s) := s.engineRead (planWho k) addr n
  let s := if x.ret && !bitOf x.k 7 then s.takeReferences k x.saddr t (x.ranks - 1) true else s
  let p := s.plan k
  s.setPlan k { p with vals := FMap.put p.vals 0 ⟨n, v⟩, served := FMap.put p.served i (1 + t * 2 ^ 32 + ver),
                       bad := if bad then insertSorted 0 p.bad else p.bad }

/-! ### Destinations (R363, R365) -/

/-- Writes finished bytes of die ring `d` at a byte offset of the result, padding left out, and tells the trim unit what the
header of the chunk delivered says (R270). -/
def State.land (s : State) (k : Nat) (h : PlanHead) (x : Phase) (res d off real v : Nat) (c : Chunk) : State :=
  if x.dstk = 2 then s
  else if x.dstk = 1 then
    let e := x.daddr % 65536 + if x.srck = 1 then d else 0
    let g := trimWord (s.trimWords h.part e) 4 % 2 ^ 41
    let s := if real = 0 then s else s.engineStore (planWho k) (g + off) real v
    s.trimChunk h.part e c.step c.gf c.k (chunkPoisoned c)
  else if real = 0 then s
  else s.engineStore (planWho k) (x.daddr + ringOffset x res d + off) real v

/-- Whether a chunk that lands must wait for its trim entry (R275). -/
def State.landBusy (s : State) (h : PlanHead) (x : Phase) (d step : Nat) : Bool :=
  x.dstk == 1 && s.trimBusy h.part (x.daddr % 65536 + if x.srck = 1 then d else 0) step

/-! ### Receipts -/

/-- A number for a receipt: die ring, stage (0 reduce, 1 gather), block, half, chunk index. -/
def receiptKey (d stage block half index : Nat) : Nat := (((d * 2 + stage) * 64 + block) * 2 + half) * 2 ^ 24 + index

/-- The block whose part on a ring starts at rank `j` (R360). -/
def startBlock (p j half : Nat) : Nat := if half = 0 then (j + p - 1) % p else (j + 1) % p

/-- The next rank on a ring. -/
def nextRank (p j half : Nat) : Nat := if half = 0 then (j + 1) % p else (j + p - 1) % p

/-- Chunks of a run of bytes. -/
def chunkCount (h : PlanHead) (n : Nat) : Nat := (n + chunkSize h - 1) / chunkSize h

/-- Bytes of the first part of a broadcast (R359). -/
def broadcastPart (x : Phase) (half : Nat) : Nat :=
  let first := match x.dir with
    | 0 => min x.count (((x.count + 1) / 2 + 63) / 64 * 64)
    | 1 => x.count
    | _ => 0
  if half = 0 then first else x.count - first

/-- Bytes of a part: of rank block `i` in a stage, or of a broadcast. -/
def partBytes (h : PlanHead) (x : Phase) (splits : List Nat) (stage i half : Nat) : Nat :=
  match x.op with
  | 4 => broadcastPart x half
  | 5 => if half = 0 then x.count else 0
  | _ => 64 * (blockPart x.dir splits i half).2 * valueBytes (h.cp && x.reduces && stage == 0)

/-- The receipts that a phase needs at rank `j`. -/
def Plan.needs (y : Plan) (h : PlanHead) (x : Phase) (j : Nat) (dies : List Nat) : List Nat :=
  let p := x.ranks
  let part := fun d stage i half =>
    (List.range (chunkCount h (partBytes h x y.splits stage i half))).map (receiptKey d stage i half)
  dies.flatMap fun d => [0, 1].flatMap fun half =>
    match x.op with
    | 3 => if half = 1 then [] else (List.range p).flatMap fun i =>
        if i = j then [] else
        let total := FMap.get y.seen (4096 + i) 0
        (List.range (max 1 (chunkCount h (total - 1)))).map (receiptKey d 1 i 0)
    | 4 => if j = 0 then [] else part d 1 0 half
    | 5 => if j = 1 then part d 1 0 half else []
    | _ => (List.range p).flatMap fun i =>
      (if x.reduces && i != startBlock p j half then part d 0 i half else []) ++
      (if x.op = 1 || (x.op = 2 && i != j) then part d 1 i half else [])

/-! ### Local values and backups (R385) -/

/-- The index of a chunk in a backup contribution: the chunks of all blocks' parts of one half, in block order (log 27). -/
def contribIndex (h : PlanHead) (x : Phase) (splits : List Nat) (half i index : Nat) : Nat :=
  (List.range i).foldl (fun t b => t + chunkCount h (partBytes h x splits 0 b half)) index

/-- The key of a local value. -/
def localKey (d half cidx : Nat) : Nat := (d * 2 + half) * 2 ^ 32 + cidx

/-- Bytes `[off, off + n)` of own values, zeros beyond their end (R361). -/
def ownSlice (o : Octets) (off n : Nat) : Nat := (o.bits >>> (8 * off)) % 2 ^ (8 * n)

/-- The values of a part's chunk: byte offset in the vector, and length. -/
def chunkSpan (h : PlanHead) (x : Phase) (splits : List Nat) (stage i half index : Nat) : Nat × Nat :=
  let eb := valueBytes (h.cp && x.reduces && stage == 0)
  let start := match x.op with
    | 4 => if half = 0 then 0 else broadcastPart x 0
    | 5 => 0
    | _ => 64 * (blockPart x.dir splits i half).1 * eb
  (start + index * chunkSize h, min (chunkSize h) (partBytes h x splits stage i half - index * chunkSize h))

/-- The local value for a chunk of a reduction: the own source where it was read, else a backup's contribution. Answers
the bytes, their poison, and whether they are the backup's. -/
def Plan.localValue (y : Plan) (h : PlanHead) (x : Phase) (d i half index : Nat) : Option (Nat × Bool × Bool) :=
  match y.vals.find? (fun e => e.1 = d) with
  | some o =>
    if x.srck = 3 then some (0, false, false)
    else
      let (off, n) := chunkSpan h x y.splits 0 i half index
      some (ownSlice o.2 off n, y.bad.contains d, false)
  | none =>
    match y.contrib.find? (fun e => e.1 = localKey d half (contribIndex h x y.splits half i index)) with
    | some c => some (c.2.1.bits, c.2.2, true)
    | none => none

/-- Marks a local value as used; a backup's chunk used is counted (R385). -/
def State.useLocal (s : State) (k : Nat) (h : PlanHead) (x : Phase) (d i half index : Nat) (backup : Bool) : State :=
  let y := s.plan k
  let s := s.setPlan k { y with used := insertSorted (localKey d half (contribIndex h x y.splits half i index)) y.used }
  if backup then s.bump 0x50D0 4 1 else s

/-- Compares the digests of both copies of a chunk (R386), and poisons the step on a mismatch or on poison. -/
def State.compareCopies (s : State) (k i port : Nat) (h : PlanHead) (cidx : Nat) (mine theirs : Chunk) : State :=
  let s := if (chunkPoisoned mine) || (chunkPoisoned theirs) then s.setPoison h.part 2 (portDie port) else s
  if h.dgr = 31 || cidx % 2 ^ h.dgr != 0 then s
  else
    let a := chunkDigest mine
    let b := chunkDigest theirs
    let s := s.bump 0x50D0 5 1
    if a = b then s
    else (((s.bump 0x50D0 6 1).post
      { code := 0x3310, plane := 2, part := h.part, kind := 4, num := port,
        detail := [(1, k), (1, i), (4, cidx), (8, a), (8, b)] }).setPoison h.part 5 (portDie port))

/-! ### Rings (R357, R359, R360) -/

/-- Sends the parts with which rank `j` starts the rings of die ring `d`, and lands what is its own already; a rank whose
source is none sends nothing of its own (R363). -/
def State.startRing (s : State) (k i : Nat) (h : PlanHead) (x : Phase) (ms : List Nat) (j d : Nat) : State :=
  let p := ms.length
  let step := (s.plan k).step
  let ver := (FMap.get (s.plan k).served i 0 - 1) % 2 ^ 32
  [0, 1].foldl (fun s half =>
    let y := s.plan k
    let b := startBlock p j half
    let dst := ms.getD (nextRank p j half) 0
    if x.srck = 3 then s else match x.op with
    | 4 =>
      if j ≠ 0 then s else forRange (chunkCount h (partBytes h x y.splits 1 0 half)) s fun n s =>
        let (off, len) := chunkSpan h x y.splits 1 0 half n
        let o := FMap.get y.vals d ⟨0, 0⟩
        s.sendChunk k h dst true (mkChunk h x i step 0 half d n 0 false (y.bad.contains d) ⟨len, ownSlice o off len⟩)
    | 5 =>
      if j ≠ 0 ∨ half = 1 then s else forRange (chunkCount h x.count) s fun n s =>
        let (off, len) := chunkSpan h x y.splits 1 0 0 n
        let o := FMap.get y.vals d ⟨0, 0⟩
        s.sendChunk k h (ms.getD 1 0) true (mkChunk h x i step 0 0 d n 0 false (y.bad.contains d) ⟨len, ownSlice o off len⟩)
    | 1 =>
      forRange (chunkCount h (partBytes h x y.splits 1 j half)) s fun n s =>
        let (off, len) := chunkSpan h x y.splits 1 j half n
        let o := FMap.get y.vals d ⟨0, 0⟩
        let off := if x.srck = 2 then off - 128 * blockStart y.splits j else off
        let real := min len (2 * x.count - 64 * (blockPart x.dir y.splits j half).1 * 2 - n * chunkSize h)
        let c := mkChunk h x i step j half d n (if x.srck = 2 then ver else 0) false (y.bad.contains d) ⟨len, ownSlice o off real⟩
        let s := s.sendChunk k h dst true c
        if s.landBusy h x d step then
          { s with holds := FMap.put s.holds (s.holdNum + 1) { port := 7, src := s.coord, c := c, since := s.tick },
                   holdNum := s.holdNum + 1 }
        else
          let s := s.land k h x (2 * x.count) d ((blockPart x.dir y.splits j half).1 * 128 + n * chunkSize h) real c.payload c
          let y := s.plan k
          s.setPlan k { y with got := insertSorted (receiptKey d 1 j half n) y.got }
    | 3 => s
    | _ =>
      forRange (chunkCount h (partBytes h x y.splits 0 b half)) s fun n s =>
        let y := s.plan k
        let cidx := contribIndex h x y.splits half b n
        if y.used.contains (localKey d half cidx) then s
        else match y.localValue h x d b half n with
          | none => s
          | some (v, bad, backup) =>
            let (_, len) := chunkSpan h x y.splits 0 b half n
            let c := mkChunk h x i step b half d n 0 h.cp (bad || (s.part h.part).poison) ⟨len, v⟩
            (s.useLocal k h x d b half n backup).sendChunk k h dst false c) s

/-- Sends rank `j`'s blocks of an ALL_TO_ALL, and copies its own (R365). -/
def State.sendAll (s : State) (k i : Nat) (h : PlanHead) (x : Phase) (ms : List Nat) (j : Nat) : State :=
  if x.srck = 3 then s else forRange ms.length s fun r s =>
    let addr := s.load (x.saddr + 16 * r) 8 % 2 ^ 41
    let asked := s.load (x.saddr + 16 * r + 8) 4
    let n := min asked x.maxb
    let s := if x.maxb < asked then s.bump 0x50D0 9 1 else s
    let ((v, bad), s) := s.engineRead (planWho k) addr n
    let block : Octets := ⟨16 + n, asked + j * 2 ^ 32 + v <<< 128⟩
    if r = j then
      if x.dstk = 0 then s.engineStore (planWho k) (x.daddr + j * (x.maxb + 16)) block.len block.bits else s
    else forRange (chunkCount h block.len) s fun q s =>
      s.sendChunk k h (ms.getD r 0) true
        (mkChunk h x i (s.plan k).step j 0 0 q 0 false bad (block.slice (q * chunkSize h) (chunkSize h)))

/-- Compares the contributions that came before the own values of die ring `d` with them (R386). -/
def State.compareEarly (s : State) (k i d : Nat) (h : PlanHead) (x : Phase) : State :=
  let port := (s.phasePorts h x).2.getD 0 0
  let mine := (s.plan k).contrib.filter fun e => e.1 / 2 ^ 33 = d
  mine.foldl (fun s e =>
    let half := e.1 / 2 ^ 32 % 2
    let cidx := e.1 % 2 ^ 32
    let y := s.plan k
    (List.range x.ranks).foldl (fun s b =>
      let n := chunkCount h (partBytes h x y.splits 0 b half)
      let base := contribIndex h x y.splits half b 0
      if base ≤ cidx ∧ cidx < base + n then
        match y.localValue h x d b half (cidx - base), rankIn s.coord (s.members h x) with
        | some (v, bad, false), some j =>
          let (_, len) := chunkSpan h x y.splits 0 b half (cidx - base)
          let mk := fun (bad : Bool) (o : Octets) => mkChunk h x i y.step j half d cidx 0 h.cp bad o
          s.compareCopies k i port h cidx (mk (bad || (s.part h.part).poison) ⟨len, v⟩) (mk e.2.2 e.2.1)
        | _, _ => s
      else s) s) s

/-- Reads the source of die ring `d` where that is not a pane, or starts its drain; then its ring starts. -/
def State.startDie (s : State) (k i : Nat) (h : PlanHead) (x : Phase) (ms : List Nat) (j d : Nat) : State :=
  let s := match x.srck with
    | 1 => s.startPane k i d h x
    | 2 =>
      let y := s.plan k
      s.takeShard k i x (2 * ownCount x y.splits j)
    | 0 =>
      if x.reduces then s.takeMemory k d h x
      else if x.op = 3 ∨ ((x.op = 4 ∨ x.op = 5) ∧ j ≠ 0) then
        let y := s.plan k
        s.setPlan k { y with vals := FMap.put y.vals d ⟨0, 0⟩ }
      else
        let ((v, bad), s) := s.engineRead (planWho k) x.saddr ((if 4 ≤ x.op then 1 else 2) * x.count)
        let y := s.plan k
        s.setPlan k { y with vals := FMap.put y.vals d ⟨(if 4 ≤ x.op then 1 else 2) * x.count, v⟩,
                             bad := if bad then insertSorted d y.bad else y.bad }
    | _ =>
      let y := s.plan k
      s.setPlan k { y with vals := FMap.put y.vals d ⟨0, 0⟩ }
  if (s.plan k).vals.any fun e => e.1 = d then
    if x.op = 3 then s.sendAll k i h x ms j else (s.compareEarly k i d h x).startRing k i h x ms j d
  else s

/-! ### Versions and held chunks (R249, R275, R368) -/

/-- The version of a gathered shard's chunk is recorded, or compared with the one recorded (R249); `d` is the gathering
die. -/
def State.checkVersion (s : State) (k i d : Nat) (h : PlanHead) (x : Phase) (c : Chunk) : State :=
  if x.srck ≠ 2 then s
  else
    let y := s.plan k
    if !bitOf x.k 7 then
      s.setPlan k { y with seen := FMap.put y.seen (i * 64 + c.rank) (c.version + 1) }
    else
      let was := FMap.get y.seen ((x.k % 32) * 64 + c.rank) 0
      if x.ret || was = 0 || was = c.version + 1 then s
      else
        ((s.bump (0x3600 + d) 0xA 1).post
          { code := 0x3430, plane := 2, part := h.part, kind := 2, num := d,
            detail := [(2, c.rank), (4, was - 1), (4, c.version)] }).setPoison h.part 1 d

/-- The slot whose loaded plan has an identity: the lowest. -/
def State.slotOf (s : State) (id : Nat) : Option Nat := s.loaded.find? fun k => (s.head k).id == id

/-- Holds a chunk; a delivery deferred for a busy trim entry is counted once (R275). -/
def State.holdChunk (s : State) (q : HeldChunk) (n : Nat) : State :=
  let busy := match s.slotOf q.c.planId with
    | some k =>
      let x := s.phase k q.c.phase
      (s.plan k).st == 3 && (s.plan k).phase == q.c.phase && q.c.step == (s.plan k).step && s.landBusy (s.head k) x q.c.die q.c.step
    | none => false
  let d := match s.slotOf q.c.planId with
    | some k =>
      let x := s.phase k q.c.phase
      trimDie (s.trimWords (s.head k).part (x.daddr % 65536 + if x.srck = 1 then q.c.die else 0))
    | none => 0
  let s := if busy && !q.counted then s.bump (0x6350 + d) 0xB 1 else s
  { s with holds := FMap.put s.holds n { q with counted := q.counted || busy, unknown := (s.slotOf q.c.planId).isNone } }

/-! ### In-package phases (AXIS 00b): the ratline adders (R358, R370) -/

/-- The own value of a member die: its pane, or the phase's memory source (log 26). -/
def State.memberValue (s : State) (k : Nat) (x : Phase) (d : Nat) : Octets :=
  FMap.get (s.plan k).vals (if x.srck = 1 then d else 0) ⟨0, 0⟩

/-- Whether a member die's own value carries poison (R243, R367). -/
def State.memberBad (s : State) (k : Nat) (h : PlanHead) (x : Phase) (d : Nat) : Bool :=
  (s.plan k).bad.contains (if x.srck = 1 then d else 0) || (x.reduces && (s.part h.part).poison)

/-- The member dies in the order in which they add to block `i` (R360). -/
def addOrder (dies : List Nat) (i half : Nat) : List Nat :=
  let p := dies.length
  (List.range p).map fun t => dies.getD (if half = 0 then (i + 1 + t) % p else (i + 2 * p - 1 - t) % p) 0

/-- The sum of one part of block `i` over the member dies, collapsed at the last, with the events counted. -/
def State.partSum (s : State) (k : Nat) (h : PlanHead) (x : Phase) (dies : List Nat) (i half : Nat) : Nat × Nat :=
  let y := s.plan k
  let eb := valueBytes h.cp
  let (g0, g) := blockPart x.dir y.splits i half
  let val := fun d => ownSlice (s.memberValue k x d) (64 * g0 * eb) (64 * g * eb)
  let order := addOrder dies i half
  let (v, n) := (order.drop 1).foldl (fun (a : Nat × Nat) d =>
    let (v, n) := addChunk h.gf eb (64 * g) a.1 (val d); (v, a.2 + n)) (val (order.getD 0 0), 0)
  (if h.cp then packValues 2 ((List.range (64 * g)).map fun q => collapsePair h.gf (valueAt 4 v q)) else v, n)

/-- What a part of block `i` holds when it is delivered, and whether it carries poison: the sum, or the values of the rank
that owns the block (for a broadcast or a stream, of rank 0). -/
def State.partData (s : State) (k : Nat) (h : PlanHead) (x : Phase) (dies : List Nat) (i half : Nat) : Nat × Bool × Nat :=
  if x.reduces then
    let (v, n) := s.partSum k h x dies i half
    (v, dies.any (s.memberBad k h x), n)
  else
    let d := dies.getD i 0
    let (off, _) := chunkSpan h x (s.plan k).splits 1 i half 0
    (ownSlice (s.memberValue k x d) off (partBytes h x (s.plan k).splits 1 i half), s.memberBad k h x d, 0)

/-- The blocks of a phase whose parts travel, each with the dies that receive it: a sum goes to its owner or to all, a
gathered block to all, a broadcast to all but rank 0, a stream to rank 1. A source of kind none sends nothing (R363). -/
def insideBlocks (x : Phase) (dies : List Nat) : List (Nat × List Nat) :=
  if x.srck = 3 then []
  else match x.op with
    | 0 => (List.range dies.length).map fun b => (b, [dies.getD b 0])
    | 3 => []
    | 4 => [(0, dies.drop 1)]
    | 5 => [(0, (dies.drop 1).take 1)]
    | _ => (List.range dies.length).map fun b => (b, dies)

/-- The receipts that an in-package phase needs, all member dies together. -/
def insideNeeds (h : PlanHead) (x : Phase) (splits : List Nat) (dies : List Nat) : List Nat :=
  (insideBlocks x dies).flatMap fun (b, dsts) => [0, 1].flatMap fun half =>
    (List.range (chunkCount h (partBytes h x splits 1 b half))).flatMap fun n =>
      dsts.map fun d => receiptKey d 1 b half n

/-- The dies at which a part's chunks are received with poison, in order (R243): of a sum each die after the first whose
value carries it, then for all operations those that it is delivered to. -/
def State.poisonDies (s : State) (k : Nat) (h : PlanHead) (x : Phase) (dies : List Nat) (b half : Nat) (dsts : List Nat) : List Nat :=
  let order := addOrder dies b half
  let after := fun (t : Nat) => (order.take t).any (s.memberBad k h x)
  let hops := if x.reduces then (List.range order.length).filterMap fun t => if after t then some (order.getD t 0) else none else []
  let src := dies.getD b 0
  hops ++ dsts.filter fun d => d != src && (if x.reduces then dies.any (s.memberBad k h x) else s.memberBad k h x src)

/-- Takes a finished chunk of an in-package phase at die `c.die`: it lands, or must be held where its trim entry is busy
(R275). -/
def State.takeInside (s : State) (k i : Nat) (h : PlanHead) (x : Phase) (dies : List Nat) (c : Chunk) : Option State :=
  if s.landBusy h x c.die c.step then none
  else
    let y := s.plan k
    let half := if c.half then 1 else 0
    let (off, len) := chunkSpan h x y.splits 1 c.rank half c.index
    let total := if 4 ≤ x.op then x.count else 2 * x.count
    let real := min len (total - off)
    let at0 := off - if x.op = 0 then 128 * blockStart y.splits c.rank else 0
    let s := if x.op = 1 ∧ c.die ≠ dies.getD c.rank 0 then s.checkVersion k i c.die h x c else s
    let s := s.land k h x (resultBytes x y.splits (dies.idxOf c.die)) c.die at0 real (c.payload % 2 ^ (8 * real)) c
    let y := s.plan k
    some (s.setPlan k { y with got := insertSorted (receiptKey c.die 1 c.rank half c.index) y.got })

/-- Sends one part of a block to the dies that receive it: its chunks are taken or held. -/
def State.sendInside (s : State) (k i : Nat) (h : PlanHead) (x : Phase) (dies : List Nat) (b half : Nat) (dsts : List Nat) : State :=
  let y := s.plan k
  let (v, bad, events) := s.partData k h x dies b half
  let s := (s.poisonDies k h x dies b half dsts).foldl (fun s d => s.setPoison h.part 2 d) s
  let s := if events = 0 then s else s.bump 0x50D0 8 events
  let ver := if x.srck = 2 then (FMap.get y.served i 0 - 1) % 2 ^ 32 else 0
  forRange (chunkCount h (partBytes h x y.splits 1 b half)) s fun n s =>
    let len := (chunkSpan h x y.splits 1 b half n).2
    dsts.foldl (fun s d =>
      let c := mkChunk h x i y.step b half d n ver false bad ⟨len, v >>> (8 * n * chunkSize h) % 2 ^ (8 * len)⟩
      match s.takeInside k i h x dies c with
      | some s => s
      | none => { s with holdNum := s.holdNum + 1 }.holdChunk { port := 7, src := s.coord, c := c, since := s.tick } (s.holdNum + 1)) s

/-- ALL_TO_ALL among the member dies (R365): rank `q` sends its block for rank `r`. A block that carries poison sets the
partition's poison bit where it is received from another die (R243). -/
def State.allInside (s : State) (k : Nat) (h : PlanHead) (x : Phase) (dies : List Nat) : State :=
  let p := dies.length
  if x.srck = 3 then s
  else forRange p s fun r s => forRange p s fun q s =>
    let addr := s.load (x.saddr + 16 * r) 8 % 2 ^ 41
    let asked := s.load (x.saddr + 16 * r + 8) 4
    let n := min asked x.maxb
    let s := if x.maxb < asked then s.bump 0x50D0 9 1 else s
    let ((v, bad), s) := s.engineRead (planWho k) addr n
    let s := if bad && r != q then s.setPoison h.part 2 (dies.getD r 0) else s
    if x.dstk = 0 then s.engineStore (planWho k) (x.daddr + q * (x.maxb + 16)) (16 + n) (asked + q * 2 ^ 32 + v <<< 128) else s

/-- Runs an in-package phase once every member's values are there: each part travels the ratlines to the dies that receive
it within the step, since no command stands for the arrival of its chunks (log 58). -/
def State.runInside (s : State) (k i : Nat) (h : PlanHead) (x : Phase) (dies : List Nat) : State :=
  if x.op = 3 then s.allInside k h x dies
  else (insideBlocks x dies).foldl (fun s (b, dsts) =>
    [0, 1].foldl (fun s half => s.sendInside k i h x dies b half dsts) s) s

/-- The member dies whose own values an in-package phase waits for. -/
def insideSources (x : Phase) (dies : List Nat) : List Nat := if x.srck = 1 then dies else [0]

/-- Whether the sources of an in-package phase were read. -/
def State.insideReady (s : State) (k : Nat) (x : Phase) (dies : List Nat) : Bool :=
  (insideSources x dies).all fun d => (s.plan k).vals.any fun e => e.1 = d

/-- Starts an in-package phase: its sources first, then, once every member's values are there, the exchange. -/
def State.startInside (s : State) (k i : Nat) (h : PlanHead) (x : Phase) : State :=
  let dies := maskDies x.mask
  let s := if x.srck = 1 then dies.foldl (fun s d => s.startPane k i d h x) s
    else if x.srck = 2 then s.takeShard k i x (2 * x.count)
    else if x.srck = 0 ∧ x.op ≠ 3 then
      if x.reduces then s.takeMemory k 0 h x
      else
        let ((v, bad), s) := s.engineRead (planWho k) x.saddr ((if 4 ≤ x.op then 1 else 2) * x.count)
        let y := s.plan k
        s.setPlan k { y with vals := FMap.put y.vals 0 ⟨2 * x.count, v⟩, bad := if bad then [0] else [] }
    else let y := s.plan k; s.setPlan k { y with vals := FMap.put y.vals 0 ⟨0, 0⟩ }
  if s.insideReady k x dies then s.runInside k i h x dies else s

/-! ### Backups at this package (R384, R385) -/

/-- Reads the sources of a backup, or starts their drains. -/
def State.readBackup (s : State) (k i : Nat) (h : PlanHead) (x : Phase) : State :=
  (s.dieRings h x).foldl (fun s d =>
    if x.srck = 1 then s.startPane k i d h x else if x.srck = 0 then s.takeMemory k d h x else s) s

/-- Sends every chunk of the own values of some die rings, where they were read, to the primary as contributions. -/
def State.sendCopies (s : State) (k i : Nat) (h : PlanHead) (x : Phase) (e : BackupEntry) (dies : List Nat) : State :=
  dies.foldl (fun s d => [0, 1].foldl (fun s half => forRange x.ranks s fun b s =>
    let y := s.plan k
    forRange (chunkCount h (partBytes h x y.splits 0 b half)) s fun n s =>
      match y.localValue h x d b half n with
      | none => s
      | some (v, bad, _) =>
        let (_, len) := chunkSpan h x y.splits 0 b half n
        let c := mkChunk h x i y.step e.rank half d (contribIndex h x y.splits half b n) 0 h.cp
          (bad || (s.part h.part).poison) ⟨len, v⟩
        (s.useLocal k h x d b half n false).sendChunk k h e.coord (x.srck != 1) { c with ctype := 1 }) s) s

/-- Reads a backup's sources and sends its copies of what is read at once; a drain that is held sends when it starts. -/
def State.sendBackup (s : State) (k i : Nat) (h : PlanHead) (x : Phase) (e : BackupEntry) : State :=
  (s.readBackup k i h x).sendCopies k i h x e (s.dieRings h x)

/-! ### Receiving a chunk (R337, R367, R368) -/

/-- Discards a chunk of an earlier step (1) or of an unknown plan (2) (R368). -/
def State.discardChunk (s : State) (port src part cause : Nat) : State :=
  (s.bump 0x50D0 3 1).post
    { code := 0x3150, plane := 2, part := part, kind := 4, num := port, detail := [(1, cause), (4, src)] }

/-- The finished bytes of a chunk as a destination takes them; those of a placeholder are open (R369). -/
def State.payloadOf (s : State) (c : Chunk) (n : Nat) : Nat × State :=
  if c.ctype = 2 then s.open (8 * n) else (c.payload, s)

/-- Takes a chunk of a gather, broadcast or stream: it lands and passes on (R357, R369). -/
def State.takeGather (s : State) (k i port : Nat) (h : PlanHead) (x : Phase) (ms : List Nat) (j : Nat) (c : Chunk) : State :=
  let y := s.plan k
  let p := ms.length
  let half := if c.half then 1 else 0
  let (off, len) := chunkSpan h x y.splits 1 c.rank half c.index
  let total := if 4 ≤ x.op then x.count else 2 * x.count
  let real := min len (total - off)
  let s := s.checkVersion k i (portDie port) h x c
  let (v, s) := s.payloadOf c real
  let s := s.land k h x (resultBytes x y.splits j) c.die off real (v % 2 ^ (8 * real)) c
  let y := s.plan k
  let s := s.setPlan k { y with got := insertSorted (receiptKey c.die 1 c.rank half c.index) y.got }
  let nx := nextRank p j half
  if x.op = 5 ∨ port = 7 ∨ nx = c.rank then s else s.sendChunk k h (ms.getD nx 0) (x.dstk != 2) c

/-- Takes a chunk of an ALL_TO_ALL block from rank `c.rank` (R365). -/
def State.takeBlock (s : State) (k : Nat) (x : Phase) (h : PlanHead) (c : Chunk) : State :=
  let (v, s) := s.payloadOf c c.len
  let s := if x.dstk = 0 then s.engineStore (planWho k) (x.daddr + c.rank * (x.maxb + 16) + c.index * chunkSize h) c.len v else s
  let y := s.plan k
  let total := 16 + min (v % 2 ^ 32) x.maxb
  s.setPlan k { y with got := insertSorted (receiptKey 0 1 c.rank 0 c.index) y.got,
                       seen := if c.index = 0 then FMap.put y.seen (4096 + c.rank) (total + 1) else y.seen }

/-- The gather of an ALL_REDUCE goes on with a finished sum: its chunks are cut anew from the single values (R366), so in
compensated-pair mode two chunks of the sum make one of the gather (R372). -/
def State.passSum (s : State) (k i : Nat) (h : PlanHead) (x : Phase) (dst j half die index : Nat) (poison lost : Bool)
    (bytes : Octets) : State :=
  let send := fun (s : State) (q : Nat) (poison lost : Bool) (o : Octets) =>
    let d := mkChunk h x i (s.plan k).step j half die q 0 false poison o
    s.sendChunk k h dst (x.dstk != 2) (if lost then { d with ctype := 2, len := 0, payload := 0 } else d)
  if !h.cp then send s index poison lost bytes
  else
    let y := s.plan k
    let y := { y with fins := FMap.put y.fins (receiptKey die 0 j half index) (bytes, poison, lost) }
    let s := s.setPlan k y
    let q := index / 2
    let has := fun (n : Nat) => y.fins.find? fun e => e.1 = receiptKey die 0 j half n
    match has (2 * q), has (2 * q + 1) with
    | some a, some b => send s q (a.2.2.1 || b.2.2.1) (a.2.2.2 || b.2.2.2) (Octets.append a.2.1 b.2.1)
    | some a, none =>
      if chunkCount h (partBytes h x y.splits 0 j half) ≤ 2 * q + 1 then send s q a.2.2.1 a.2.2.2 a.2.1 else s
    | none, _ => s

/-- Takes a chunk of a sum: the own value is added, and the sum passes on, or lands at the block's owner (R360, R370). -/
def State.takeSum (s : State) (k i : Nat) (h : PlanHead) (x : Phase) (ms : List Nat) (j : Nat) (c : Chunk)
    (own : Nat) (ownBad backup : Bool) : State :=
  let y := s.plan k
  let p := ms.length
  let half := if c.half then 1 else 0
  let eb := valueBytes h.cp
  let (off, len) := chunkSpan h x y.splits 0 c.rank half c.index
  let n := len / eb
  let (v, events) := if c.ctype = 2 then (0, 0) else addChunk h.gf eb n c.payload own
  let s := if events = 0 then s else s.bump 0x50D0 8 events
  let s := s.useLocal k h x c.die c.rank half c.index backup
  let y := s.plan k
  let s := s.setPlan k { y with got := insertSorted (receiptKey c.die 0 c.rank half c.index) y.got }
  let poison := (chunkPoisoned c) || ownBad || (s.part h.part).poison
  let dst := ms.getD (nextRank p j half) 0
  let put := fun (s : State) (pairs : Bool) (bytes : Octets) (resend : Bool) =>
    let d := mkChunk h x i y.step c.rank half c.die c.index 0 pairs poison bytes
    s.sendChunk k h dst resend (if c.ctype = 2 then { d with ctype := 2, len := 0, payload := 0 } else d)
  if c.rank ≠ j then put s h.cp ⟨len, v⟩ false
  else
    let first := off / eb
    let real := min n (x.count - first)
    let fin := if h.cp then packValues 2 ((List.range n).map fun q => collapsePair h.gf (valueAt 4 v q)) else v
    let (fin, s) := if c.ctype = 2 then s.open (16 * n) else (fin, s)
    let d := { mkChunk h x i y.step j half c.die c.index 0 false poison ⟨2 * n, fin⟩ with gf := c.gf, k := c.k }
    let at0 := 2 * (first - if x.op = 0 then 64 * blockStart y.splits j else 0)
    let s := s.land k h x (resultBytes x y.splits j) c.die at0 (2 * real) (fin % 2 ^ (16 * real)) d
    if x.op = 2 then s.passSum k i h x dst j half c.die c.index poison (c.ctype == 2) ⟨2 * n, fin⟩ else s

/-- Takes a backup contribution at the primary (R385): used where the own value is not yet there, compared where it is. -/
def State.takeContribution (s : State) (k i port : Nat) (h : PlanHead) (x : Phase) (ms : List Nat) (j : Nat) (c : Chunk) :
    State :=
  let half := if c.half then 1 else 0
  let y := s.plan k
  let s := s.setPlan k { y with contrib := FMap.put y.contrib (localKey c.die half c.index) (⟨c.len, c.payload⟩, (chunkPoisoned c)) }
  let y := s.plan k
  if y.vals.any fun e => e.1 = c.die then
    (List.range x.ranks).foldl (fun s b =>
      let n := chunkCount h (partBytes h x y.splits 0 b half)
      let base := contribIndex h x y.splits half b 0
      if base ≤ c.index ∧ c.index < base + n then
        match y.localValue h x c.die b half (c.index - base) with
        | some (v, bad, _) =>
          let (_, len) := chunkSpan h x y.splits 0 b half (c.index - base)
          s.compareCopies k i port h c.index
            (mkChunk h x i y.step c.rank half c.die c.index 0 h.cp (bad || (s.part h.part).poison) ⟨len, v⟩) c
        | none => s
      else s) s
  else s.startRing k i h x ms j c.die

/-- A chunk that carries poison was received by a port (R243 cause 2). -/
def State.notePoison (s : State) (port : Nat) (h : PlanHead) (c : Chunk) : State :=
  if (chunkPoisoned c) && port != 7 then s.setPoison h.part 2 (portDie port) else s

/-- What becomes of a chunk that is not held: a second copy is discarded uncounted (R387); of an ALL_REDUCE the first copy is
of the reduction and the next of the gather (log 50). -/
def State.processChunk (s : State) (k i port : Nat) (h : PlanHead) (x : Phase) (ms : List Nat) (j : Nat) (c : Chunk) :
    Option State :=
  let y := s.plan k
  let half := if c.half then 1 else 0
  let s0 := s.notePoison port h c
  if c.ctype = 1 then some (s0.takeContribution k i port h x ms j c)
  else if x.op = 3 then some (s0.takeBlock k x h c)
  else if x.reduces && !y.got.contains (receiptKey c.die 0 c.rank half c.index) &&
      c.rank != startBlock ms.length j half then
    if c.rank = j && s.landBusy h x c.die c.step then none
    else match y.localValue h x c.die c.rank half c.index with
      | none => none
      | some (own, bad, backup) => some (s0.takeSum k i h x ms j c own bad backup)
  else if x.op = 0 ∨ (x.op = 2 ∧ c.rank = j) ∨ y.got.contains (receiptKey c.die 1 c.rank half c.index) then some s
  else if s.landBusy h x c.die c.step then none
  else some (s0.takeGather k i port h x ms j c)

/-- Whether a coordinate may contribute to a phase: a member, or for a backup contribution the mapped backup (R337). -/
def State.mayContribute (s : State) (h : PlanHead) (ms : List Nat) (src : Nat) (c : Chunk) : Bool :=
  if c.ctype = 1 then h.bken && (s.backups h.bkm).any fun e => !e.slf && e.coord == src && e.rank == c.rank
  else ms.contains src

/-- Tries to take a chunk: the state after it, or none where it must be held at its port. -/
def State.tryChunk (s : State) (q : HeldChunk) : Option State :=
  let c := q.c
  match s.slotOf c.planId with
  | none => none
  | some k =>
    let h := s.head k
    let y := s.plan k
    let x := s.phase k c.phase
    let ms := s.members h x
    if q.port = 7 ∧ x.axis = 0 then s.takeInside k c.phase h x ms c
    else if !s.mayContribute h ms q.src c then
      some ((s.bump 0x50D0 7 1).post
        { code := 0x2112, plane := 2, part := h.part, kind := 4, num := q.port, detail := [(4, q.src), (1, k)] })
    else if stepDiff c.step y.step < 0 then some (s.discardChunk q.port q.src h.part 1)
    else if 0 < stepDiff c.step y.step ∨ y.st = 1 ∨ y.st = 4 ∨ y.st = 5 then none
    else if c.phase < y.phase then some s
    else if y.phase < c.phase then none
    else match rankIn s.coord ms with
      | none => none
      | some j =>
        if y.st = 3 then s.processChunk k c.phase q.port h x ms j c
        else if c.ctype = 1 then some ((s.notePoison q.port h c).takeContribution k c.phase q.port h x ms j c)
        else match y.localValue h x c.die c.rank (if c.half then 1 else 0) c.index with
          | some (_, _, true) => s.processChunk k c.phase q.port h x ms j c
          | _ => none

/-- Frees the buffers of a chunk's flits as it is taken or discarded (R318, R368). -/
def State.freeChunk (s : State) (q : HeldChunk) : State :=
  let x := s.port q.port
  let key := chunkHeader q.c
  match x.rx.chunks.find? fun (e : Nat × Nat × Nat) => e.1 = key with
  | none => s
  | some (_, k, n) =>
    (s.setPort q.port { x with rx := { x.rx with chunks := FMap.erase x.rx.chunks key } }).freeCredit q.port (k / 4) (k % 4) n

/-- A chunk arrives: taken, or held at its port. -/
def State.arrive (s : State) (q : HeldChunk) : State :=
  match s.tryChunk q with
  | some s => s.freeChunk q
  | none => { s with holdNum := s.holdNum + 1 }.holdChunk q (s.holdNum + 1)

/-- Takes again, in order of arrival, the chunks that were held. -/
def State.takeHeld (s : State) : State :=
  s.holds.foldl (fun s e =>
    match { s with holds := FMap.erase s.holds e.1 }.tryChunk e.2 with
    | some s => s.freeChunk e.2
    | none => s.holdChunk e.2 e.1) s

/-! ### Triggers, completion, abort (R373 to R376) -/

/-- Arms a phase; its split is read now for a backup's early values, and again at the trigger (R361). -/
def State.armAt (s : State) (k i : Nat) : State :=
  s.setPlan k { (s.plan k).clean with st := 2, phase := i, missed := false, splits := s.splits (s.phase k i) }

/-- At Idle a loaded plan arms phase 0, unless a deferred value waits for it (R373). -/
def State.arm (s : State) (k : Nat) : State :=
  let y := s.plan k
  if y.st = 1 ∧ (s.head k).valid ∧ !s.awaited k then s.armAt k 0 else s

/-- A plan Armed at phase 0 returns to Idle where a deferred value waits for it (R373). -/
def State.disarm (s : State) (k : Nat) : State :=
  let y := s.plan k
  if y.st = 2 ∧ y.phase = 0 ∧ s.awaited k then s.setPlan k { y.clean with st := 1 } else s

/-- Whether the trigger of an armed phase fires (R374). -/
def State.triggered (s : State) (k : Nat) : Bool :=
  let y := s.plan k
  let h := s.head k
  let x := s.phase k y.phase
  match x.trig with
  | 0 => true
  | 1 => decide (0 ≤ stepDiff (s.load (x.taddr / 8 * 8) 4) x.tv)
  | _ => !y.got.isEmpty || s.holds.any fun e => e.2.c.planId == h.id && e.2.c.phase == y.phase && e.2.c.step == y.step

/-- Wakes the masts that a phase needs Lit (R375). -/
def State.wakeLit (s : State) (h : PlanHead) (x : Phase) : State :=
  if x.lit = 0 ∨ s.pkg ≠ pkgReady then s
  else (List.range 3072).foldl (fun s m =>
    if bitOf x.lit (mastDie m) && bitOf (s.val (0x7120 + h.part) 1) m && !(s.mast m).fenced then
      let y := s.mast m
      if y.power == .lit && y.goal.isNone then s
      else if y.power == .shuttered && y.goal.isNone then (s.setVal (0x2320 + mastDie m) (mastLocal m + 1) 0).setMast m { y with power := .lit }
      else s.requestMast m 0
    else s) s

/-- Whether the split table of a phase is a host error (R362): its counts do not sum to Q, or one is above MAXB. -/
def State.badSplit (s : State) (x : Phase) : Bool :=
  x.split && ((s.splits x).foldl (· + ·) 0 != groupsOf x.count || (s.splits x).any (fun g => x.maxb < g))

/-- The sources of an Active phase start (R363, R384). -/
def State.startSources (s : State) (k i : Nat) (h : PlanHead) (x : Phase) : State :=
  let ms := s.members h x
  match s.selfBackup h, rankIn s.coord ms with
  | some e, _ => if x.backed && !e.standby then s.sendBackup k i h x e else s
  | none, r =>
    if x.axis = 0 then s.startInside k i h x
    else match r with
      | some j => (s.dieRings h x).foldl (fun s d => s.startDie k i h x ms j d) s
      | none => s

/-- PHASE_TRIGGER (R374): an armed phase becomes Active, its sources start. A split table that is a host error holds the plan
up where it is, Armed (R362, log 51). -/
def execPhaseTrigger (k : Nat) (s : State) : Result :=
  let y := s.plan k
  let x := s.phase k y.phase
  guardEvent (y.st == 2 && !(s.awaited k && y.phase == 0) && s.triggered k && !s.badSplit x) s <|
    let h := s.head k
    let s := s.wakeLit h x
    let s := s.setPlan k { y with st := 3, fired := s.tick, missed := false, splits := s.splits x }
    .next (s.startSources k y.phase h x).takeHeld

/-- Shard sources that waited for WRITING to clear are read (R247, R248). -/
def State.resumeShards (s : State) : State :=
  s.loaded.foldl (fun s k =>
    let y := s.plan k
    let h := s.head k
    let x := s.phase k y.phase
    if y.st = 3 ∧ x.srck = 2 ∧ y.vals.isEmpty ∧ (s.selfBackup h).isNone ∧ s.shardFree x
    then (s.startSources k y.phase h x).takeHeld else s) s

/-- HELD_DRAIN_START (R240): the oldest held start is made once its pane no longer drains; one whose phase is over is
dropped. -/
def execHeldDrainStart (d p pane : Nat) (s : State) : Result :=
  let y := s.pane p d pane
  match y.held with
  | [] => .next s
  | (k, i) :: rest =>
    guardEvent (!y.draining) s <|
      let h := s.head k
      let x := s.phase k i
      let ms := s.members h x
      let s := s.setPane p d pane { y with held := rest }
      if (s.plan k).st ≠ 3 ∨ (s.plan k).phase ≠ i then .next s
      else
      let s := s.drainPane k i d h x
      if x.axis = 0 then
        let dies := maskDies x.mask
        if s.insideReady k x dies then .next (s.runInside k i h x dies) else .next s
      else match s.selfBackup h, rankIn s.coord ms with
        | some e, _ => if (s.plan k).freed then .next s else .next (s.sendCopies k i h x e [d])
        | none, some j => .next ((s.compareEarly k i d h x).startRing k i h x ms j d).takeHeld
        | none, none => .next s

/-- Whether the Active phase of a slot is complete at this package (R374): every source was read, every chunk it receives
is committed, every chunk it sends is acknowledged. -/
def State.phaseDone (s : State) (k : Nat) : Bool :=
  let y := s.plan k
  let h := s.head k
  let x := s.phase k y.phase
  let acked := !s.sent.any fun e => e.2.slot == k && e.2.phase == y.phase
  match s.selfBackup h with
  | some e =>
    acked && (!x.backed || (e.standby && !y.asked && y.freed) ||
      ((!e.standby || y.asked) && (s.dieRings h x).all fun d => y.vals.any fun v => v.1 = d))
  | none =>
    if x.axis = 0 then
      let dies := maskDies x.mask
      s.insideReady k x dies && (insideNeeds h x y.splits dies).all y.got.contains
    else
      let dies := s.dieRings h x
      let j := (rankIn s.coord (s.members h x)).getD 0
      acked && dies.all (fun d => y.vals.any fun e => e.1 = d) && (y.needs h x j dies).all y.got.contains

/-- The silent-layer watch at the end of a release (R255): one event for a run that reaches the threshold. -/
def State.watchSilent (s : State) (k : Nat) (h : PlanHead) (x : Phase) : State :=
  let y := s.plan k
  if !x.reduces || 1 < x.srck || y.vals.isEmpty then s
  else
    let tag := (s.tagFor h.part x.ttag).1
    match s.lanternRecord h.part tag with
    | none => s
    | some a =>
      let silent := y.quiet && y.released != 0
      let key := 4096 * h.part + tag
      let run := if silent then s.load a 8 + 1 else 0
      let s := s.accessHome (lanternWho (s.home a)) .add a 24
      let s := (s.store a 8 run).store (a + 8) 8 (s.load (a + 8) 8 + 1)
      if !silent then { s with silent := s.silent.filter (· != key) }
      else if s.val (0x6000 + h.part) 5 = 1 ∧ s.val (0x6000 + h.part) 4 ≤ run ∧ !s.silent.contains key then
        (({ s with silent := insertSorted key s.silent }.store (a + 16) 8 (s.load (a + 16) 8 + 1)).bump (0x6100 + h.part) 6 1).post
          { code := 0x4210, plane := 2, part := h.part, kind := 2, num := s.home a,
            detail := [(1, h.part), (2, tag), (4, run)] }
      else s

/-- Sends a message about a backup copy on VC 1 (Table 10.15). -/
def State.sendBackupMsg (s : State) (kind dst id phase step rank : Nat) : State :=
  s.sendTo 1 dst 0 (message kind 0 0 0 ⟨16, id + phase * 2 ^ 16 + step * 2 ^ 32 + rank * 2 ^ 64⟩)

/-- Bytes that a completed phase has landed for die ring `d`, whole groups of 64 values (R361, R363). -/
def State.landedBytes (s : State) (k : Nat) (h : PlanHead) (x : Phase) (d : Nat) : Nat :=
  let dies := maskDies x.mask
  let rank := if x.axis = 0 then dies.idxOf d else (rankIn s.coord (s.members h x)).getD 0
  (resultBytes x (s.plan k).splits rank + 127) / 128 * 128

/-- What a completed phase tells others: the trim unit, its gatherers' references, its own standby backups. -/
def State.phaseEnds (s : State) (k i : Nat) (h : PlanHead) (x : Phase) : State :=
  let y := s.plan k
  let s := s.watchSilent k h x
  let s := if x.dstk = 1 then
      (if x.axis = 0 ∧ x.srck = 1 then maskDies x.mask else s.dieRings h x).foldl (fun s d =>
        s.trimComplete h.part (x.daddr % 65536 + if x.srck = 1 then d else 0) (s.landedBytes k h x d) (s.sealing h.part)) s
    else s
  let s := if x.srck = 2 && x.ret && bitOf x.k 7 then
      let was := FMap.get y.served (x.k % 32) 0
      if was = 0 then s else s.takeReferences k x.saddr ((was - 1) / 2 ^ 32) (x.ranks - 1) false
    else s
  if h.bken && x.backed then
    let j := rankIn s.coord (s.members h x)
    (s.backups h.bkm).foldl (fun s e =>
      if e.standby && !e.slf && some e.rank == j then s.sendBackupMsg 0x0102 e.coord h.id i y.step e.rank else s) s
  else s

/-- The seal of the step (R243, R244). -/
def State.sealStep (s : State) (k : Nat) (h : PlanHead) : State :=
  let s := if s.sealing h.part then s.trimSeal h.part (s.plan k).step (s.part h.part).poison else s
  s.clearPoison h.part

/-- PHASE_COMPLETE (R374): the next phase is armed, or the plan is Idle at its next step. -/
def execPhaseComplete (k : Nat) (s : State) : Result :=
  let y := s.plan k
  guardEvent (y.st == 3 && s.phaseDone k) s <|
    let h := s.head k
    let i := y.phase
    let x := s.phase k i
    let s := s.phaseEnds k i h x
    let s := if h.sealen ∧ h.sealph = i then s.sealStep k h else s
    let y := (s.plan k).clean
    let s := if i + 1 < h.nph then s.armAt k (i + 1)
      else (s.setPlan k { y with st := 1, phase := 0, step := (y.step + 1) % 2 ^ 32, served := [], seen := [] }).arm k
    .next s.takeHeld

/-- DEADLINE_MISSED (R383). -/
def execDeadlineMissed (k : Nat) (s : State) : Result :=
  let y := s.plan k
  let h := s.head k
  let x := s.phase k y.phase
  guardEvent (y.st == 3 && x.deadline != 0 && !y.missed && decide (y.fired + x.deadline ≤ s.tick)) s <|
    let s := ((s.setPlan k { y with missed := true }).bump 0x50D0 1 1).post
      { code := 0x3130, plane := 1, part := h.part, kind := 6, detail := [(1, k), (1, y.phase), (4, y.step)] }
    let es : List BackupEntry :=
      if h.bken && x.backed then (s.backups h.bkm).filter fun e => e.standby && !e.slf else []
    .next (es.foldl (fun s e => s.sendBackupMsg 0x0101 e.coord h.id y.phase y.step e.rank) s)

/-- Posts PLAN_ABORTED. -/
def State.postAborted (s : State) (k : Nat) : State :=
  let y := s.plan k
  s.post { code := 0x3160, plane := 1, part := (s.head k).part, kind := 6, detail := [(1, k), (1, y.phase), (4, y.step)] }

/-- Drops what a slot still has to send: messages of which no flit has left (R376). -/
def State.dropUnsent (s : State) (k : Nat) : State :=
  let mine := (s.sent.filter fun e => e.2.slot = k).map (·.1)
  let ports := s.ports.map fun e =>
    let begun := e.2.tx.held.map fun q => q.2.mark
    (e.1, { e.2 with tx := { e.2.tx with queue := e.2.tx.queue.filter fun q => !(mine.contains q.mark) || begun.contains q.mark } })
  { s with ports := ports, sent := s.sent.filter fun e => e.2.slot != k }

/-- An abort written to a slot (R376, Table 11.7). -/
def State.abortPlan (s : State) (k : Nat) : State :=
  let y := s.plan k
  let h := s.head k
  if y.st = 2 ∨ y.st = 3 then
    let gone := s.holds.filter fun e => e.2.c.planId == h.id
    let s := { s with holds := s.holds.filter fun e => e.2.c.planId != h.id }.dropUnsent k
    let s := gone.foldl (fun s e => s.freeChunk e.2) s
    let s := { s with panes := s.panes.map fun (e : Nat × Pane) => (e.1, { e.2 with held := e.2.held.filter fun j => j.1 != k }) }
    let s := if h.sealen then (s.trimAbort h.part y.step).clearPoison h.part else s
    s.setPlan k { y with st := 4 }
  else if y.st = 1 then s.postAborted k
  else s

/-- CHUNK (R367): a chunk arrives at a stay port. -/
def execChunk (p src : Nat) (c : Chunk) (s : State) : Result :=
  guardEvent (s.receives p) s <|
  if p = 6 then .next (s.police 6 policedKind)
  else .next (s.arrive { port := p, src := src, c := c, since := s.tick })

/-- CHUNK_HOLD_EXPIRY (R368): a chunk of an unknown plan was held for 1 s. -/
def execChunkHoldExpiry (n : Nat) (s : State) : Result :=
  match s.holds.find? fun e => e.1 = n with
  | none => .next s
  | some e =>
    guardEvent ((s.slotOf e.2.c.planId).isNone && decide (e.2.since + 25000000 ≤ s.tick)) s <|
      .next (({ s with holds := FMap.erase s.holds n }.freeChunk e.2).discardChunk e.2.port e.2.src partAll 2)

/-- The slot, phase and entry that a backup message concerns: this package is the backup. -/
def State.backupWork (s : State) (m : BackupMsg) : Option (Nat × BackupEntry) :=
  match s.slotOf m.planId with
  | none => none
  | some k =>
    let y := s.plan k
    let h := s.head k
    if y.st = 3 ∧ y.phase = m.phase ∧ y.step = m.step ∧ (s.phase k y.phase).backed then
      match s.selfBackup h with
      | some e => if e.rank = m.rank ∧ e.standby then some (k, e) else none
      | none => none
    else none

/-- BACKUP_REQUEST (R383, R385): a standby backup sends its chunks, once. -/
def execBackupRequest (p _src : Nat) (m : BackupMsg) (s : State) : Result :=
  guardEvent (s.receives p) s <|
  if p = 6 then .next (s.police 6 policedKind)
  else match s.backupWork m with
    | none => .next s
    | some (k, e) =>
      let y := s.plan k
      if y.asked || y.freed then .next s
      else .next ((s.setPlan k { y with asked := true }).sendBackup k y.phase (s.head k) (s.phase k y.phase) e)

/-- BACKUP_RELEASE (R385): the backup reads its source and discards the values. -/
def execBackupRelease (p _src : Nat) (m : BackupMsg) (s : State) : Result :=
  guardEvent (s.receives p) s <|
  if p = 6 then .next (s.police 6 policedKind)
  else match s.backupWork m with
    | none => .next s
    | some (k, _) =>
      let y := s.plan k
      if y.asked || y.freed then .next s
      else .next ((s.setPlan k { y with freed := true }).readBackup k y.phase (s.head k) (s.phase k y.phase))

/-- TRIM_UPDATE_COMPLETE (R246, R272): an entry in Running ends, and chunks that waited for it are taken (R275). -/
def execTrimUpdateComplete (p e : Nat) (s : State) : Result :=
  guardEvent ((s.trim p e).st == .running) s (.next (s.trimFinish p e).takeHeld.resumeShards)

/-! ### Lost chunks (R369) -/

/-- A chunk whose flits were lost with a retry buffer: resent, or replaced by a placeholder. -/
def State.loseChunk (s : State) (port mark : Nat) : State :=
  match s.sent.find? fun e => e.1 = mark with
  | none => s
  | some e =>
    let h := s.head e.2.slot
    let s := { s with sent := FMap.erase s.sent mark }
    let s := (s.bump 0x50D0 2 1).post
      { code := 0x3140, plane := 2, part := h.part, kind := 2, num := portDie port,
        detail := [(1, e.2.slot), (1, e.2.phase), (4, e.2.c.index)] }
    s.sendChunk e.2.slot h e.2.dst e.2.resend
      (if e.2.resend then e.2.c else { e.2.c with ctype := 2, len := 0, payload := 0, poison := true, trailerPoison := true })

end Sys2Proof.Machine
end

