-- ==== Sys2Proof/Machine/PortLanes.lean ====
section
/-! DEFINITION. The lanes of external ports: the die that each leaves from, what a port that loses its partner or too many
lanes gives up, retraining at a smaller width, and the records of recoveries (R331, R333, R334, R470, R471, R478, R480). -/
namespace Sys2Proof.Machine

/-- Port states (Table 10.6). -/
def portOff : Nat := 0
def portPresence : Nat := 1
def portElectrical : Nat := 2
def portCapability : Nat := 3
def portIdentity : Nat := 4
def portKeying : Nat := 5
def portDown : Nat := 11

/-- Posts an event of a port. -/
def State.postPort (s : State) (code p : Nat) (detail : List (Nat × Nat)) : State :=
  s.post { code := code, plane := 2, part := partAll, kind := 4, num := p, detail := detail }

/-- Updates the physical part of a port. -/
def State.setLink (s : State) (p : Nat) (l : PortLink) : State := s.setPort p { s.port p with link := l }

/-- Counts a recovery entered at a level of Table 14.7. -/
def State.climb (s : State) (level : Nat) : State := s.bump 0x7170 level 1

/-- Posts the compound record of a dependent pair (R471): the unit of both faults is the resource itself. -/
def State.postCompound (s : State) (kind num : Nat) (p : FaultPair) : State :=
  let unit := kind * 4096 + num
  (s.bump 0x7170 7 1).post
    { code := 0x7520, plane := 2, part := partAll, kind := kind, num := num, compound := true,
      detail := [(2, p.first), (2, unit), (2, p.second), (2, unit), (1, p.left), (1, p.level), (2, 0), (4, p.gap)] }

/-! ### Loss (R331) -/

/-- A VC 14 request that was lost: its requester sees an uncorrectable data error (R331, R96). Where that is another
package, it is told so by a response of status 1 (log 59). -/
def State.failRequest (s : State) (kind tid src : Nat) : State :=
  if kind ≠ 0x0E01 ∧ kind ≠ 0x0E03 then s
  else if coordOfField src = s.coord then s.emit .coreFault tid 1 ⟨0, 0⟩
  else s.sendTo 14 (coordOfField src) 0 (message (kind + 1) 0 1 tid ⟨0, 0⟩)

/-- Flits waiting at a port that may leave by another one move there, routed from the class in which they came (R331,
R343). One that waits in an alternate class stays: it is never turned a second time. -/
def State.rerouteQueue (s : State) (p : Nat) : State :=
  let x := s.port p
  let dest := fun (q : Queued) =>
    if 2 ≤ q.flit.cls then none
    else match s.route q.flit.vc q.inCls (coordOfField q.flit.dst) q.inp (headPlan q.head) with
      | some (o, c) => if o = p then none else some (o, c)
      | none => none
  let stay := x.tx.queue.filter fun q => (dest q).isNone
  let go := x.tx.queue.filterMap fun q => (dest q).map fun e => (e.1, { q with flit := { q.flit with cls := e.2 } })
  let s := s.setPort p { x with tx := { x.tx with queue := stay } }
  (go.foldl (fun s e => s.enqueue e.1 [e.2]) s).noteStarved p

/-- Takes the waiting flits of one message, up to its end, out of a queue: what is left, what was taken, whether the end was
among it. -/
def takeMessage (vc inp cls : Nat) : List Queued → List Queued × List Queued × Bool
  | [] => ([], [], false)
  | q :: r =>
    if q.flit.vc = vc ∧ q.inp = inp ∧ q.inCls = cls then
      if q.last then (r, [q], true) else let (l, g, e) := takeMessage vc inp cls r; (l, q :: g, e)
    else let (l, g, e) := takeMessage vc inp cls r; (q :: l, g, e)

/-- The rest of a message whose first flits are lost with port `p` is lost too, what waits of it here and what is still to
come (log 59): `k` is its output VC and class, `lock` says where it came in. -/
def State.cutMessage (s : State) (p k lock : Nat) : State :=
  let inp := (lock - 1) / 4
  let cls := (lock - 1) % 4
  let x := s.port p
  let (rest, gone, ended) := takeMessage (k / 4) inp cls x.tx.queue
  let s := s.setPort p { x with tx := { x.tx with queue := rest } }
  if 7 ≤ inp then s
  else
    let s := if owedBy inp gone = 0 then s else s.freeCredit inp (k / 4) cls (owedBy inp gone)
    if ended then s
    else
      let y := s.port inp
      s.setPort inp { y with rx := { y.rx with cut := insertSorted (k / 4 * 4 + cls) y.rx.cut } }

/-- The retry buffer of a port is discarded (R317, R331): what of a message waits behind lost flits goes too, plan chunks in
it are lost (R369), and requests on VC 14 fail. Numbers, keys and totals of the directions stay. -/
def State.loseHeld (s : State) (p : Nat) : State :=
  let x := s.port p
  let marks := ((x.tx.held.map fun q => q.2.mark).filter (· != 0)).eraseDups
  let asks := (x.tx.held.filterMap fun q =>
    if q.2.flit.vc = 14 then some (headKind q.2.head, headTid q.2.head, q.2.flit.src) else none).eraseDups
  let locks := x.tx.lock
  let s := s.setPort p { x with tx := { x.tx with held := [], tries := 0, lock := [], spill := [],
                                                  queue := x.tx.queue.filter fun q => !(marks.contains q.mark) } }
  let s := locks.foldl (fun s e => s.cutMessage p e.1 e.2) s
  let s := asks.foldl (fun s a => s.failRequest a.1 a.2.1 a.2.2) s
  marks.foldl (fun s n => s.loseChunk p n) s

/-- A queue without the flits from port `p` of messages that never came in whole; the others owe no credit any more. -/
def dropOpen (p : Nat) : List Queued → List Queued
  | [] => []
  | q :: r =>
    if q.inp ≠ p then q :: dropOpen p r
    else if !q.last && !(r.any fun o => sameLine q o && o.last) then dropOpen p r
    else { q with old := true } :: dropOpen p r

/-- The messages that were coming in by a port that is lost end where they are (log 59): what came in of an unfinished one
is dropped, and the outputs that it held are free for others. -/
def State.releaseLocks (s : State) (p : Nat) : State :=
  { s with ports := s.ports.map fun e =>
      let queue := dropOpen p e.2.tx.queue
      let ended := fun (l : Nat × Nat) => (l.2 - 1) / 4 == p &&
        !(queue.any fun q => q.inp == p && q.flit.vc == l.1 / 4 && q.inCls == (l.2 - 1) % 4)
      (e.1, { e.2 with tx := { e.2.tx with
        queue := queue
        lock := e.2.tx.lock.filter fun l => !ended l
        spill := e.2.tx.spill.filter fun b => !(e.2.tx.lock.any fun l => l.1 == b.1 && ended l) } }) }

/-- A port falls back to a state with nothing of its partner kept; retired lanes are forgotten where `clear`. -/
def State.portFalls (s : State) (p st : Nat) (clear : Bool) : State :=
  let s := (s.loseHeld p).releaseLocks p
  let x := s.port p
  let y : Port := { link := { st := st, retired := if clear then 0 else x.link.retired }, tx := { queue := x.tx.queue },
                    since := s.tick, heard := x.heard, stalled := x.stalled, fecAt := x.fecAt, tagAt := x.tagAt }
  (s.setPort p y).rerouteQueue p

/-- The port of a die whose logic is lost: what it holds and what waits to leave by it is lost as under R331; it goes to a
state. -/
def State.dropPort (s : State) (p st : Nat) : State :=
  let s := (s.loseHeld p).releaseLocks p
  let x := s.port p
  let qs := x.tx.queue
  let s := s.setPort p { link := { st := st, retired := x.link.retired }, since := s.tick, stalled := x.stalled,
                         fecAt := x.fecAt, tagAt := x.tagAt }
  let s := { s with holds := s.holds.filter fun (e : Nat × HeldChunk) => e.2.port != p }
  let s := qs.foldl (fun s q => if q.inp < 7 ∧ q.inp ≠ p ∧ !q.old then s.freeCredit q.inp q.flit.vc q.inCls 1 else s) s
  let asks := (qs.filterMap fun q => if q.flit.vc = 14 then some (headKind q.head, headTid q.head, q.flit.src) else none).eraseDups
  let s := asks.foldl (fun s a => s.failRequest a.1 a.2.1 a.2.2) s
  ((qs.map (·.mark)).filter (· != 0)).eraseDups.foldl (fun s n => s.loseChunk p n) s

/-- A port goes Down (R333): 210Eh with its cause, 1 too few lanes, 2 failed trainings, 4 die-pair fence (log 28). -/
def State.portFails (s : State) (p cause : Nat) : State :=
  ((s.climb 4).postPort 0x210E p [(1, p), (1, cause)]).portFalls p portDown false

/-! ### Widths and lanes (R310, R333, R334, R478) -/

/-- The lanes of a mask, ascending. -/
def lanesIn (mask : Nat) : List Nat := (List.range 34).filter (bitOf mask)

/-- The mask of a list of lanes. -/
def laneMask (ls : List Nat) : Nat := ls.foldl (fun m l => m ||| 2 ^ l) 0

/-- `a` without the lanes of `b`. -/
def without (a b : Nat) : Nat := laneMask ((lanesIn a).filter fun l => !bitOf b l)

/-- The widths of a port (R310), and the largest that `n` lanes and a cap allow. -/
def portWidth (p n : Nat) : Nat :=
  ((if p = 6 then [8, 4] else [16, 12, 8]).find? (· ≤ n)).getD 0

/-- All lanes of a port. -/
def portLanes (p : Nat) : Nat := if p = 6 then 2 ^ 8 - 1 else 2 ^ 16 - 1

/-- The lanes of port `p` that leave from die `d` (Table 15.3), as a mask. -/
def dieLanes (p d : Nat) : Nat :=
  match p with
  | 0 => if d % 4 = 3 then 15 * 2 ^ (d - 3) else 0
  | 4 => if d % 4 = 3 then 15 * 2 ^ (d - 3) else 0
  | 1 => if d % 4 = 0 then 15 * 2 ^ d else 0
  | 5 => if d % 4 = 0 then 15 * 2 ^ d else 0
  | 2 => if d = 13 then 0xFF else if d = 14 then 0xFF00 else 0
  | 3 => if d = 1 then 0xFF else if d = 2 then 0xFF00 else 0
  | _ => if d = 1 then 0x0F else if d = 2 then 0xF0 else 0

/-- The lanes of a die in local order (Table 15.3), each with its port. -/
def localLanes (d : Nat) : List (Nat × Nat) :=
  [1, 0, 3, 2, 5, 4, 6].flatMap fun p => (lanesIn (dieLanes p d)).map fun l => (p, l)

/-- The row and column of a land at a depth and a position along the edge of die `d` (R479). -/
def landAt (d depth pos : Nat) : Nat × Nat :=
  if d = 1 ∨ d = 2 then (depth, pos) else if d = 13 ∨ d = 14 then (95 - depth, pos)
  else if d % 4 = 0 then (pos, depth) else (pos, 95 - depth)

/-- The lands of local lane `q` of die `d` (R479): its transmit pair and its receive pair, positive lands first. -/
def laneLands (d q : Nat) : List (Nat × Nat) :=
  let j := if d % 4 = 0 ∨ d % 4 = 3 then d / 4 else d % 4
  let a := 24 * j + (if (localLanes d).length = 8 then 4 else 0) + 2 * q
  [landAt d 1 a, landAt d 1 (a + 1), landAt d 3 a, landAt d 3 (a + 1)]

/-- Lanes that a port may not use: the retired ones, and those on fenced dies until a package reset (R333, R480). -/
def State.deadLanes (s : State) (p : Nat) : Nat :=
  (List.range 16).foldl (fun m d => if s.dieFenced d then m ||| dieLanes p d else m) (s.port p).link.retired

/-- The package's width word on a port: lanes that are healthy and not retired. -/
def State.portWord (s : State) (p healthy : Nat) : WidthWord :=
  let x := s.port p
  let m := without (healthy &&& portLanes p) (s.deadLanes p)
  let cap := if x.peer.maxw = 0 then 16 else x.peer.maxw
  ⟨x.link.gen, portWidth p (min (popCount m 16) cap), m⟩

/-- The width word in a control flit (Table 9.6). -/
def widthWordOf (c : Nat) : WidthWord := ⟨field c 63 60, field c 55 48, field c 33 0⟩
def widthWordBits (w : WidthWord) : Nat := w.map % 2 ^ 34 + w.claim % 2 ^ 8 * 2 ^ 48 + w.gen % 2 ^ 4 * 2 ^ 60

/-- Goes into Retrain with the lanes that are left, and sends WIDTH (R333, R334). -/
def State.retrain (s : State) (p : Nat) : State :=
  let x := s.port p
  let s := s.setLink p { x.link with oldW := if x.link.oldW = 0 then x.link.width else x.link.oldW }
  let s := s.portGo p portRetrain
  let y := s.port p
  (s.setPort p { y with ask := setBit y.ask 0 true, claim := none }).sendControl p 3 (widthWordBits (s.portWord p (portLanes p)))

/-- Takes the port to Retrain with its remaining lanes, or Down where they are too few (R333). -/
def State.dropLanes (s : State) (p : Nat) : State :=
  if portWidth p (popCount (without (portLanes p) (s.deadLanes p)) 16) = 0 then (s.portFails p 1).readmit
  else (s.climb 3).retrain p

/-- What a port does when lanes were retired (R333, R470): a Live one retrains, for one in Retrain it is a dependent fault. -/
def State.lanesLost (s : State) (p : Nat) : State :=
  let x := s.port p
  if x.link.st = portRetrain then
    let r := x.recov.getD ⟨3, 0x210C, s.tick⟩
    let level := if portWidth p (popCount (without (portLanes p) (s.deadLanes p)) 16) = 0 then 4 else 3
    let pair : FaultPair := ⟨r.code, 0x210C, r.level, level, s.tick - r.since⟩
    let s := s.setPort p { x with pairs := x.pairs ++ [pair], recov := some ⟨level, 0x210C, s.tick⟩ }
    if level = 4 then
      let ps := (s.port p).pairs
      ps.foldl (fun s e => s.postCompound 4 p e) (s.dropLanes p)
    else s.dropLanes p
  else if x.link.st = portLive then (s.setPort p { x with recov := some ⟨3, 0x210C, s.tick⟩ }).dropLanes p
  else s

/-- The lanes on a fenced die that belong to ports homed elsewhere go out of use (R480). -/
def State.loseDieLanes (s : State) (d : Nat) : State :=
  ((List.range 7).filter fun p => portDie p != d && (s.port p).link.map &&& dieLanes p d != 0).foldl State.lanesLost s

end Sys2Proof.Machine
end

