-- ==== Sys2Proof/Machine/Life.lean ====
section
/-! DEFINITION. What ends the work of a mast, a partition, a domain, a die pair or the whole package: fences, forced Dark,
stops, the resets' own effects, the protective shutdown (R285, R304, R441, R443, R444, R448 to R450, R465 to R472). -/
namespace Sys2Proof.Machine

/-! ### Masts -/

/-- The requesters of mast `m`: its threads and its streams. -/
def ofMast (m who : Nat) : Bool := who / 1024 == m && decide (who < 3145728)

/-- Forces a mast Dark: threads and descriptors are discarded, no counter moves, the requests that they hold end (R211, R443,
R449, R468). -/
def State.darken (s : State) (m : Nat) : State :=
  ((s.setMast m (s.mast m).darkened).settleTree (mastDie m)).forgetRequests (ofMast m)

/-- Fences a mast (R285): its descriptors end, its threads are discarded, it is off as in Dark. Causes: 1 both halves,
2 sideband, 3 start-up test, 4 die-pair fence (log 28). -/
def State.fenceMast (s : State) (m cause : Nat) : State :=
  let x := s.mast m
  if x.fenced then s
  else
    (((s.setMast m { x.darkened with fenced := true }).settleTree (mastDie m)).forgetRequests (ofMast m)).post
      { code := 0x2260, plane := 2, part := partOr (s.partOfMast m), kind := 2, num := mastDie m, detail := [(2, m), (1, cause)] }

/-- The masts of a partition, ascending. -/
def State.mastsOf (s : State) (p : Nat) : List Nat := (List.range 3072).filter (bitOf (s.val (0x7120 + p) 1))

/-- The masts of a die. -/
def mastsOfDie (d : Nat) : List Nat := (List.range 192).map (192 * d + ·)

/-- A pending Dark request that leaves 2320h as it is (R443). -/
def State.askDark (s : State) (m : Nat) : State :=
  let x := s.mast m
  if x.fenced || x.power == .dark then s else s.setMast m { x with goal := some .dark, held := false }

/-- Brings Dark masts to the state that their requests name (R449 step 3). -/
def State.restoreMasts (s : State) (ms : List Nat) : State := ms.foldl State.grantMast s

/-- Whether a mast has reached the state that its request names (R449). -/
def State.mastSettled (s : State) (m : Nat) : Bool :=
  let x := s.mast m
  if x.fenced || s.domainDown (mastDie m) then x.power == .dark
  else match s.mastRequest m with
    | 0 => (x.power == .lit || x.power == .shuttered) && x.launch.isNone
    | 1 => x.power == .wick
    | _ => x.power == .dark

/-! ### Partitions (Table 14.5) -/

/-- Moves a partition to a state; 7102h reports it. -/
def State.goPart (s : State) (p : Nat) (st : PartState) : State :=
  (s.setPart p { s.part p with st := st }).setVal 0x7102 (p + 1)
    (match st with | .absent => 0 | .live => 1 | .stopped => 2 | .resetting => 3)

/-- Zeroes a partition's panes on a die and abandons their drains; held starts stay (R239, R240, Table 7.3). -/
def State.zeroPanes (s : State) (p d : Nat) : State :=
  let (b, n) := s.allotment p d
  let s := { s with grad := FMap.clearRange s.grad (gradKey d b) (gradKey d (b + n)) }
  [0, 1].foldl (fun s k => s.setPane p d k { s.pane p d k with st := .empty }) s

/-- Aborts every plan of a partition (R376). -/
def State.abortPlans (s : State) (p : Nat) : State :=
  (s.loaded.filter fun k => (s.head k).part == p).foldl State.abortPlan s

/-! ### Resets: records and their events (R448, R450) -/

/-- PART of a reset's events: the partition of a partition reset or of an aborted plan's slot, else package-wide. -/
def State.resetPart (s : State) (kind scope : Nat) : Nat :=
  if kind = 2 then scope else if kind = 5 then (s.head scope).part else partAll

def State.postReset (s : State) (code kind scope : Nat) (count : List (Nat × Nat)) : State :=
  s.post { code := code, plane := 0, part := s.resetPart kind scope, detail := [(1, kind), (2, scope)] ++ count }

/-- Whether the scope of one reset lies inside that of another (R450). A port reset's scope is its subindex of 2630h. -/
def resetInside (kind scope kind' scope' : Nat) : Bool :=
  (kind == kind' && scope == scope') || (kind' == 1 && kind != 1) ||
    (kind == 4 && kind' == 3 && 1 ≤ scope && scope ≤ 7 && portDie (scope - 1) == scope')

def State.resetting (s : State) (kind scope : Nat) : Bool := s.resets.any fun r => r.kind == kind && r.scope == scope

/-- The same, with an aborted plan inside its partition. -/
def State.inside (s : State) (kind scope kind' scope' : Nat) : Bool :=
  resetInside kind scope kind' scope' || (kind == 5 && kind' == 2 && (s.head scope).part == scope')

/-- Begins a reset, or lets the one in progress absorb it; a wider reset takes the inner ones over (R450). -/
def State.beginReset (s : State) (kind scope before : Nat) (act : State → State) : State :=
  if s.resets.any fun r => s.inside kind scope r.kind r.scope then
    { s with resets := s.resets.map fun (r : Reset) =>
        if s.inside kind scope r.kind r.scope then { r with absorbed := r.absorbed + 1 } else r }
  else
    let inner := s.resets.filter fun r => s.inside r.kind r.scope kind scope
    let outer := s.resets.filter fun r => !s.inside r.kind r.scope kind scope
    let s := { s with resets := outer }
    let n := inner.foldl (fun t r => t + 1 + r.absorbed) 0
    let s := s.postReset 0x2610 kind scope []
    let s := act s
    { s with resets := s.resets ++ [{ kind := kind, scope := scope, before := before, since := s.tick, absorbed := n }] }

/-- Reports a reset complete: one that ran to its end is counted in 2640h (R448). -/
def State.reportReset (s : State) (r : Reset) (counted : Bool) : State :=
  let s := { s with resets := s.resets.filter fun q => q.kind != r.kind || q.scope != r.scope }
  let s := if counted then s.bump 0x2640 r.kind 1 else s
  s.postReset 0x2612 r.kind r.scope [(4, r.absorbed)]

/-- What a partition reset clears at its start (Table 13.7, R449 steps 1 to 3). -/
def State.clearPart (s : State) (p : Nat) : State :=
  let s := s.goPart p .resetting
  let s := s.abortPlans p
  let ms := s.mastsOf p
  let s := ms.foldl State.darken s
  let s := (s.paneDies p).foldl (fun s d => s.zeroPanes p d) s
  let s := (s.clearPoison p).trimResetPart p
  s.restoreMasts ms

/-- Stops a partition (R468); causes 1 request, 2 die-pair fence, 3 escalation. A reset of it is abandoned. -/
def State.stopPart (s : State) (p cause : Nat) : State :=
  let st := (s.part p).st
  if st == .absent || st == .stopped then s
  else
    let s := match s.resets.find? fun r => r.kind == 2 && r.scope == p with
      | some r => s.reportReset r false
      | none => s
    let s := (s.goPart p .stopped).abortPlans p
    let s := (s.mastsOf p).foldl State.darken s
    let s := s.trimReset fun q _ x => q = p && x.st == .running
    let s := s.setPoison p 4 0
    s.post { code := 0x7414, plane := 0, part := p, detail := [(1, p), (1, cause)] }

/-! ### Domains (Table 13.5, R444) -/

def State.domain (s : State) (d : Nat) : Nat := s.val 0x2410 (d + 1)
def State.goDomain (s : State) (d v : Nat) : State := s.setVal 0x2410 (d + 1) v

/-- The partitions that hold an allotment on a die. -/
def State.allotted (s : State) (d : Nat) : List Nat :=
  (List.range 16).filter fun p => s.partExists p && (s.allotment p d).2 != 0

/-- Zeroes the allotments of a die and poisons their partitions (R243 cause 3, R444). -/
def State.zeroDie (s : State) (d : Nat) : State :=
  (s.allotted d).foldl (fun s p => (s.zeroPanes p d).setPoison p 3 d) s

/-- A flip of 2400h (R443): 1 shuts domain `d` down, 0 brings it back. -/
def State.flipDomain (s : State) (d v : Nat) : State :=
  match v, s.domain d with
  | 0, 1 => (s.goDomain d 4).post { code := 0x1F40, plane := 0, part := partAll, detail := [(1, 5), (2, d)] }
  | 0, 2 => s.goDomain d 3
  | 0, _ => s
  | _, 4 => s.goDomain d 1
  | _, 0 =>
    let s := (mastsOfDie d).foldl State.askDark (s.goDomain d 1)
    let s := { s with domains := FMap.put s.domains d (s.tick, 0) }
    (s.zeroDie d).readmit
  | _, _ => s

/-! ### Links, routes and the die-pair fence (R298, R304, R472) -/

/-- Whether a link is down for the fence rule: Down, or shut down by 4830h. -/
def State.linkDown (s : State) (l : Nat) : Bool :=
  (linkDirs l).any (fun e => (s.rat e.1 e.2).st == 5) || (s.val 0x4830 (l + 1) == 1 && (linkDirs l).all fun e => (s.rat e.1 e.2).st == 0)

/-- An access of requester `who` is lost on its way: it ends in an uncorrectable data error (R96, R304). -/
def State.failAccess (s : State) (who : Nat) : State :=
  if who < 3145728 then
    let m := who / 1024
    let x := s.mast m
    if 512 ≤ who % 1024 then
      match x.run (who % 1024 - 512) with
      | some r => s.setMast m (x.setRun (who % 1024 - 512) { r with err := true })
      | none => s
    else
      let th := x.thread (who % 1024)
      match th.wait with
      | .result d _ _ => s.setMast m (x.setThread (who % 1024) { th with wait := .result d 0#64 none })
      | _ => s
  else { s with remote := s.remote.map fun q => if portWho q.port q.id = who then { q with err := true } else q }

/-- What a lost ratline flit carried is lost (R304): an access ends in an error, a chunk of a plan is counted and posted, and
its member sends it again from what it holds (R369). -/
def State.loseRat (s : State) (d : Nat) (b : RatBody) : State :=
  match b.load with
  | .other => s
  | .access who => s.failAccess who
  | .chunk k =>
    (s.bump 0x50D0 2 1).post
      { code := 0x3140, plane := 2, part := (s.head k).part, kind := 2, num := d,
        detail := [(1, k), (1, (s.plan k).phase), (4, 0)] }

/-- The retry buffer of a direction is lost, and with it the flits that its receiver has not taken (R304); what a recovery has
noted stays. -/
def State.loseFlow (s : State) (d side : Nat) : State :=
  let f := s.flow d side
  let s := s.setFlow d side { recov := f.recov, pairs := f.pairs }
  (((f.held.filter fun q => f.next ≤ q.1).map fun q => q.2.load).eraseDups).foldl (fun s b =>
    s.loseRat d ⟨0, 0, 0, false, false, b⟩) s

/-- Takes both directions of a link down: retry buffers are lost, and with them what they hold (R304). Causes: 1 too few
lanes, 2 training, 3 die-pair fence (log 28). -/
def State.linkFails (s : State) (l cause : Nat) : State :=
  if (linkDirs l).any fun e => (s.rat e.1 e.2).st == 5 then s
  else
    let s := (linkDirs l).foldl (fun s e =>
      (s.setRat e.1 e.2 { s.rat e.1 e.2 with st := 5, width := 0, map := 0, since := s.tick, before := 0 }).loseFlow e.1 e.2) s
    s.post { code := 0x2240, plane := 2, part := partAll, kind := 5, num := l, detail := [(1, l), (1, cause)] }

/-- Whether some two dies that are not fenced have neither route whole (R304). -/
def State.routesBroken (s : State) : Bool :=
  let ds := (List.range 16).filter fun d => !s.dieFenced d
  ds.any fun a => ds.any fun b => a < b &&
    ((routeLinks false a b).any s.linkDown && (routeLinks true a b).any s.linkDown)

/-- The die pair that is fenced next: the highest-numbered end of a down link, dies 0 and 15 apart (R304). -/
def State.nextFence (s : State) : Option Nat :=
  ((List.range 16).reverse.filter fun d => d != 0 && d != 15 && !s.dieFenced d).find? fun d =>
    (List.range 24).any fun l => s.linkDown l && (linkDirs l).any fun e => e.1 == d

/-- The links of a die. -/
def linksOf (d : Nat) : List Nat := (List.range 24).filter fun l => (linkDirs l).any fun e => e.1 == d

/-- Whether a partition has masts, allotments, or window or slice memory homed on die `d` (R472). A package-interleaved
range lies on every die. -/
def State.touchesDie (s : State) (p d : Nat) : Bool :=
  field (s.val (0x7120 + p) 1) (192 * d + 191) (192 * d) != 0 || (s.allotment p d).2 != 0 ||
  ((List.range 16).any fun k =>
    let w := s.window p k
    winLen w != 0 && (!bitOf w 49 || (s.homesOf p (winBase w) (winLen w)).contains d)) ||
  ((List.range 16).any fun c => ctxOwns (s.context c) p && field (s.context c) 73 64 != 0)

/-- Every cached line homed on die `d` becomes poisoned (R199, R472). -/
def State.poisonLines (s : State) (d : Nat) : State :=
  { s with lines := s.lines.map fun (e : Nat × Line) =>
      (e.1, if s.home (128 * (e.1 % 2 ^ 34)) = d then { e.2 with poison := true } else e.2) }

/-- Turns a domain off without the 1 ms grace (R472). -/
def State.cutDomain (s : State) (d : Nat) : State :=
  if s.domain d == 2 then s
  else
    let s := ((s.goDomain d 2).zeroDie d).post { code := 0x2460, plane := 0, part := partAll, detail := [(1, d), (4, 0)] }
    { s with domains := FMap.erase s.domains d }.flushAgent d

/-- Fences die pair `d` (R472, R480); causes 1 no whole route, 2 a failed domain reset (log 28). -/
def State.fenceDie (s : State) (d cause : Nat) : State :=
  if s.dieFenced d then s
  else
    let s := s.climb 5
    let s := s.setVal 0x7180 1 (setBit (s.val 0x7180 1) d true)
    let s := s.post { code := 0x7510, plane := 0, part := partAll, detail := [(1, d), (1, cause)] }
    let s := (mastsOfDie d).foldl (fun s m => s.fenceMast m 4) s
    let s := { s with resets := s.resets.filter fun r => r.kind != 3 || r.scope != d }
    let s := s.cutDomain d
    let s := (linksOf d).foldl (fun s l => s.linkFails l 3) s
    let s := ((List.range 7).filter fun p => portDie p == d).foldl (fun s p =>
      (s.dropPort p 11).post { code := 0x210E, plane := 2, part := partAll, kind := 4, num := p, detail := [(1, p), (1, 4)] }) s
    let s := (s.loseDieLanes d).poisonLines d
    ((List.range 16).filter fun p => s.partExists p && s.touchesDie p d).foldl (fun s p => s.stopPart p 2) s

/-- Fences die pairs until every pair of dies has a whole route; where only dies 0 and 15 remain, every partition is
stopped (R304). -/
def State.fenceUntil (s : State) : Nat → State
  | 0 => s
  | fuel + 1 =>
    if !s.routesBroken then s
    else match s.nextFence with
      | some d => (s.fenceDie d 1).fenceUntil fuel
      | none => ((List.range 16).filter s.partExists).foldl (fun s p => s.stopPart p 3) (s.climb 6)

/-- A link goes down: routes change, die pairs may be fenced, admission runs again (R298, R304, R382). -/
def State.linkLost (s : State) (l cause : Nat) : State := (((s.climb 4).linkFails l cause).fenceUntil 15).readmit

/-! ### The protective shutdown (R441, R442) -/

/-- What holds outside the pilot domain, lost. -/
def State.loseFabric (s : State) : State :=
  let s := s.plans.foldl (fun s e => s.setPlan e.1 {}) s
  { s with mem := [], poisoned := [], grad := [], panes := [], trims := [], lines := [], uses := 0, directory := [], openRows := [], heldReqs := [], hotSince := [],
           trackers := [], streams := [], hot := [], hbm := [], lantern := [], plans := [], holds := [], sent := [],
           masts := (s.masts.filter fun (e : Nat × Mast) => e.2.fenced).map fun (e : Nat × Mast) => (e.1, { fenced := true }),
           grants := [], silent := [], remote := [], coreLoads := [], bondSince := [], ports := [], rats := [], flows := [], mailSlots := [],
           mailbox := [], peerMail := [] }

/-- Stops every fast clock and switches off every fast rail. -/
def State.darkFabric (s : State) : State := ((s.setVal 0x2000 3 0).setVal 0x2000 4 0).setVal 0x2000 5 0

/-- The protective shutdown: it takes over every reset in progress (R450). -/
def State.shutdown (s : State) : State :=
  ({ s.loseFabric.darkFabric with resets := [] }).setVal 0x2000 1 pkgShutdown

/-! ### The package reset (Table 13.7) -/

/-- Whether an object keeps its value through a package reset: RWP objects, 1000h to 2FFFh, 4000h, 4020h to 4050h, and
what the pilot domain holds of keys, fuses and debug (7000h, 7010h, 7080h). -/
def keptObject (key : Nat) : Bool :=
  let i := key / 256
  (0x1000 ≤ i && i ≤ 0x2FFF) || i == 0x4000 || (0x4020 ≤ i && i ≤ 0x4050) || i == 0x7000 || i == 0x7010 || i == 0x7080 ||
    (match objRow i (key % 256) with | some r => r.access == 4 | none => false)

/-- All but the pilot domain returns to its start; start-up goes on from step 3. -/
def State.resetPackage (s : State) : State :=
  let s := s.loseFabric.darkFabric
  let (key, s) := s.draw 64
  let s := { s with dict := s.dict.filter fun (e : Nat × Octets) => keptObject e.1, parts := [], snaps := [],
                    snapRing := { s.snapRing with recs := [], last := [] }, domains := [], carve := s.val 0x7040 1, power := { s.power with cap := 64, above := 0, atOne := 0, posted := false },
                    fw := { s.fw with ready := false } }
  let s := (s.setPart packageKeyPlace { key := key }).bump 0x3400 17 1
  let s := (List.range 16).foldl (fun s d => s.goDomain d (if s.val 0x2400 (d + 1) = 1 then 2 else 0)) s
  let s := ((s.setVal 0x2500 1 2).setVal 0x2500 2 0).setVal 0x2500 4 0
  let s := s.setVal 0x2100 2 (min 64 (s.val 0x2200 5))
  s.setVal 0x2000 1 pkgBooting

end Sys2Proof.Machine
end

