-- ==== Sys2Proof/Machine/Bond.lean ====
section
/-! DEFINITION. The vertical bond: beats, replays, errors charged to the halves of the data group (R280 to R285). -/
namespace Sys2Proof.Machine

/-- Whether a mast's bond port is in use. -/
def Mast.bonded (x : Mast) : Bool := !x.fenced && x.power != .dark && x.power != .wick

/-- Charges the halves of the data group that carried a differing bit; a port on one half charges that half (R284). -/
def Bond.charge (b : Bond) (flips : Nat) : Bond :=
  let lo := flips % 2 ^ 512 != 0
  let hi := flips / 2 ^ 512 % 2 ^ 512 != 0
  let any := lo || hi
  let onLow := if b.lowerOut then false else if b.upperOut then any else lo
  let onUp := if b.lowerOut then any else if b.upperOut then false else hi
  { b with lowErr := b.lowErr + (if onLow then 1 else 0), upErr := b.upErr + (if onUp then 1 else 0) }

/-- One direction of the data group. -/
def Bond.dir (b : Bond) (upward : Bool) : BondDir := if upward then b.up else b.down
def Bond.setDir (b : Bond) (upward : Bool) (g : BondDir) : Bond := if upward then { b with up := g } else { b with down := g }

/-- BOND_BEAT_RECEIVE (R283, R284). A new beat joins the last 8 that the sender keeps; while a replay is awaited the receiver
discards it, and without one the next beat of the replay arrives. A beat whose CRC or sideband word fails is awaited again;
one that passes is handed on, and each half is charged for the failed copies that differ from it. -/
def execBondBeatReceive (m : Nat) (upward : Bool) (beat : Option Nat) (flips : Nat) (sidebandBad : Bool) (s : State) : Result :=
  let x := s.mast m
  let g := x.bond.dir upward
  guardEvent (m < 3072 && x.bonded && (if beat.isSome then g.back < 8 else g.back != 0)) s <|
    let held := match beat with | some b => (b % 2 ^ 1024 :: g.held).take 8 | none => g.held
    if beat.isSome ∧ g.back ≠ 0 then
      .next (s.setMast m { x with bond := x.bond.setDir upward { g with held := held, back := g.back + 1 } })
    else
      let sent := held.getD (g.back - 1) 0
      let failed := crc16 (sent ^^^ flips % 2 ^ 1024) 128 != crc16 sent 128
      if failed || sidebandBad then
        let b := x.bond.setDir upward { held := held, back := max g.back 1, wrong := flips % 2 ^ 1024 :: g.wrong }
        let s := s.setMast m { x with bond := { b with sideErr := b.sideErr + (if sidebandBad then 1 else 0) } }
        let s := if failed then s.bump (0x4900 + mastDie m) 1 1 else s
        .next ((s.bump (0x4900 + mastDie m) 2 1).climb 1)
      else
        let b := g.wrong.foldl Bond.charge (x.bond.setDir upward { held := held, back := g.back - 1, wrong := [] })
        .next ((s.setMast m { x with bond := b }).emit .bond m (if upward then 1 else 0) ⟨128, sent⟩)

/-- What the end of a window does to one mast (R284, R285). -/
def State.bondWindow (s : State) (m : Nat) : State :=
  let x := s.mast m
  let b := x.bond
  let t := s.val 0x4820 2
  let low := t ≤ b.lowErr
  let up := t ≤ b.upErr
  let s := s.setMast m { x with bond := { b with lowErr := 0, upErr := 0, sideErr := 0 } }
  let halved := fun (s : State) (half : Nat) => s.post
    { code := 0x2250, plane := 2, part := partOr (s.partOfMast m), kind := 2, num := mastDie m, detail := [(2, m), (1, half)] }
  if x.fenced then s
  else if t ≤ b.sideErr then (s.climb 4).fenceMast m 2
  else if low ∧ up then
    (((s.climb 3).climb 4).fenceMast m 1).postCompound 2 (mastDie m) ⟨0x2250, 0x2260, 3, 4, 0⟩
  else if (low ∧ b.upperOut) ∨ (up ∧ b.lowerOut) then (s.climb 4).fenceMast m 1
  else if low then halved ((s.climb 3).setMast m { s.mast m with bond := { (s.mast m).bond with lowerOut := true } }) 1
  else if up then halved ((s.climb 3).setMast m { s.mast m with bond := { (s.mast m).bond with upperOut := true } }) 2
  else s

/-- Halves and sidebands in use, as the window's effect on admission is judged by. -/
def State.bondHealth (s : State) (d : Nat) : List (Bool × Bool × Bool) :=
  (mastsOfDie d).map fun m => let x := s.mast m; (x.fenced, x.bond.lowerOut, x.bond.upperOut)

/-- BOND_WINDOW_END (R284): after 25,000,000 ticks the halves over the threshold are retired, masts fenced, and admission
runs again for either. -/
def execBondWindowEnd (d : Nat) (s : State) : Result :=
  guardEvent (d < 16 && FMap.get s.bondSince d 0 + 1000 * msTicks ≤ s.tick) s <|
    let t := (mastsOfDie d).foldl State.bondWindow { s with bondSince := FMap.set s.bondSince d 0 s.tick }
    .next (if t.bondHealth d == s.bondHealth d then t else t.readmit)

end Sys2Proof.Machine
end

