-- ==== Sys2Proof/Machine/Ratlines.lean ====
section
/-! DEFINITION. Ratline directions: flits, retry, spares, width agreement, and links that go down or off (R286 to R307). -/
namespace Sys2Proof.Machine

/-- Direction states (4800h). -/
def ratOff : Nat := 0
def ratElectrical : Nat := 1
def ratMapping : Nat := 2
def ratLive : Nat := 3
def ratSwitching : Nat := 4
def ratDown : Nat := 5
def ratPending : Nat := 6

/-- All 34 lanes of a direction. -/
def allLanes : Nat := 2 ^ 34 - 1

/-- The largest width that `n` lanes allow, 0 for none (R288). -/
def widthFor (n : Nat) : Nat := if 32 ≤ n then 32 else if 24 ≤ n then 24 else if 16 ≤ n then 16 else 0

/-- Runs `k` for a direction that exists, with the die that sends on it; an edge direction has no events. -/
def onDirection (d side : Nat) (s : State) (k : Nat → Result) : Result :=
  if 16 ≤ d then .next s
  else match neighbourDie d side with
    | none => .next s
    | some e => k e

/-- Whether a direction still carries what its retry buffer holds: Live, switching, or on its way to Off (R305). -/
def RatDir.carries (x : RatDir) : Bool := x.live || (x.st == ratPending && (x.before == ratLive || x.before == ratSwitching))

/-! ### Flits (R289, Tables 9.2 to 9.4) -/

/-- The 64 bytes of a flit. -/
def ratWord (vc typ num ack : Nat) (ackv : Bool) (fill body : Nat) : Nat :=
  let head := fill % 2 ^ 7 + (if ackv then 2 ^ 7 else 0) + ack % 2 ^ 9 * 2 ^ 8 + num % 2 ^ 9 * 2 ^ 17 + typ % 4 * 2 ^ 26 +
    vc % 16 * 2 ^ 28
  let front := head + body % 2 ^ 448 * 2 ^ 32
  front + crc32 front 60 * 2 ^ 480

/-- A data flit. -/
def ratFlit (num ack : Nat) (ackv : Bool) (b : RatBody) : Nat := ratWord b.vc 0 num ack ackv b.fill b.body

/-- Whether the CRC of a received flit passes. -/
def ratCrcOk (w : Nat) : Bool := crc32 (w % 2 ^ 480) 60 == w / 2 ^ 480 % 2 ^ 32

/-- The bits of a width word (Table 9.6). -/
def widthBits (w : WidthWord) : Nat := w.map % 2 ^ 34 + w.claim % 2 ^ 8 * 2 ^ 48 + w.gen % 2 ^ 4 * 2 ^ 60

/-- A control body: the kind in byte 0, its contents after it without gaps, least significant byte first (log 60). -/
def ratBody (kind : Nat) (contents : List (Nat × Nat)) : Octets := packDetail ((1, kind) :: contents)

/-- The next flit of a direction takes the lanes in use from the one after the last bit of the flit before it (R287). -/
def RatDir.advance (x : RatDir) : RatDir := { x with phase := (x.phase + 512) % max x.width 1 }

/-- The lanes that carried the bits set in `flips` (R287). -/
def RatDir.lanesOf (x : RatDir) (flips : Nat) : List Nat :=
  let ls := lanesIn x.map
  (((List.range 512).filter (bitOf flips)).map fun i => ls.getD ((x.phase + i) % max ls.length 1) 0).eraseDups

/-- An idle flit (TYPE 1) or a control flit (TYPE 2) travels on direction `(d, side)` from die `e` with the acknowledgement of
the direction back (R291); what leaves is recorded under `kind`. -/
def State.ratSend (s : State) (d side e typ kind : Nat) (body : Octets) : State :=
  let back := s.flow e (oppositeSide side)
  let w := ratWord 0 typ 0 (back.next + 511) (back.next != 0) body.len body.bits
  (s.setRat d side (s.rat d side).advance).emit .ratline (ratKey d side) kind ⟨64, w⟩

/-- A control flit that the receiver of `(d, side)` sends back to die `e`. -/
def State.ratReturn (s : State) (d side e kind : Nat) (contents : List (Nat × Nat)) : State :=
  s.ratSend e (oppositeSide side) d 2 (16 + kind) (ratBody kind contents)

/-- A control flit that die `e` sends on `(d, side)`. -/
def State.ratForward (s : State) (d side e kind : Nat) (contents : List (Nat × Nat)) : State :=
  s.ratSend d side e 2 (16 + kind) (ratBody kind contents)

/-! ### Retry and credit (R290 to R294, R302, R303) -/

/-- The buffer class of a flit: its VC, on VC 14 requests or responses, in each its primary or its detour class (R302 to
R304). -/
def ratClass (b : RatBody) : Nat := 4 * b.vc + (if b.vc = 14 ∧ b.resp then 1 else 0) + (if b.detour then 2 else 0)

/-- Whether the sender has credit for a flit: each buffer class holds 64 flits (R303, log 60). -/
def RatFlow.credit (f : RatFlow) (b : RatBody) : Bool := FMap.get f.used (ratClass b) 0 < FMap.get f.known (ratClass b) 0 + 64

/-- An acknowledgement of direction `(d, side)` reaches its sender: what it covers is held no more. -/
def State.ratAcked (s : State) (d side : Nat) : State :=
  let f := s.flow d side
  let held := f.held.filter fun q => f.next ≤ q.1
  s.setFlow d side { f with held := held, replay := f.replay.filter fun q => f.next ≤ q.1,
                            moved := if held.length = f.held.length then f.moved else s.tick }

/-- Charges one error to each lane of a list (R294). -/
def RatDir.charge (x : RatDir) (lanes : List Nat) : RatDir :=
  { x with errors := lanes.foldl (fun m l => FMap.put m l (FMap.get m l 0 + 1)) x.errors }

/-- A good copy of flit `n` has come: the failed ones are compared with it (R294). -/
def State.ratCompare (s : State) (d side n : Nat) : State :=
  let f := s.flow d side
  let failed := f.failed.filter fun e => e.1 == n
  (s.setRat d side (failed.foldl (fun x e => x.charge e.2) (s.rat d side))).setFlow d side
    { f with failed := f.failed.filter fun e => e.1 != n }

/-- A discarded flit: one NAK names the expected SEQ (R291). -/
def State.ratDiscard (s : State) (d side e : Nat) : State :=
  let f := s.flow d side
  if f.nak then s
  else ((s.climb 1).setFlow d side { f with nak := true, naks := f.naks ++ [f.next] }).ratReturn d side e 1 [(2, f.next % 512)]

/-- The receiver's side of a data flit, number `n`, that comes in with some bits flipped (R291 to R294). -/
def State.ratReceive (s : State) (d side e n : Nat) (b : RatBody) (flips : Nat) : State :=
  let x := s.rat d side
  let f := s.flow d side
  let back := s.flow e (oppositeSide side)
  let w := ratFlit n (back.next + 511) (back.next != 0) b ^^^ flips % 2 ^ 512
  let s := s.setRat d side x.advance
  if !ratCrcOk w then
    ((s.bump (0x4800 + d) (0x0D + side) 1).setFlow d side { f with failed := f.failed ++ [(n, x.lanesOf flips)] }).ratDiscard d side e
  else
    let s := (s.ratCompare d side n).ratAcked e (oppositeSide side)
    if n = f.next ∧ field w 25 17 = f.next % 512 then
      let g := s.flow d side
      (s.setFlow d side { g with next := n + 1, nak := false, freed := FMap.set g.freed (ratClass b) 0 (FMap.get g.freed (ratClass b) 0 + 1) }).emit
        .ratline (ratKey d side) 0 ⟨b.fill, b.body % 2 ^ (8 * b.fill)⟩
    else if n < f.next then s
    else s.ratDiscard d side e

/-- RATLINE_DATA_FLIT (R291, R303, R305): a new flit, against credit and while fewer than 256 are unacknowledged, or the next
one of a replay. -/
def execRatlineDataFlit (d side : Nat) (fresh : Option RatBody) (flips : Nat) (s : State) : Result :=
  onDirection d side s fun e =>
    let x := s.rat d side
    let f := s.flow d side
    match fresh, f.replay with
    | some b, [] =>
      guardEvent (x.live && s.val 0x4830 (linkOf d side + 1) != 1 && f.held.length < 256 && b.vc < 15 && f.credit b) s <|
        let s := s.setFlow d side
          { f with sent := f.sent + 1, held := f.held ++ [(f.sent, b)], used := FMap.set f.used (ratClass b) 0 (FMap.get f.used (ratClass b) 0 + 1),
                   moved := if f.held.isEmpty then s.tick else f.moved }
        .next (s.ratReceive d side e f.sent b flips)
    | none, (n, b) :: rest =>
      guardEvent x.carries s <|
        .next (((s.setFlow d side { f with replay := rest }).bump (0x4800 + d) (0x11 + side) 1).ratReceive d side e n b flips)
    | _, _ => .next s

/-- RATLINE_NAK (R291, R293): the sender replays every held flit from the named SEQ; the NAK goes before an acknowledgement. -/
def execRatlineNak (d side : Nat) (s : State) : Result :=
  onDirection d side s fun _ =>
    let f := s.flow d side
    match f.naks with
    | [] => .next s
    | n :: rest =>
      guardEvent (s.rat d side).carries s <|
        let held := f.held.filter fun q => n ≤ q.1
        .next (s.setFlow d side { f with naks := rest, held := held, replay := held,
                                         moved := if held.length = f.held.length then f.moved else s.tick })

/-- RATLINE_CREDIT (R290, R303): the running totals of flits freed reach the sender. -/
def execRatlineCredit (d side : Nat) (s : State) : Result :=
  onDirection d side s fun e =>
    let f := s.flow d side
    let total := fun k => (2, FMap.get f.freed k 0 % 65536)
    let totals := fun detour => (List.range 15).map (fun v => total (4 * v + detour)) ++ [total (57 + detour), (1, detour / 2)]
    guardEvent (s.rat d side).carries s <|
      .next ((((s.setFlow d side { f with known := f.freed }).ratReturn d side e 2 (totals 0)).ratReturn d side e 2
        (totals 2)).ratAcked d side)

/-- RATLINE_RETRY_TIMEOUT (R291): no acknowledgement advanced for 2 µs; the sender replays from its oldest held flit. -/
def execRatlineRetryTimeout (d side : Nat) (s : State) : Result :=
  onDirection d side s fun _ =>
    let f := s.flow d side
    guardEvent ((s.rat d side).carries && !f.held.isEmpty && f.moved + 50 ≤ s.tick) s <|
      .next ((s.setFlow d side { f with moved := s.tick, replay := f.held }).climb 1)

/-- RATLINE_IDLE (R291): an idle flit delivers its acknowledgement. -/
def execRatlineIdle (d side : Nat) (s : State) : Result :=
  onDirection d side s fun e =>
    guardEvent (s.rat d side).carries s <| .next ((s.ratSend d side e 1 1 ⟨0, 0⟩).ratAcked e (oppositeSide side))

/-! ### Training (R298 to R301, Table 9.5) -/

/-- The lanes that the receiver counts healthy: its electrical test passed them, its record does not retire them. -/
def RatDir.healthy (x : RatDir) : Nat := without (without allLanes x.bad) x.retR

/-- The receiver's width word (R300). -/
def RatDir.word (x : RatDir) : WidthWord := ⟨2, widthFor (popCount x.healthy 34), x.healthy⟩

/-- Goes into map exchange. -/
def State.ratMap (s : State) (d side : Nat) (old : Nat) : State :=
  let x := s.rat d side
  let f := s.flow d side
  (s.setRat d side { x with st := ratMapping, old := old, since := s.tick }).setFlow d side
    { f with claimed := none, swap := none, waiting := [], asked := 2 }

/-- A failed training: Electrical again, or Down after the third in a row (R298). -/
def State.ratFail (s : State) (d side : Nat) : State :=
  let x := s.rat d side
  let s := s.bump (0x4800 + d) (0x15 + side) 1
  let s := s.setRat d side { x with fails := x.fails + 1, st := ratElectrical, since := s.tick }
  if 3 ≤ x.fails + 1 then s.linkLost (linkOf d side) 2 else s

/-- RATLINE_ELECTRICAL_DONE (R298): lanes with bit errors are unhealthy; map exchange begins with at least 16. -/
def execRatlineElectricalDone (d side bad : Nat) (s : State) : Result :=
  onDirection d side s fun _ =>
    let x := { s.rat d side with bad := bad % 2 ^ 34 }
    guardEvent (x.st == ratElectrical) s <|
      let s := s.setRat d side x
      .next (if popCount x.healthy 34 < 16 then s.ratFail d side else s.ratMap d side x.old)

/-- The width word of a transmitter that is willing to drive the lanes of `word`: a lane that its record shows retired is
marked unhealthy, and it claims no more than it has (R299, R300). -/
def RatDir.drives (x : RatDir) (word : WidthWord) : WidthWord :=
  let m := without (word.map % 2 ^ 34) x.retT
  { word with map := m, claim := min word.claim (widthFor (popCount m 34)) }

/-- RATLINE_WIDTH (R300, R301): the transmitter's width word; one of another generation fails the exchange. -/
def execRatlineWidth (d side : Nat) (word : WidthWord) (s : State) : Result :=
  onDirection d side s fun _ =>
    guardEvent ((s.rat d side).st == ratMapping) s <|
      .next (if word.gen ≠ 2 then s.ratFail d side
        else s.setFlow d side { s.flow d side with claimed := some ((s.rat d side).drives word) })

/-- The map and width on which two words agree (R300): agreed map and width. -/
def settleWords (a b : WidthWord) : Nat × Nat :=
  let m := (a.map &&& b.map) % 2 ^ 34
  (m, min (widthFor (popCount m 34)) (widthFor (min a.claim b.claim)))

/-- The compound records that wait for the end of a recovery are posted (R471). -/
def State.settlePairs (s : State) (d side : Nat) : State :=
  let f := s.flow d side
  f.pairs.foldl (fun s p => s.postCompound 5 (linkOf d side) p) (s.setFlow d side { f with pairs := [], recov := none })

/-- RATLINE_MAP_EXCHANGE_DONE (R287, R296, R300): width and map are latched or settled and the direction is Live. The detail of
2220h is that of Table 14.9, without the agreed map that Table 9.9 names too (log 60). -/
def execRatlineMapExchangeDone (d side : Nat) (s : State) : Result :=
  onDirection d side s fun _ =>
    let x := s.rat d side
    let f := s.flow d side
    let l := linkOf d side
    match f.claimed with
    | none => .next s
    | some w =>
      let own := x.word
      let (m, width) := settleWords own w
      guardEvent (x.st == ratMapping && width != 0) s <|
        let differ := own != w
        let ret := if differ then without allLanes m else x.retR
        let x := { x with st := ratLive, width := width, map := laneMask ((lanesIn m).take width), agreed := m, fails := 0,
                          retR := ret, retT := if differ then ret else x.retT, since := s.tick, phase := 0 }
        let s := (s.setRat d side { x with old := 0 }).setFlow d side { f with claimed := none, asked := 0 }
        let s := if differ then s.post
            { code := 0x2220, plane := 2, part := partAll, kind := 5, num := l,
              detail := [(1, l), (1, d), (1, own.claim), (1, w.claim), (1, width)] }
          else s
        let s := if x.old ≠ 0 ∧ width < x.old then s.post
            { code := 0x2210, plane := 2, part := partAll, kind := 5, num := l,
              detail := [(1, l), (1, d), (1, x.old), (1, width)] }
          else s
        .next (s.settlePairs d side).readmit

/-- RATLINE_MAP_TIMEOUT (R298): no agreement within 100 µs, or too few lanes agreed. -/
def execRatlineMapTimeout (d side : Nat) (s : State) : Result :=
  onDirection d side s fun _ =>
    let x := s.rat d side
    let few := match (s.flow d side).claimed with
      | some w => (settleWords x.word w).2 == 0
      | none => false
    guardEvent (x.st == ratMapping && (x.since + 2500 ≤ s.tick || few)) s <| .next (s.ratFail d side)

/-- RATLINE_TRAINING_FRAMES_SEEN (R299): the other end was reset; the record of retired lanes is kept. -/
def execRatlineTrainingFramesSeen (d side : Nat) (s : State) : Result :=
  onDirection d side s fun _ => guardEvent (s.rat d side).live s <| .next (s.ratMap d side 0)

/-! ### Lanes that wear out (R294 to R298, R470) -/

/-- The lowest spare of a direction: agreed, not in use, not retired. -/
def RatDir.spare (x : RatDir) : Option Nat := (lanesIn x.agreed).find? fun l => !bitOf x.map l && !bitOf x.retR l

/-- Drops to a lower width without some lanes, or takes the link down where 16 are not left (R296, R298). -/
def State.ratDrop (s : State) (d side : Nat) (lanes : List Nat) : State :=
  let x := s.rat d side
  let x := { x with retR := x.retR ||| laneMask lanes, old := if x.old = 0 then x.width else x.old }
  let s := s.setRat d side x
  let left := without (without x.agreed x.retR) x.bad
  if popCount left 34 < 16 then (s.linkLost (linkOf d side) 1).settlePairs d side
  else
    let f := s.flow d side
    let s := s.setFlow d side { f with waiting := [], recov := some (match f.recov with
      | some r => { r with level := 3 }
      | none => ⟨3, 0x2210, s.tick⟩) }
    (s.climb 3).ratMap d side x.old

/-- Sends the control word of a direction that is not yet answered: RETIRE with the lane and the SEQ of the last flit in order,
WIDTH, or SWITCH (R290, R295, Table 9.4). -/
def State.ratAsk (s : State) (d side : Nat) : State :=
  let f := s.flow d side
  match neighbourDie d side, f.asked with
  | some e, 1 => s.ratReturn d side e 3 [(1, (f.swap.getD (0, 0)).1), (2, (f.swapSeq + 511) % 512)]
  | some e, 2 => s.ratReturn d side e 4 [(8, widthBits (s.rat d side).word)]
  | some e, 3 => s.ratForward d side e 5 []
  | _, _ => s

/-- Retires lanes in ascending order: the first by a spare, while the others wait; all together where none is left. -/
def State.ratRetire (s : State) (d side : Nat) (lanes : List Nat) : State :=
  match lanes with
  | [] => s
  | l :: rest =>
    let x := s.rat d side
    match x.spare with
    | none => s.ratDrop d side lanes
    | some sp =>
      let f := s.flow d side
      let s := (((s.climb 2).setRat d side { x with st := ratSwitching, since := s.tick })).setFlow d side
        { f with swap := some (l, sp), swapSeq := f.next, asked := 1, waiting := rest, recov := some ⟨2, 0x2230, s.tick⟩ }
      s.ratAsk d side

/-- A dependent fault strikes a recovery (R297, R470): it is abandoned, and the direction retrains without the lanes of
both. -/
def State.ratCompound (s : State) (d side : Nat) (lanes : List Nat) (code : Nat) : State :=
  let x := s.rat d side
  let f := s.flow d side
  let r := f.recov.getD ⟨3, 0x2210, s.tick⟩
  let mine := match f.swap with | some (l, _) => [l] | none => []
  let gone := mine ++ f.waiting ++ lanes
  let left := without (without x.agreed (x.retR ||| laneMask gone)) x.bad
  let level := if popCount left 34 < 16 then 4 else 3
  let s := s.setFlow d side { f with swap := none, asked := 0, waiting := [], recov := some ⟨level, code, s.tick⟩,
                                     pairs := f.pairs ++ [⟨r.code, code, r.level, level, s.tick - r.since⟩] }
  s.ratDrop d side gone

/-- RATLINE_LANE_WINDOW_END (R294 to R298): after 25,000,000 ticks the lanes over the threshold of 4820h:01 are retired. -/
def execRatlineLaneWindowEnd (d side : Nat) (s : State) : Result :=
  onDirection d side s fun _ =>
    let x := s.rat d side
    guardEvent (x.window + 1000 * msTicks ≤ s.tick) s <|
    let bad := (lanesIn x.map).filter fun l => s.val 0x4820 1 ≤ FMap.get x.errors l 0
    let s := s.setRat d side { x with errors := [], window := s.tick }
    let busy := x.st == ratSwitching || (x.st == ratMapping && (s.flow d side).recov.isSome)
    if bad.isEmpty then .next s
    else if busy then .next (s.ratCompound d side bad (if x.spare.isSome then 0x2230 else 0x2210))
    else if x.st = ratLive then .next (s.ratRetire d side bad)
    else if x.st = ratMapping then .next (s.ratDrop d side bad)
    else .next s

/-- RATLINE_CONTROL_RESEND (R290): an unanswered RETIRE, WIDTH or SWITCH is sent again. -/
def execRatlineControlResend (d side : Nat) (s : State) : Result :=
  onDirection d side s fun _ => guardEvent ((s.flow d side).asked != 0) s <| .next (s.ratAsk d side)

/-- RATLINE_RETIRE (R295): the sender takes up the lane named, and once the SEQ named is sent it sends SWITCH. -/
def execRatlineRetire (d side : Nat) (s : State) : Result :=
  onDirection d side s fun _ =>
    let f := s.flow d side
    match f.asked, f.swap with
    | 1, some (l, _) =>
      let x := s.rat d side
      guardEvent (f.swapSeq ≤ f.sent) s <|
        .next ((((s.setRat d side { x with retT := setBit x.retT l true }).setFlow d side { f with asked := 3 }).ratAsk d
          side).ratAcked d side)
    | _, _ => .next s

/-- RATLINE_SWITCH (R295, R470): the receiver applies the new map; a spare that does not lock is a dependent fault. -/
def execRatlineSwitch (d side : Nat) (spareLocks : Bool) (s : State) : Result :=
  onDirection d side s fun e =>
    let f := s.flow d side
    match f.asked, f.swap with
    | 3, some (l, sp) =>
      if !spareLocks then .next (s.ratCompound d side [sp] 0x2230)
      else
        let x := s.rat d side
        let n := linkOf d side
        let s := s.setRat d side { x with st := ratLive, map := setBit (setBit x.map l false) sp true,
                                          retR := setBit x.retR l true, since := s.tick, phase := 0 }
        let s := s.setFlow d side { f with swap := none, asked := 0, waiting := [], recov := none }
        let s := s.post { code := 0x2230, plane := 2, part := partAll, kind := 5, num := n,
                          detail := [(1, n), (1, d), (1, l), (1, sp)] }
        .next ((s.ratRetire d side f.waiting).ratAcked e (oppositeSide side))
    | _, _ => .next s

/-! ### Disabling a link (R305, R418) -/

/-- A flip of 4830h for link `l` (R305): an enable while it still drains is held. -/
def State.flipLink (s : State) (l v : Nat) : State :=
  let ds := linkDirs l
  if v = 1 then ds.foldl (fun s e =>
    let x := s.rat e.1 e.2
    if x.st = ratPending then s.setRat e.1 e.2 { x with st := x.before, before := 0 } else s) s
  else if ds.all fun e => (s.rat e.1 e.2).st == ratOff then
    if s.pkg = pkgReady ∨ s.pkg = pkgBooting then
      ds.foldl (fun s e => s.setRat e.1 e.2 { s.rat e.1 e.2 with st := ratElectrical, since := s.tick }) s
    else s
  else if ds.any fun e => (s.rat e.1 e.2).st == ratDown then s
  else
    (ds.foldl (fun s e =>
      let x := s.rat e.1 e.2
      if x.st = ratPending then s else s.setRat e.1 e.2 { x with st := ratPending, before := x.st }) s).post
      { code := 0x1F40, plane := 0, part := partAll, detail := [(1, 2), (2, l)] }

/-- RATLINE_LINK_OFF (R305): the retry buffers have drained; a held enable proceeds. -/
def execRatlineLinkOff (l : Nat) (s : State) : Result :=
    let ds := linkDirs l
    let held := ds.any fun e => (s.rat e.1 e.2).st == ratPending
    let up := ds.any fun e => (s.rat e.1 e.2).st != ratOff && (s.rat e.1 e.2).st != ratDown
    let asked := s.val 0x4830 (l + 1) == 1 || held || s.resetting 4 (l + 8)
    guardEvent (l < 24 && asked && up && ds.all fun e => (s.flow e.1 e.2).held.isEmpty) s <|
      let again := held || s.resetting 4 (l + 8)
      let s := ds.foldl (fun s e =>
        let x := s.rat e.1 e.2
        let x := { x with st := if again then ratElectrical else ratOff, width := 0, map := 0, since := s.tick, before := 0 }
        (s.setRat e.1 e.2 (if s.resetting 4 (l + 8) then { x with retR := 0, retT := 0, bad := 0, fails := 0 } else x)).setFlow
          e.1 e.2 {}) s
      .next (s.fenceUntil 15).readmit

end Sys2Proof.Machine
end

