-- ==== Sys2Proof/Machine/Stays.lean ====
section
/-! DEFINITION. Bring-up, retry, keys, errors and shut-down of the external ports (R309, R313 to R335, R346). -/
namespace Sys2Proof.Machine

/-- Runs `k` for a port that exists; one that does not has no events. -/
def onPort (p : Nat) (s : State) (k : Result) : Result := guardEvent (p < 7) s k

/-! ### Identities (R324, R458, R459) -/

/-- The identity digest of an Ed448 key: the first 128 bits of its SHAKE256 output (R324). -/
def identityOf (key : Nat) : Nat := (shake256 ⟨57, key % 2 ^ 456⟩ 16).bits

/-- Whether an identity digest is refused by 7052h (R459). -/
def State.refusedIdentity (s : State) (digest : Nat) : Bool :=
  (List.range 32).any fun i => let v := s.val 0x7052 (i + 1); v != 0 && v == digest

/-- The operator anchors of 7050h that are not empty. -/
def State.anchors (s : State) : List Nat :=
  ((List.range 4).map fun i => s.val 0x7050 (i + 1)).filter (· != 0)

/-- Whether a chain holds within R458 and leads to an operator anchor. -/
def State.chainToAnchor (s : State) (chain : Octets) : Bool := s.anchors.any (Config.chainAnchored chain)

/-- Whether a partner's chain is accepted on a port (R459). -/
def State.chainOnPort (s : State) (p : Nat) (chain : Octets) : Bool :=
  decide (chain.len ≤ 8192) && !s.refusedIdentity (identityOf (Config.chainLeaf chain)) &&
    (if p = 6 then s.chainToAnchor chain else Config.chainRooted chain 1)

/-- The package's own identity digest and chain. -/
def State.ownDigest (s : State) : Nat := s.val 0x1000 9
def State.ownChain (s : State) : Octets := s.obj 0x1000 0x0B

/-- The package's capability word on a port (R320). -/
def capabilityWord (p : Nat) : Nat := if p = 6 then 0x210103080F000000 else 0x210103100F000000

/-- The transcript digest of a port (R324): the side with the lower identity digest first. -/
def State.transcript (s : State) (p : Nat) (digest : Nat) (chain : Octets) : Octets :=
  let x := (s.port p).peer
  let mine := decide (s.ownDigest ≤ digest)
  let pair := fun (a b : Octets) => if mine then Octets.append a b else Octets.append b a
  shake256 (Octets.append (pair ⟨8, capabilityWord p⟩ ⟨8, x.word⟩)
    (Octets.append (pair x.nonce x.peerNonce) (Octets.append (pair ⟨1, p⟩ ⟨1, x.peerPort⟩) (pair s.ownChain chain)))) 64

/-- STAY_PARTNER_LOST (R331, R347): a Live port posts the loss; a bring-up is only counted. -/
def execStayPartnerLost (p : Nat) (s : State) : Result :=
  onPort p s <|
    let x := s.port p
    let st := x.link.st
    guardEvent (st != portOff && st ≤ portRetrain) s <|
      let s := if st = portPresence then s else s.bump (0x4010 + p) 0x11 1
      if st = portLive ∨ st = portRetrain then
        .next (((s.climb 4).postPort 0x2104 p [(1, p), (16, x.peer.digest), (4, x.peer.coord)]).portFalls p portPresence true).readmit
      else .next (s.portFalls p portPresence true)

/-- Quarantines a port (R328): 2106h with the cause, and nothing where a check fails again with the cause held. What waits to
leave goes elsewhere where it may; what a retraining had kept is discarded (R317). -/
def State.quarantine (s : State) (p cause : Nat) : State :=
  let x := s.port p
  if x.link.st = portQuarantined ∧ x.link.cause = cause then s
  else
    let s := if x.link.keep then s.loseHeld p else s
    let s := s.portGo p portQuarantined
    let y := s.port p
    let s := (s.setLink p { y.link with cause := cause, keep := false }).postPort 0x2106 p [(1, p), (1, cause)]
    let s := s.rerouteQueue p
    if x.link.st = portLive then s.readmit else s

/-! ### Steps 1 and 2 (R319, R323, R334) -/

/-- Whether a stay port's axis has more than one package; the bowsprit has no axis (R327). -/
def State.hasAxis (s : State) (p : Nat) : Bool := p = 6 || 1 < coordAt s.sizes (p / 2)

/-- Enables a port: from Off to Presence-wait where lane clocks and power are granted (R319). -/
def State.enablePort (s : State) (p : Nat) : State :=
  if s.portState p = portOff ∧ s.hasAxis p ∧ s.val (0x4010 + p) 1 = 1 ∧ (s.pkg = pkgReady ∨ s.pkg = pkgBooting)
  then s.portGo p portPresence else s

/-- STAY_PRESENCE_DETECTED (R319): a partner's signal for 10 ms. -/
def execStayPresenceDetected (p : Nat) (s : State) : Result :=
  onPort p s <|
    let x := s.port p
    guardEvent (x.link.st == portPresence) s <| .next ((s.setLink p { x.link with slow := false, trials := 0, again := 0 }).portGo p portElectrical)

/-- A failed training: three in a row take the port Down (Table 10.6). -/
def State.trainFails (s : State) (p : Nat) : State :=
  let x := s.port p
  if 3 ≤ x.link.fails + 1 then (s.portFails p 2).readmit
  else s.setPort p { x with link := { x.link with fails := x.link.fails + 1, trials := 0, slow := x.link.again == 2 }, since := s.tick }

/-- STAY_RATE_ALTERNATE (R323): the lanes did not lock within 50 ms, and the port tries its other rate; the step fails after
200 ms. A port that has returned for a higher rate trains at that rate alone; where that fails it trains at the lower rate
alone. -/
def execStayRateAlternate (p : Nat) (s : State) : Result :=
  onPort p s <|
    let x := s.port p
    guardEvent (x.link.st == portElectrical && x.since + 50 * msTicks ≤ s.tick) s <|
      .next (if x.link.trials < 3 then
          s.setPort p { x with link := { x.link with trials := x.link.trials + 1,
                                                     slow := if x.link.again = 0 then !x.link.slow else x.link.slow },
                               since := s.tick }
        else if x.link.again = 1 then
          s.setPort p { x with link := { x.link with again := 2, slow := true, trials := 0 }, since := s.tick }
        else s.trainFails p)

/-- The map and width that two words settle (R300, R334). -/
def settlePort (p : Nat) (a b : WidthWord) : Nat × Nat :=
  let m := a.map &&& b.map &&& portLanes p
  (m, portWidth p (min (popCount m 16) (min a.claim b.claim)))

/-- Latches an agreed width and map, and posts a disagreement (R334). -/
def State.latchWidth (s : State) (p : Nat) (a b : WidthWord) : State :=
  let (m, w) := settlePort p a b
  let x := s.port p
  let s := s.setLink p { x.link with width := w, map := laneMask ((lanesIn m).take w),
                                     retired := if a = b then x.link.retired else without (portLanes p) m }
  if a = b then s else s.postPort 0x2116 p [(1, p), (1, a.claim), (1, b.claim), (1, w)]

/-- STAY_ELECTRICAL_DONE (R321, R323, R334): lanes locked, width agreed, latency measured; step 3 begins. -/
def execStayElectricalDone (p : Nat) (healthy roundTripNs : Nat) (word : WidthWord) (s : State) : Result :=
  onPort p s <|
    let x := s.port p
    guardEvent (x.link.st == portElectrical) s <|
      let own := s.portWord p healthy
      if (settlePort p own { word with gen := own.gen }).2 = 0 then .next (s.portFails p 1).readmit
      else
        let s := s.latchWidth p own { word with gen := own.gen }
        let x := s.port p
        let l := { x.link with latency := (roundTripNs + 1) / 2, rate := if x.link.slow then 200 else 400, fails := 0, gen := 0,
                                ver := 0 }
        let s := s.setLink p l
        if 600 < l.latency then .next (s.quarantine p 12)
        else
          let (nonce, s) := s.draw 256
          let s := s.portGo p portCapability
          let x := s.port p
          let s := s.setPort p { x with peer := { x.peer with nonce := ⟨32, nonce⟩, word := 0, told := false, valid := false, admitted := false } }
          .next (s.sendPort p 0 (message 2 0 0 0 (Octets.append ⟨8, capabilityWord p⟩ (Octets.append ⟨32, nonce⟩ ⟨8, p⟩))))

/-! ### Steps 3 to 8 (R320 to R327) -/

/-- Fields of a capability word (Table 10.7). -/
def capGmax (w : Nat) : Nat := field w 63 60
def capGmin (w : Nat) : Nat := field w 59 56
def capRole (w : Nat) : Nat := field w 55 52
def capVer (w : Nat) : Nat := field w 51 48
def capRates (w : Nat) : Nat := field w 47 40
def capMaxw (w : Nat) : Nat := field w 39 32
def capFeat (w : Nat) : Nat := field w 31 24

/-- The agreement of two capability words (R321 to R323), once both are acknowledged: the port goes on to step 4, or returns
once to step 2 for a higher rate. Words without a common rate count as no common generation (log 36). -/
def State.agree (s : State) (p : Nat) : State :=
  let x := s.port p
  let own := capabilityWord p
  let word := x.peer.word
  let gen := min (capGmax own) (capGmax word)
  let ver := if capGmax own = capGmax word then min (capVer own) (capVer word)
    else if capGmax own = gen then capVer own else capVer word
  let rates := capRates own &&& capRates word
  let peer := { x.peer with maxw := min (capMaxw own) (capMaxw word), feat := if gen = 1 then 0 else capFeat own &&& capFeat word }
  if gen < capGmin own ∨ gen < capGmin word ∨ rates % 4 = 0 then (s.setPort p { x with peer := peer }).quarantine p 1
  else if bitOf rates 1 ∧ x.link.rate = 200 ∧ x.link.again = 0 then
    (s.setLink p { x.link with again := 1, slow := false, trials := 0 }).portGo p portElectrical
  else
    let w := portWidth p (min x.link.width peer.maxw)
    let link := { x.link with gen := gen, ver := ver, width := w, map := laneMask ((lanesIn x.link.map).take w),
                              rate := if x.link.again = 2 then 200 else if bitOf rates 1 then 400 else 200 }
    (s.setPort p { x with peer := peer, link := link }).portGo p portIdentity

/-- Whether both capability words are acknowledged: the partner's has come, and no flit of this side's is held (R323). -/
def Port.wordsExchanged (x : Port) : Bool :=
  x.link.st == portCapability && x.peer.told &&
    !(x.tx.held.any fun q => headKind q.2.head == 2) && !(x.tx.queue.any fun q => headKind q.head == 2)

/-- Steps out of step 3 where its words are exchanged. -/
def State.settleWords (s : State) (p : Nat) : State := if (s.port p).wordsExchanged then s.agree p else s

/-- CAPABILITY (R321, R323): the partner's word, nonce and port number; it is acknowledged, and the agreement follows when this
side's word is acknowledged too. -/
def execCapability (p : Nat) (msg : CapabilityMsg) (s : State) : Result :=
  onPort p s <|
    let x := s.port p
    guardEvent (x.link.st == portCapability) s <|
      let s := s.setPort p { x with peer := { x.peer with word := msg.word, told := true, peerNonce := msg.nonce, peerPort := msg.port } }
      .next ((s.sendControl p 0 0).settleWords p)

/-- Fields of a permission entry (Table 10.8). -/
def permId (v : Nat) : Nat := field v 255 128
def permG1 (v : Nat) : Bool := bitOf v 120
def permTransit (v : Nat) : Bool := bitOf v 119
def permDict (v : Nat) : Bool := bitOf v 118
def permFeed (v : Nat) : Bool := bitOf v 117
def permPart (v q : Nat) : Bool := bitOf v (96 + q)
def permVc (v vc : Nat) : Bool := bitOf v (81 + vc)
def permPort (v p : Nat) : Bool := bitOf v (74 + p)

/-- The permission entry for an identity digest: its own, else the first with ID zero (R326). -/
def State.permission (s : State) (digest : Nat) : Option Nat :=
  let es := (List.range 64).map fun i => s.val 0x4050 (i + 1)
  match es.find? fun v => permId v == digest && digest != 0 with
  | some v => some v
  | none => es.find? fun v => permId v == 0

/-- Whether a partner has passed steps 4 and 5, which come before step 6 (R319): its chain and signature were accepted, and the
link has keys or is of generation 1. -/
def Port.identified (x : Port) : Bool := x.peer.valid && (x.link.gen == 1 || x.keys.out.len != 0)

/-- The cause with which step 6 fails, 0 where it passes (R326). A partner that has not passed the steps before it stays with
the cause for which it did not (log 61). -/
def State.permissionCause (s : State) (p : Nat) : Nat :=
  let x := s.port p
  if !x.identified then (if x.link.cause = 0 then 5 else x.link.cause)
  else match s.permission x.peer.digest with
  | none => 5
  | some v =>
    if !permPort v p then 5
    else if x.link.gen = 1 ∧ !permG1 v then 6
    else if p = 6 ∧ (!permFeed v ∨ capRole x.peer.word ≠ 1) then 10
    else if p < 6 ∧ capRole x.peer.word ≠ 0 then 10
    else 0

/-- The coordinate that the partner on a stay port must report (R327). -/
def State.expectedCoord (s : State) (p : Nat) : Nat :=
  let a := p / 2
  let n := max (coordAt s.sizes a) 1
  let c := coordAt s.coord a
  coordWith s.coord a ((c + (if p % 2 = 0 then 1 else n - 1)) % n)

/-- The cause with which step 7 fails, 0 where it passes (R327). -/
def State.coordCause (s : State) (p : Nat) : Nat :=
  let x := (s.port p).peer
  if !coordInRange x.coord then 7
  else if x.coord ≠ s.expectedCoord p ∨ x.peerPort ≠ (if p % 2 = 0 then p + 1 else p - 1) then 8
  else if x.sizes ≠ s.sizes then 9
  else 0

/-- Enters Live (R319): 2102h, and admission runs again; waiting flits leave, and credit withheld in quarantine is returned
(R328). -/
def State.portUp (s : State) (p : Nat) : State :=
  let s := s.portGo p portLive
  let x := s.port p
  let s := s.setPort p { x with link := { x.link with cause := 0, keep := false, kept := 0 }, rx := { x.rx with withheld := [] } }
  let s := x.rx.withheld.foldl (fun s e => s.freeCredit p (e.1 / 4) (e.1 % 4) e.2) s
  let x := s.port p
  ((s.postPort 0x2102 p [(1, p), (16, x.peer.digest), (1, x.link.gen), (1, x.link.width), (4, x.link.latency)]).pump p).readmit

/-- Step 7, then Live (R327, R348). -/
def State.checkCoord (s : State) (p : Nat) : State :=
  let c := if p = 6 then 0 else s.coordCause p
  if c ≠ 0 then s.quarantine p c else s.portUp p

/-- Step 6 and, where it passes, step 7 (R326, R327): the entry in use is latched. -/
def State.checkPermission (s : State) (p : Nat) : State :=
  let c := s.permissionCause p
  let x := s.port p
  if c ≠ 0 then (s.setPort p { x with peer := { x.peer with admitted := false } }).quarantine p c
  else
    (s.setPort p { x with peer := { x.peer with entry := (s.permission x.peer.digest).getD 0, admitted := true } }).checkCoord p

/-- What a retraining from Electrical kept is discarded unless the same identity came back (R317). -/
def State.settleKept (s : State) (p : Nat) : State :=
  let x := s.port p
  if x.link.keep ∧ x.link.kept ≠ x.peer.digest then s.loseHeld p else s

/-- An Ed448 signature of the package's own key (R324, R325). -/
def ownSignature (o : Octets) : Octets := ⟨114, Config.ed448Sign o⟩

/-- Sends a KEYING message with a fresh X448 key; the private key is kept until the agreement (R325). -/
def State.sendKeying (s : State) (p epoch : Nat) : State :=
  let (secret, s) := s.draw 448
  let x := s.port p
  let key : Octets := ⟨56, Config.x448Public secret % 2 ^ 448⟩
  let s := s.setPort p { x with keys := { x.keys with secret := secret, epoch := epoch } }
  s.sendPort p 0 (message 4 0 0 0 (Octets.append ⟨8, epoch⟩ (Octets.append key (ownSignature (Octets.append x.peer.transcript key)))))

/-- IDENTITY (R324): chain, then signature over the transcript; a generation-1 link skips keying (R322). What a retraining kept
for another identity is discarded first (R317). -/
def execIdentity (p : Nat) (msg : IdentityMsg) (s : State) : Result :=
  onPort p s <|
    let x := s.port p
    guardEvent (x.link.st == portIdentity) s <|
      let leaf := Config.chainLeaf msg.chain
      let digest := identityOf leaf
      let tr := s.transcript p digest msg.chain
      let s := s.setPort p { x with peer := { x.peer with coord := msg.coord, sizes := msg.sizes, leaf := leaf, digest := digest,
                                                          transcript := tr } }
      let body := Octets.append ⟨16, s.coord + s.sizes * 2 ^ 32 + s.ownChain.len * 2 ^ 64⟩ (Octets.append s.ownChain (ownSignature tr))
      let s := (s.settleKept p).sendPort p 0 (message 3 0 0 0 body)
      if !s.chainOnPort p msg.chain then .next (s.quarantine p 2)
      else if !Config.ed448Verify leaf tr msg.sig.bits then .next (s.quarantine p 3)
      else
        let y := s.port p
        let s := s.setPort p { y with peer := { y.peer with valid := true } }
        if x.link.gen = 1 then .next ((s.portGo p 6).checkPermission p)
        else .next ((s.portGo p portKeying).sendKeying p 0)

/-- The two keys of a link: mine and the partner's, from the shared secret (R325). -/
def State.linkKeys (s : State) (p z : Nat) : Octets × Octets :=
  let x := (s.port p).peer
  let m := kmac256 ⟨56, z % 2 ^ 448⟩ x.transcript 64 "ZV-KEYS"
  if s.ownDigest ≤ x.digest then (m.slice 0 32, m.slice 32 32) else (m.slice 32 32, m.slice 0 32)

/-- A KEYSWITCH names the data-flit number from which the new key applies (R316); it is sent until the partner's comes. -/
def State.switchKey (s : State) (p : Nat) : State :=
  let x := s.port p
  let k := { x.keys with oldOut := x.keys.out, out := x.keys.nextOut, switchOut := x.tx.next, asked := false,
                         keyed := s.tick, flits := x.tx.next + x.rx.next }
  (s.setPort p { x with keys := k, ask := setBit x.ask 2 true }).sendControl p 5 x.tx.next

/-- KEYING (R316, R325): key material is derived; in step 5 the port goes on to steps 6 to 8 and the data flits are numbered
from 0, unless the numbering was kept (R313, R317); later the keys are switched. -/
def execKeying (p : Nat) (msg : KeyingMsg) (s : State) : Result :=
  onPort p s <|
    let x := s.port p
    let good := Config.ed448Verify x.peer.leaf (Octets.append x.peer.transcript msg.key) msg.sig.bits
    if x.link.st = portKeying ∧ msg.epoch = 0 then
      let z := Config.x448Shared x.keys.secret msg.key.bits
      if !good ∨ z % 2 ^ 448 = 0 then .next (s.quarantine p 4)
      else
        let (out, inn) := s.linkKeys p z
        let keys := { x.keys with out := out, inn := inn, secret := 0, oldOut := ⟨0, 0⟩, oldInn := ⟨0, 0⟩, switchOut := 0,
                                  switchInn := 0, keyed := s.tick, flits := if x.link.keep then x.tx.next + x.rx.next else 0 }
        let s := s.setPort p { x with keys := keys
                                      tx := if x.link.keep then x.tx else { x.tx with next := 0, held := [], tries := 0 }
                                      rx := if x.link.keep then x.rx else { x.rx with next := 0, naked := false } }
        .next ((s.portGo p 6).checkPermission p)
    else if x.link.st = portLive ∧ x.tagged ∧ msg.epoch = (if x.keys.asked then x.keys.epoch else x.keys.epoch + 1) then
      let s := if x.keys.asked then s else s.sendKeying p msg.epoch
      let z := Config.x448Shared (s.port p).keys.secret msg.key.bits
      if !good ∨ z % 2 ^ 448 = 0 then .next (s.quarantine p 4)
      else
        let (out, inn) := s.linkKeys p z
        let y := s.port p
        let s := s.setPort p { y with keys := { y.keys with nextOut := out, nextInn := inn, secret := 0 } }
        .next (s.switchKey p)
    else .next s

/-- STAY_KEY_REFRESH (R316): after 2^40 data flits or 24 hours a new agreement runs on VC 0. -/
def execStayKeyRefresh (p : Nat) (s : State) : Result :=
  onPort p s <|
    let x := s.port p
    let due := x.keys.flits + 2 ^ 40 ≤ x.tx.next + x.rx.next || x.keys.keyed + 2160000000000 ≤ s.tick
    guardEvent (x.link.st == portLive && x.tagged && !x.keys.asked && due) s <|
      .next ((s.setPort p { x with keys := { x.keys with asked := true } }).sendKeying p (x.keys.epoch + 1))

/-! ### Retry and control flits (R314, R316 to R318) -/

/-- The keys of a port without the old one of its own direction, where every flit below the switch point is acknowledged and
the KEYSWITCH answered (R316, log 57). -/
def Port.dropOldOut (x : Port) : PortKeys :=
  if bitOf x.ask 2 || x.tx.held.any fun q => q.1 < x.keys.switchOut then x.keys else { x.keys with oldOut := ⟨0, 0⟩ }

/-- And without the old one of the partner's: at 3,840 flits above the switch point the partner has every acknowledgement
below it. -/
def Port.dropOldIn (x : Port) : PortKeys :=
  if x.keys.switchInn + 3840 ≤ x.rx.next then { x.keys with oldInn := ⟨0, 0⟩ } else x.keys

/-- Applies an acknowledgement: the SEQ of the last data flit that the partner received in order (R291, R317). -/
def State.applyAck (s : State) (p ack : Nat) : State :=
  let x := s.port p
  match x.tx.held.find? fun q => q.1 % 4096 = ack % 4096 with
  | none => s
  | some (n, _) =>
    let done := x.tx.held.filter fun q => q.1 ≤ n
    let marks := (done.filter fun q => q.2.last && q.2.mark != 0).map fun q => q.2.mark
    let s := { s with sent := s.sent.filter fun (e : Nat × SentChunk) => !marks.contains e.1 }
    let x := { x with tx := { x.tx with held := x.tx.held.filter fun q => n < q.1, moved := s.tick, tries := 0 } }
    ((s.setPort p { x with keys := x.dropOldOut }).pump p).settleWords p

/-- Replays the held flits from a number on, each with the tag of its number as it is sent (R316, R317); in bring-up and
quarantine only what the state lets out. -/
def State.replayFrom (s : State) (p n : Nat) : State :=
  let x := s.port p
  let qs := x.tx.held.filter fun q => n ≤ q.1 && (portRetrain ≤ x.link.st || stateAllows x.link.st q.2)
  qs.foldl (fun s q => s.emitFlit p (x.seal (x.keyOut q.1) q.1 q.2.flit)) (s.bump (0x4010 + p) 0xD qs.length)

/-- Goes back to Electrical with the retry buffer and the numbering kept for the partner's identity (R317). -/
def State.retrainKept (s : State) (p : Nat) : State :=
  let x := s.port p
  let s := (s.climb 3).setPort p { x with link := { x.link with keep := true, kept := x.peer.digest, trials := 0, slow := false },
                                          tx := { x.tx with tries := 0, moved := s.tick }, keys := { epoch := 0 } }
  ((s.portGo p portElectrical).rerouteQueue p).readmit

/-- A replay from number `n` (R317): where the oldest flit has been replayed 16 times without the acknowledgement advancing,
the port retrains from Electrical instead; a port in quarantine or shutting down goes on replaying (log 61). -/
def State.replay (s : State) (p n : Nat) : State :=
  let x := s.port p
  let oldest : Bool := match x.tx.held with | q :: _ => decide (n ≤ q.1) | [] => false
  if oldest ∧ 16 ≤ x.tx.tries ∧ x.link.st ≠ portQuarantined ∧ x.link.st < portDown then s.retrainKept p
  else (s.setPort p { x with tx := { x.tx with tries := x.tx.tries + (if oldest then 1 else 0) } }).replayFrom p n

/-- Asks for a replay, once until the expected flit arrives (R291). -/
def State.askReplay (s : State) (p : Nat) : State :=
  let x := s.port p
  if x.rx.naked then s
  else ((s.climb 1).setPort p { x with rx := { x.rx with naked := true } }).sendControl p 1 (x.rx.next % 4096)

/-- Counts a tag failure (R315, R335). -/
def State.tagFailed (s : State) (p : Nat) : State :=
  let s := s.bump (0x4010 + p) 0xE 1
  let x := s.port p
  let s := s.setPort p { x with rx := { x.rx with tagFail := x.rx.tagFail + 1 } }
  s.postLimited p msTicks { code := 0x2108, plane := 2, part := partAll, kind := 4, num := p, detail := [(1, p), (4, x.rx.tagFail + 1)] }

/-- Whether the lanes of a port carry flits. -/
def Port.carries (x : Port) : Bool := 3 ≤ x.link.st && x.link.st != portDown

/-- Discards a flit of a reserved TYPE or VC: policed, uncounted in quarantine (R312, R328). -/
def State.discardReserved (s : State) (p : Nat) : State := if s.portState p = portQuarantined then s else s.police p policedKind

/-- Receives a control or idle flit of a kind (R312, R314, R315): `k` goes on with its contents where it is accepted. -/
def onControl (p kind : Nat) (f : StayFlit) (s : State) (k : State → Nat → State) : Result :=
  onPort p s <|
    let x := s.port p
    let n := field f.body 127 64
    guardEvent (x.carries && f.typ == (if kind = 0 then 1 else 2) && f.body % 256 == kind) s <|
    if !stayCrcOk x.gen1 f then .next (s.bump (0x4010 + p) 0xC 1)
    else if x.tagged ∧ !x.keysIn.any (fun key => stayTag key n f == f.tag) then .next (s.tagFailed p)
    else if 14 < f.vc then .next (s.discardReserved p)
    else if x.rx.any ∧ n ≤ x.rx.ctl then .next s
    else
      let s := s.setPort p { x with rx := { x.rx with ctl := n, any := true } }
      let c := f.body / 2 ^ 128
      let t := k s c
      .next (if f.ackv then t.applyAck p f.ack else t)

/-- IDLE (R314): delivers its acknowledgement. -/
def execIdle (p : Nat) (f : StayFlit) (s : State) : Result := onControl p 0 f s fun s _ => s

/-- NAK (R317, R293): the sender replays from the SEQ named; the NAK goes before its acknowledgement. -/
def execNak (p : Nat) (f : StayFlit) (s : State) : Result :=
  onControl p 1 f s fun s c =>
    match (s.port p).tx.held.find? fun q => q.1 % 4096 = c % 4096 with
    | none => s
    | some (n, _) => s.replay p n

/-- CREDIT (R318): totals freed by VC and class. -/
def execCredit (p : Nat) (f : StayFlit) (s : State) : Result :=
  onControl p 2 f s fun s c =>
    let x := s.port p
    let m := (List.range 60).foldl (fun (m : FMap Nat) i => FMap.set m i 0 (field c (16 * i + 15) (16 * i))) []
    (s.setPort p { x with tx := { x.tx with credit := m } }).pump p

/-- WIDTH (R334): the partner's width word; a Live port goes into Retrain with it. A word of another generation is none
(R301). -/
def execWidth (p : Nat) (f : StayFlit) (s : State) : Result :=
  onControl p 3 f s fun s c =>
    let w := widthWordOf c
    let st := s.portState p
    if (st ≠ portLive ∧ st ≠ portRetrain) ∨ w.gen ≠ (s.port p).link.gen then s
    else
      let s := if st = portLive then s.retrain p else s
      s.setPort p { s.port p with claim := some w }

/-- SWITCH (R334): the partner transmits on the new lane map after this flit. It answers this side's own, or is answered by
it (log 57). -/
def execSwitch (p : Nat) (f : StayFlit) (s : State) : Result :=
  onControl p 4 f s fun s _ =>
    let x := s.port p
    if bitOf x.ask 1 then s.setPort p { x with ask := setBit x.ask 1 false }
    else if x.link.st = portLive then s.sendControl p 4 0
    else s

/-- KEYSWITCH (R316): flits from the number named on use the partner's new key. It answers this side's own; one that comes
again is answered by it (log 57). -/
def execKeyswitch (p : Nat) (f : StayFlit) (s : State) : Result :=
  onControl p 5 f s fun s c =>
    let x := s.port p
    let n := c % 2 ^ 64
    if x.keys.nextInn.len ≠ 0 then
      let k := { x.keys with oldInn := x.keys.inn, inn := x.keys.nextInn, nextInn := ⟨0, 0⟩, switchInn := n }
      s.setPort p { x with keys := k, ask := setBit x.ask 2 false }
    else if x.keys.epoch ≠ 0 ∧ n = x.keys.switchInn then s.sendControl p 5 x.keys.switchOut
    else s

/-- STAY_CONTROL_RESEND (R290, R314): an unanswered WIDTH, SWITCH or KEYSWITCH is sent again. -/
def execStayControlResend (p : Nat) (s : State) : Result :=
  onPort p s <|
    let x := s.port p
    let s := if bitOf x.ask 0 then s.sendControl p 3 (widthWordBits (s.portWord p (portLanes p))) else s
    let s := if bitOf x.ask 1 then s.sendControl p 4 0 else s
    .next (if bitOf x.ask 2 then s.sendControl p 5 x.keys.switchOut else s)

/-- STAY_RETRY_TIMEOUT (R317): no acknowledgement advanced for 4 µs: every held flit is replayed. -/
def execStayRetryTimeout (p : Nat) (s : State) : Result :=
  onPort p s <|
    let x := s.port p
    guardEvent (x.carries && !x.tx.held.isEmpty && x.tx.moved + 100 ≤ s.tick) s <|
      .next (((s.setPort p { x with tx := { x.tx with moved := s.tick } }).climb 1).replay p 0)

/-- STAY_CREDIT_STARVED (R332): a VC has a flit waiting and has had no credit for 25,000 ticks. -/
def execStayCreditStarved (p vc : Nat) (s : State) : Result :=
  onPort p s <|
    let x := s.port p
    let since := FMap.get x.rx.wait vc 0
    guardEvent ((s.starvedVcs p).contains vc && since != 0 && since + msTicks ≤ s.tick + 1) s <|
      .next ((s.setPort p { x with rx := { x.rx with wait := FMap.put x.rx.wait vc (s.tick + 1) } }).postLimited (16 * p + vc) msTicks
        { code := 0x2110, plane := 2, part := partAll, kind := 4, num := p, detail := [(1, p), (1, vc)] })

/-! ### Lanes that wear out (R333, R334, R470) -/

/-- Posts the compound records that wait (R471). -/
def State.settlePortPairs (s : State) (p : Nat) : State :=
  let x := s.port p
  x.pairs.foldl (fun s e => s.postCompound 4 p e) (s.setPort p { x with pairs := [], recov := none })

/-- STAY_FEC_WINDOW_END (R333): lanes whose uncorrectable codewords reach 4020h:01 are retired; a fault during a retrain
is the compound case. -/
def execStayFecWindowEnd (p : Nat) (uncorrectable : List Nat) (corrected : Nat) (s : State) : Result :=
  onPort p s <|
    let x := s.port p
    guardEvent (x.carries && x.fecAt + 1000 * msTicks ≤ s.tick) s <|
      let x := { x with fecAt := s.tick }
      let s := ((s.setPort p x).bump (0x4010 + p) 0xA corrected).bump (0x4010 + p) 0xB (uncorrectable.foldl (· + ·) 0)
      let bad := (lanesIn (portLanes p)).filter fun l => bitOf x.link.map l && s.val 0x4020 1 ≤ uncorrectable.getD l 0
      let new := without (laneMask bad) (s.deadLanes p)
      if new = 0 then .next s
      else
        let s := s.setLink p { x.link with retired := x.link.retired ||| new }
        .next (s.lanesLost p)

/-- STAY_RETRAIN_DONE (R333, R334): the new lane map is agreed from this side's word and the partner's, the one that WIDTH
brought or, where none came, the one of the training frames; SWITCH marks the new map, and the port is Live. -/
def execStayRetrainDone (p : Nat) (word : WidthWord) (s : State) : Result :=
  onPort p s <|
    let x := s.port p
    guardEvent (x.link.st == portRetrain) s <|
      let word := x.claim.getD word
      let own := s.portWord p (portLanes p)
      if (settlePort p own word).2 = 0 then .next (s.portFails p 1).readmit
      else
        let s := (s.latchWidth p own word).portGo p portLive
        let y := s.port p
        let s := s.setPort p { y with link := { y.link with oldW := 0 }, claim := none, ask := setBit (setBit y.ask 0 false) 1 true }
        let s := s.sendControl p 4 0
        let s := if y.link.width < x.link.oldW then s.postPort 0x210C p [(1, p), (1, x.link.oldW), (1, y.link.width)] else s
        .next (((s.settlePortPairs p).pump p).readmit)

/-- STAY_TAG_WINDOW_END (R335): too many tag failures quarantine the port with cause 11. -/
def execStayTagWindowEnd (p : Nat) (s : State) : Result :=
  onPort p s <|
    let x := s.port p
    guardEvent (x.carries && x.tagAt + 1000 * msTicks ≤ s.tick) s <|
      let n := x.rx.tagFail
      let s := s.setPort p { x with rx := { x.rx with tagFail := 0 }, tagAt := s.tick }
      .next (if s.val 0x4020 2 ≤ n ∧ x.link.st ≠ portQuarantined then s.quarantine p 11 else s)

/-! ### Shutting down (R346, R418) -/

/-- A flip of 4010h + p:01 (R346): 0 shuts the port down, 1 enables it or is held; the 1 ms of the shut-down runs on. A port in
Retrain drains as a Live one does. -/
def State.flipPort (s : State) (p v : Nat) : State :=
  let st := s.portState p
  if v = 0 then
    if st = portLive ∨ st = portQuarantined ∨ st = portRetrain then ((s.portGo p portClosing).rerouteQueue p).readmit
    else if st = portPending then s.setLink p { (s.port p).link with st := portClosing }
    else if st = portDown ∨ st = portClosing then s
    else s.portFalls p portOff false
  else if st = portOff then s.enablePort p
  else if st = portClosing then
    (s.setLink p { (s.port p).link with st := portPending }).post { code := 0x1F40, plane := 0, part := partAll, detail := [(1, 3), (2, p)] }
  else s

/-- STAY_SHUTDOWN_END (R346): the retry buffer has drained or 1 ms has passed; a held enable, or a port reset, goes on. -/
def execStayShutdownEnd (p : Nat) (s : State) : Result :=
  onPort p s <|
    let x := s.port p
    let st := x.link.st
    guardEvent ((st == portClosing || st == portPending) && (x.tx.held.isEmpty || x.since + msTicks ≤ s.tick)) s <|
      let reset := s.resetting 4 (p + 1)
      let s := s.portFalls p portOff reset
      .next (if st = portPending ∨ reset then s.enablePort p else s)

end Sys2Proof.Machine
end

