-- ==== Sys2Proof/Machine/Messages.lean ====
section
/-! DEFINITION. Data flits received on the external ports, policing and forwarding, and discovery (R312, R315, R317, R328,
R336, R338, R341, R348, R349, R352, R353). -/
namespace Sys2Proof.Machine

/-! ### Messages that a flit stream carries (R352, R353) -/

/-- Whether a kind may travel on a virtual channel of a port (Table 10.15). -/
def kindAllowed (p vc kind : Nat) : Bool :=
  match kind with
  | 0x0001 | 0x0002 | 0x0003 | 0x0004 | 0x0005 | 0x0006 => vc == 0
  | 0x0101 | 0x0102 => vc == 1 && p < 6
  | 0x0201 => 2 ≤ vc && vc ≤ 13 && p < 6
  | 0x0A01 => 10 ≤ vc && vc ≤ 13 && p == 6
  | 0x0E01 | 0x0E02 | 0x0E03 | 0x0E04 => vc == 14
  | _ => false

/-- Whether the LEN of a message agrees with its kind: a READ_RESP carries data when its STATUS is 0 and none otherwise, a
dictionary message a datagram of 16 bytes and the length that it names, most significant byte first (Table 12.1). -/
def lengthAgrees (kind : Nat) (m : Octets) : Bool :=
  let n := m.len
  let data := fun k => k + 8 ≤ n && n ≤ k + 4096 && (n - k) % 8 == 0
  match kind with
  | 0x0001 => n == 56
  | 0x0002 => n == 64
  | 0x0003 => n == 146 + (m.slice 24 4).bits
  | 0x0004 => n == 194
  | 0x0005 | 0x0006 => n == 32 + 256 * (m.slice 22 1).bits + (m.slice 23 1).bits
  | 0x0101 | 0x0102 => n == 32
  | 0x0201 => n == 64 + (m.slice 34 3).bits % 2 ^ 21
  | 0x0A01 | 0x0E03 => data 24
  | 0x0E01 => n == 32
  | 0x0E02 => if (m.slice 3 1).bits = 0 then data 16 else n == 16
  | 0x0E04 => n == 16
  | _ => false

/-- Whether a whole message may be delivered (R353). -/
def messageOk (p vc : Nat) (m : Octets) : Bool :=
  let kind := (m.slice 0 2).bits
  kindAllowed p vc kind && (m.slice 4 4).bits == m.len && lengthAgrees kind m

/-- A whole message was received: delivered, or discarded under R353. -/
def State.deliver (s : State) (p vc : Nat) (m : Octets) : State :=
  if messageOk p vc m then s.emit .stayMessage p vc m else s.police p policedKind

/-- Notes a flit of a message of a virtual channel and class: answers whether it ends the message. -/
def PortRx.follow (r : PortRx) (k : Nat) (f : StayFlit) : Bool × PortRx :=
  let was := FMap.get r.left k 0
  let total := if was = 0 then field f.body 63 32 else was
  let left := total - f.fill
  (left = 0, { r with left := FMap.set r.left k 0 left })

/-- The rule of R336 that a flit of a Live port breaks, 0 for none. -/
def State.policeRule (s : State) (p : Nat) (f : StayFlit) : Nat :=
  let x := (s.port p).peer
  let discovery := f.vc == 0 && f.body % 2 ^ 16 == 1
  if p = 6 ∧ 1 ≤ f.vc ∧ f.vc ≤ 9 then policedVc
  else if !permVc x.entry f.vc && !discovery then policedVc
  else if p ≠ 6 ∧ !permTransit x.entry ∧ coordOfField f.src ≠ x.coord then policedSource
  else if f.hops = 127 then policedHops
  else 0

/-- The first 20 bytes of the message that a received flit belongs to, and the port with them noted until its end. -/
def PortRx.headed (r : PortRx) (k : Nat) (f : StayFlit) (ends : Bool) : Nat × PortRx :=
  let head := if FMap.get r.left k 0 = 0 then headOf f.body else FMap.get r.head k 0
  (head, { r with head := FMap.set r.head k 0 (if ends then 0 else head) })

/-- A flit that ends here: its bytes join its message; the buffers of plan chunks are freed when the chunk is taken. -/
def State.flitHere (s : State) (p : Nat) (f : StayFlit) : State :=
  let x := s.port p
  let k := 4 * f.vc + f.cls
  let first := FMap.get x.rx.left k 0 = 0
  let (ends, r) := x.rx.follow k f
  let sofar := if first then ⟨0, 0⟩ else FMap.get x.rx.part k ⟨0, 0⟩
  let all := Octets.append sofar ⟨f.fill, f.body % 2 ^ (8 * f.fill)⟩
  let s := s.setPort p { x with rx := { r with part := FMap.set r.part k ⟨0, 0⟩ (if ends then ⟨0, 0⟩ else all) } }
  let chunk := p < 6 && 2 ≤ f.vc && f.vc ≤ 13 && (all.slice 0 2).bits == 0x0201
  let s := if chunk then s else s.freeCredit p f.vc f.cls 1
  if !ends then s
  else if !chunk then s.deliver p f.vc all
  else
    let n := (all.len + bodyBytes x.gen1 - 1) / bodyBytes x.gen1
    if messageOk p f.vc all then
      let y := s.port p
      (s.setPort p { y with rx := { y.rx with chunks := FMap.put y.rx.chunks (all.slice 16 32).bits (k, n) } }).deliver p f.vc all
    else (s.deliver p f.vc all).freeCredit p f.vc f.cls n

/-- Where the message under way from port `p` on a VC and class goes on: the output that holds flits of it, or that it holds;
its last flit follows its first (R352). -/
def State.pathOf (s : State) (p vc cls : Nat) : Option (Nat × Nat) :=
  (List.range 7).findSome? fun o =>
    let x := s.port o
    match (x.tx.queue.filter fun q => q.inp == p && q.flit.vc == vc && q.inCls == cls).getLast? with
    | some q => if q.last then none else some (o, q.flit.cls)
    | none => (x.tx.lock.find? fun l => l.2 == 4 * p + cls + 1 && l.1 / 4 == vc).map fun l => (o, l.1 % 4)

/-- FLIT_ROUTE (R341 to R343): a flit goes on to its next port, one hop further. -/
def State.flitOn (s : State) (p q cls : Nat) (f : StayFlit) : State :=
  let x := s.port p
  let k := 4 * f.vc + f.cls
  let (ends, r) := x.rx.follow k f
  let head := (x.rx.headed k f ends).1
  (s.setPort p { x with rx := { r with head := FMap.set r.head k 0 (if ends then 0 else head) } }).enqueue q
    [{ flit := { f with cls := cls, hops := f.hops + 1 }, inp := p, inCls := f.cls, last := ends, head := head }]

/-- A data flit of a message that cannot be delivered any more, or that quarantine discards: its message is followed to its
end, so that the next one is known by its first flit. -/
def State.skipFlit (s : State) (p : Nat) (f : StayFlit) : State :=
  let x := s.port p
  let k := 4 * f.vc + f.cls
  let (ends, r) := x.rx.follow k f
  let cut := r.cut.filter (· != k)
  s.setPort p { x with rx := { r with cut := if ends then cut else insertSorted k cut, part := FMap.erase r.part k,
                                      head := FMap.erase r.head k } }

/-- What an accepted data flit does: one of a reserved VC is discarded (R312); in quarantine all but discovery are, and the
credit of every channel but 0 is withheld (R328); else a flit is policed, delivered or routed. A port that retrains or shuts
down goes on receiving. -/
def State.acceptFlit (s : State) (p : Nat) (f : StayFlit) : State :=
  let st := s.portState p
  if 14 < f.vc then s.discardReserved p
  else
    let k := 4 * f.vc + f.cls
    let s := s.takePlace p f.vc f.cls
    if st = portQuarantined then
      if f.vc = 0 ∧ f.body % 2 ^ 16 = 1 then s.flitHere p f
      else
        let s := s.skipFlit p f
        if f.vc = 0 then s.freeCredit p f.vc f.cls 1
        else
          let x := s.port p
          s.setPort p { x with rx := { x.rx with withheld := FMap.put x.rx.withheld k (FMap.get x.rx.withheld k 0 + 1) } }
    else if st < portLive then
      if f.vc = 0 then s.flitHere p f else (s.skipFlit p f).freeCredit p f.vc f.cls 1
    else if (s.port p).rx.cut.contains k then (s.skipFlit p f).freeCredit p f.vc f.cls 1
    else
      let c := s.policeRule p f
      if c ≠ 0 then (s.police p c).freeCredit p f.vc f.cls 1
      else if p = 6 then s.flitHere p f
      else
        let first := FMap.get (s.port p).rx.left k 0 = 0
        let head := if first then headOf f.body else FMap.get (s.port p).rx.head k 0
        match (if first then none else s.pathOf p f.vc f.cls).or (s.route f.vc f.cls (coordOfField f.dst) p (headPlan head)) with
        | none => s.flitHere p f
        | some (q, cls) => s.flitOn p q cls f

/-- The number of a data flit: of the numbers with its SEQ, the one nearest to the number expected (R317). -/
def flitNumber (next seq : Nat) : Nat :=
  let ahead := (seq + 4096 - next % 4096) % 4096
  if ahead < 2048 then next + ahead else next + ahead - 4096

/-- STAY_DATA_FLIT (R312, R315, R317): CRC, then tag, then order; then policing and routing. -/
def execStayDataFlit (p : Nat) (f : StayFlit) (s : State) : Result :=
  onPort p s <|
    let x := s.port p
    let n := x.rx.next
    let num := flitNumber n (f.seq % 4096)
    guardEvent (x.carries && f.typ != 1 && f.typ != 2) s <|
    if !stayCrcOk x.gen1 f then .next ((s.bump (0x4010 + p) 0xC 1).askReplay p)
    else if x.tagged ∧ stayTag (x.keyIn num) num f ≠ f.tag then .next ((s.tagFailed p).askReplay p)
    else if f.typ ≠ 0 then .next (s.discardReserved p)
    else
      let s := if f.ackv then s.applyAck p f.ack else s
      if num = n then
        let x := s.port p
        let y := { x with rx := { x.rx with next := n + 1, naked := false } }
        .next (((s.setPort p { y with keys := y.dropOldIn }).acceptFlit p f).shareOut p)
      else if n < num then .next (s.askReplay p)
      else .next s

/-! ### Discovery (R338) -/

/-- DISCOVERY_SEND: every second each Live or quarantined port says who the package is. -/
def execDiscoverySend (p : Nat) (s : State) : Result :=
  onPort p s <|
    let x := s.port p
    let st := x.link.st
    guardEvent ((st == portLive || st == portQuarantined) && (x.heard == 0 || x.heard + 1000 * msTicks ≤ s.tick + 1)) s <|
      let body : Octets := ⟨40, s.ownDigest + s.coord * 2 ^ 128 + s.sizes * 2 ^ 160 + capabilityWord p * 2 ^ 192 + p * 2 ^ 256⟩
      .next ((s.setPort p { x with heard := s.tick + 1 }).sendPort p 0 (message 1 0 0 0 body))

/-- The entry of the discovery table for a partner: its own, a free one, or the one heard longest ago. -/
def State.heardPlace (s : State) (p digest : Nat) : Nat :=
  match s.heard.find? fun (e : Nat × Heard) => e.2.port == p && e.2.digest == digest with
  | some e => e.1
  | none =>
    match (List.range 64).find? fun i => s.heard.all fun (e : Nat × Heard) => e.1 != i with
    | some i => i
    | none => (s.heard.foldl (fun (b : Nat × Nat) (e : Nat × Heard) => if e.2.tick < b.2 then (e.1, e.2.tick) else b)
        (0, s.tick + 1)).1

/-- DISCOVERY: recorded with the package's own pilot tick. -/
def execDiscovery (p : Nat) (msg : DiscoveryMsg) (s : State) : Result :=
  onPort p s <|
    let st := s.portState p
    guardEvent (st == portLive || st == portQuarantined) s <|
      let h : Heard := { port := p, digest := msg.digest, coord := msg.coord, sizes := msg.sizes, word := msg.word, tick := s.tick }
      .next { s with heard := FMap.put s.heard (s.heardPlace p msg.digest) h }

/-- DISCOVERY_STALE: a partner not heard for 3 s. -/
def execDiscoveryStale (entry : Nat) (s : State) : Result :=
  match s.heard.find? fun (e : Nat × Heard) => e.1 == entry with
  | none => .next s
  | some (_, h) =>
    guardEvent (!h.stale && h.tick + 3000 * msTicks ≤ s.tick) s <| .next { s with heard := FMap.put s.heard entry { h with stale := true } }

/-- An entry of 4060h: port, digest, coordinate, sizes, capability word, last tick, stale flag. -/
def heardBytes (h : Heard) : Octets :=
  packDetail [(1, h.port), (16, h.digest), (4, h.coord), (4, h.sizes), (8, h.word), (8, h.tick), (1, if h.stale then 1 else 0)]

end Sys2Proof.Machine
end

