-- ==== Sys2Proof/Machine/Power.lean ====
section
/-! DEFINITION. Power, thermal protection, base-die domains, start-up and resets (R427 to R450, R488, R489). -/
namespace Sys2Proof.Machine

/-- An event of the pilot domain: package-wide, unit 0. -/
def State.postPilot (s : State) (code : Nat) (detail : List (Nat × Nat)) : State :=
  s.post { code := code, plane := 0, part := partAll, detail := detail }

/-- An in-band interrupt of the I3C target where IBIEN bit `i` is set (Table 15.6). -/
def State.ibi (s : State) (i : Nat) : State := if bitOf s.ibien i then s.emit .pin 0x3C i ⟨0, 0⟩ else s

/-- Enters a package state (Table 13.2). -/
def State.goPkg (s : State) (v : Nat) : State := if s.pkg = v then s else (s.setVal 0x2000 1 v).ibi 0

/-- Whether the fast domains run: Booting or Ready. -/
def State.running (s : State) : Bool := s.pkg == pkgBooting || s.pkg == pkgReady

/-! ### The issue gate and the power cap (R434 to R439) -/

/-- The 6-bit bit-reversal of a cycle number. -/
def reverse6 (c : Nat) : Nat := (List.range 6).foldl (fun r i => r + if bitOf c i then 2 ^ (5 - i) else 0) 0

/-- Whether cycle `c` of a mast clock tree is open for the data engines (R434). -/
def State.gateOpen (s : State) (c : Nat) : Bool := reverse6 (c % 64) < s.val 0x2100 2

/-- The ceiling in force follows the two ceilings (R435). -/
def State.applyCeiling (s : State) : State := s.setVal 0x2100 2 (min s.power.cap (s.val 0x2200 5))

/-- Sum and number of the samples of the window; the mean is their quotient. -/
def Power.mean (x : Power) : Nat × Nat := (x.samples.foldl (· + ·) 0, max x.samples.length 1)

/-- The next cap ceiling and count of evaluations above, after a window of `n` samples that sum to `sum` (R437). -/
def capStep (cap g above sum n : Nat) : Nat × Nat :=
  if n * (cap - 50) < sum then
    let k := max 1 ((sum - n * (cap - 50) + 45 * n - 1) / (45 * n))
    (if 4 ≤ above + 1 then 1 else max 1 (g - k), above + 1)
  else (if sum < n * (cap - 150) ∧ g < 64 then g + 1 else g, 0)

/-- One evaluation of the cap controller (R437 to R439). -/
def State.evaluateCap (s : State) : State :=
  let x := s.power
  let cap := s.val 0x2100 1
  let (sum, n) := x.mean
  let mean := sum / n
  let (g, above) := capStep cap x.cap x.above sum n
  let stuck := if x.cap = 1 ∧ n * cap < sum then x.atOne + 1 else 0
  let leaves := x.cap == 64 && g != 64
  let posts := leaves && (!x.posted || x.calm + msTicks ≤ s.tick)
  let y := { x with cap := g, above := above, atOne := stuck, edge := s.tick, posted := x.posted || posts,
                    calm := if g = 64 ∧ x.cap ≠ 64 then s.tick else x.calm }
  let s := (({ s with power := y }.setVal 0x2000 7 mean).setVal 0x2100 4 (max mean (s.val 0x2100 4))).applyCeiling
  let s := if posts then s.postPilot 0x2410 [(4, cap), (4, mean), (1, g)] else s
  if 4 ≤ stuck then
    s.postLimited 0 msTicks { code := 0x2412, plane := 0, part := partAll, detail := [(4, mean)] }
  else s

/-- POWER_SAMPLE (R437): input power and voltage at the tabs, every 25 pilot ticks. -/
def execPowerSample (watts millivolts : Nat) (s : State) : Result :=
  guardEvent (s.pkg != pkgOff && s.power.sampled + 25 ≤ s.tick) s <|
    .next ({ s with power := { s.power with samples := (watts :: s.power.samples).take 25, sampled := s.tick } }.setVal 0x2000 6
      millivolts)

/-- CAP_EVALUATE (R437): every 625 pilot ticks from the last edge on which a cap took effect. -/
def execCapEvaluate (s : State) : Result :=
  guardEvent (s.running && s.power.edge < s.tick && (s.tick - s.power.edge) % 625 == 0) s <| .next s.evaluateCap

/-- A new cap takes effect and runs an extra evaluation on its edge (R436, R437). -/
def State.writeCap (s : State) (watts : Nat) : State :=
  let s := s.setVal 0x2100 1 watts
  if s.running then s.evaluateCap else { s with power := { s.power with edge := s.tick } }

/-! ### Thermal protection and the input (R440 to R442) -/

/-- Where a junction sensor lies (R494): its die and, for one on a compute die, the first row and column of its block of 3 rows
and 4 columns of masts; for one on a base die the position of Table 15.9. -/
def sensorPlace (n : Nat) : Nat × (Nat × Nat ⊕ Nat) :=
  if n < 256 then (n / 16, .inl (3 * (n % 16 / 4), 4 * (n % 4))) else ((n - 256) / 8, .inr ((n - 256) % 8))

/-- The hottest reading and its sensor, the lowest sensor first. -/
def hottest (r : FMap Nat) : Nat × Nat := r.foldl (fun (b : Nat × Nat) e => if b.2 < e.2 then e else b) (0, 0)

/-- Notes a sensor's reading; 2200h:02 and :03 report the hottest. -/
def State.noteReading (s : State) (sensor reading : Nat) : State :=
  let r := FMap.set s.power.readings sensor 0 reading
  let h := hottest r
  ({ s with power := { s.power with readings := r } }.setVal 0x2200 2 h.2).setVal 0x2200 3 h.1

/-- The thermal ceiling takes a value. -/
def State.setThermal (s : State) (g : Nat) : State :=
  let was := s.val 0x2200 5
  let s := if was = 64 ∧ g ≠ 64 then { s with power := { s.power with began := s.tick } } else s
  let s := (s.setVal 0x2200 5 g).applyCeiling
  if was ≠ 64 ∧ g = 64 then s.postPilot 0x2422 [(4, s.tick - s.power.began)] else s

/-- THERMAL_THROTTLE (R440): a sensor reaches the threshold of 2200h:01. -/
def execThermalThrottle (sensor reading : Nat) (s : State) : Result :=
  guardEvent (sensor < 384 && s.pkg != pkgOff && s.val 0x2200 1 ≤ reading) s <|
    .next ((((s.noteReading sensor reading).setThermal (min 32 (s.val 0x2200 5))).postPilot 0x2420 [(2, sensor), (1, reading)]).ibi 1)

/-- THERMAL_WINDOW_END (R440): windows end at multiples of 25,000 ticks. The readings are those that sensors changed to in
the window, in order; a sensor not named kept its reading. A sensor whose last reading is at the threshold has stayed at or
above it since it crossed it; every sensor stayed 3 °C below where no reading of the window, the first included, was higher
(log 39). -/
def execThermalWindowEnd (readings : List (Nat × Nat)) (s : State) : Result :=
  guardEvent (s.tick % msTicks == 0 && s.power.window < s.tick && s.pkg != pkgOff) s <|
    let s : State := { s with power := { s.power with window := s.tick } }
    let t := s.val 0x2200 1
    let g := s.val 0x2200 5
    let cool := (s.power.readings ++ readings).all fun (e : Nat × Nat) => e.2 + 3 < t
    let s := readings.foldl (fun s e => if e.1 < 384 then s.noteReading e.1 e.2 else s) s
    .next (if s.power.readings.any fun e => t ≤ e.2 then s.setThermal (max 1 (g / 2))
      else if cool then s.setThermal (min 64 (2 * g))
      else s)

/-- THERMAL_SHUTDOWN (R441): a sensor reaches 105 °C in a package that is not yet shut down. -/
def execThermalShutdown (sensor reading : Nat) (s : State) : Result :=
  guardEvent (sensor < 384 && s.pkg != pkgOff && s.pkg != pkgShutdown && 105 ≤ reading) s <|
    .next ((((s.noteReading sensor reading).postPilot 0x2430 [(2, sensor), (1, reading)]).ibi 1).shutdown.ibi 0)

/-- INPUT_UNDERVOLTAGE (R442): below 40 V for 100 µs. -/
def execInputUndervoltage (millivolts : Nat) (s : State) : Result :=
  guardEvent (s.running && millivolts < 40000) s <|
    .next ((((s.setVal 0x2000 6 millivolts).postPilot 0x2440 [(4, millivolts)]).ibi 1).shutdown.ibi 0)

/-- INPUT_OVERVOLTAGE (R442): above 60 V for 10 µs. -/
def execInputOvervoltage (millivolts : Nat) (s : State) : Result :=
  guardEvent (s.running && 60000 < millivolts) s <|
    .next ((((s.setVal 0x2000 6 millivolts).postPilot 0x2442 [(4, millivolts)]).ibi 1).shutdown.ibi 0)

/-! ### Domains (R443) -/

/-- Masts of a die that are not Dark or fenced. -/
def State.awake (s : State) (d : Nat) : List Nat :=
  (s.masts.filter fun (e : Nat × Mast) => mastDie e.1 == d && !e.2.fenced && e.2.power != .dark).map fun (e : Nat × Mast) => e.1

/-- DOMAIN_FORCE_DARK (R443): 1 ms after the entry into Shutting down. -/
def execDomainForceDark (d : Nat) (s : State) : Result :=
    let (since, n) := FMap.get s.domains d (0, 0)
    let ms := s.awake d
    guardEvent (d < 16 && (s.domain d == 1 || s.domain d == 4) && !ms.isEmpty && since + msTicks ≤ s.tick) s <|
      let s := ms.foldl State.darken s
      .next { s with domains := FMap.put s.domains d (since, n + ms.length) }

/-- DOMAIN_OFF (R443): every mast is Dark or fenced and the far-cache lines are written back; a held enable goes on. -/
def execDomainOff (d : Nat) (s : State) : Result :=
  guardEvent (d < 16 && (s.domain d == 1 || s.domain d == 4) && (s.awake d).isEmpty) s <|
    let n := (FMap.get s.domains d (0, 0)).2
    let again := s.domain d == 4
    let s := { s with domains := FMap.erase s.domains d }.flushAgent d
    .next ((s.goDomain d (if again then 3 else 2)).postPilot 0x2460 [(1, d), (4, n)])

/-- DOMAIN_ON (R443): the units leave reset; the masts follow their requests, and admission runs (R444). -/
def execDomainOn (d : Nat) (s : State) : Result :=
  guardEvent (d < 16 && s.domain d == 3 && s.pkg == pkgReady) s <|
    .next ((((s.goDomain d 0).postPilot 0x2462 [(1, d)]).restoreMasts (mastsOfDie d)).readmit)

/-! ### Firmware banks (R453, R454) -/

def State.bank (s : State) (kind b : Nat) : Bank := FMap.get s.fw.banks (2 * kind + b) {}

/-- Fields of an image header (Table 14.1). -/
def imageVersion (o : Octets) : Nat := (o.slice 8 4).bits
def imageSvn (o : Octets) : Nat := (o.slice 12 2).bits
def imageChainLen (o : Octets) : Nat := (o.slice 20 4).bits
def imageBodyLen (o : Octets) : Nat := (o.slice 16 4).bits
def imageDigest (o : Octets) : Octets := o.slice 32 64

/-- What makes an image of a kind (0 pilot, 1 loader) invalid, as R454 numbers its conditions; 0 where it is valid. -/
def State.imageFault (s : State) (kind : Nat) (o : Octets) : Nat :=
  let chain := o.slice 96 (imageChainLen o)
  let body := o.slice (96 + imageChainLen o) (imageBodyLen o)
  let sig := (o.slice (96 + imageChainLen o + imageBodyLen o) 114).bits
  if (o.slice 0 4).bits ≠ 0x5746565A ∨ (o.slice 4 2).bits ≠ kind + 1 ∨ (o.slice 6 2).bits ≠ 2 ∨ (o.slice 14 2).bits ≠ 0 ∨
      (o.slice 24 8).bits ≠ 0 ∨ o.len ≠ 210 + imageChainLen o + imageBodyLen o ∨ 2 ^ 20 < o.len then 1
  else if 8192 < imageChainLen o ∨ !Config.chainRooted chain 0 then 2
  else if !Config.ed448Verify (Config.chainLeaf chain) (o.slice 0 96) sig then 3
  else if shake256 body 64 ≠ imageDigest o then 4
  else if imageSvn o < s.val 0x7000 (3 + kind) then 5
  else 0

/-- Why a bank does not run, 0 where it does: its image is verified each time (R454); that of manufacture has SVN 0. -/
def State.bankFault (s : State) (kind b : Nat) : Nat :=
  let o := (s.bank kind b).image
  if o.len = 0 then (if 0 < s.val 0x7000 (3 + kind) then 5 else 0) else s.imageFault kind o

/-- The bank that runs: the preferred one, else the other (R454). -/
def State.bankToRun (s : State) (kind : Nat) : Option Nat :=
  let pref := if bitOf (s.val 0x7000 2) kind then 1 else 0
  if s.bankFault kind pref = 0 then some pref else if s.bankFault kind (1 - pref) = 0 then some (1 - pref) else none

/-- Reports the banks that were tried and failed, the preferred one first (R454). -/
def State.reportBank (s : State) (kind : Nat) : State :=
  let pref := if bitOf (s.val 0x7000 2) kind then 1 else 0
  let f := s.bankFault kind pref
  let g := s.bankFault kind (1 - pref)
  if f = 0 then s
  else
    let t := s.postPilot 0x7430 [(1, kind + 1), (1, f)]
    if g = 0 then t else t.postPilot 0x7430 [(1, kind + 1), (1, g)]

/-- Runs a bank: version and SVN are reported. -/
def State.runBank (s : State) (kind b : Nat) : State :=
  let o := (s.bank kind b).image
  let s := (s.setVal 0x1010 (2 + kind) (imageVersion o)).setVal 0x7000 (5 + kind) (imageSvn o)
  if kind = 0 then s.setVal 0x2500 5 b else { s with fw := { s.fw with loader := b } }

/-- Starts the pilot firmware of bank `b`, which has serviced its watchdog then (R43). -/
def State.runPilot (s : State) (b : Nat) : State :=
  let t := s.runBank 0 b
  { t with fw := { t.fw with serviced := t.tick } }

/-! ### Start-up (R445 to R447) -/

/-- The end of a step: 2500h:01 and 2510h. -/
def State.stepDone (s : State) (step : Nat) : State := (s.setVal 0x2500 1 step).postPilot 0x2510 [(1, step), (8, s.tick)]

/-- A step fails: start-up stops there (R447). -/
def State.stepFails (s : State) (step cause : Nat) : State :=
  (s.setVal 0x2500 2 (step * 256 + cause % 256)).postPilot 0x2520 [(1, step), (1, cause)]

/-- Booting begins: the cap controller starts anew (R437). -/
def State.boot (s : State) : State :=
  let s := s.goPkg pkgBooting
  { s with power := { s.power with cap := 64, above := 0, atOne := 0 } }.applyCeiling

/-- Whether the input lies within what the fast domains need (R442); 2000h:06 reads 0 until its first sample. -/
def State.inputOk (s : State) : Bool :=
  let mv := s.val 0x2000 6
  mv == 0 || decide (40000 ≤ mv ∧ mv ≤ 60000)

/-- On a pilot-clock edge Ready is entered when step 5 has ended and the host has written 1 to 2500h:03 (R446); every mast
follows its request. -/
def State.tryReady (s : State) : State :=
  if s.pkg = pkgBooting ∧ s.val 0x2500 1 = 5 ∧ s.fw.ready then
    let s := (s.goPkg pkgReady).stepDone 6
    let s := s.setVal 0x2500 4 s.tick
    let n := ((List.range 7).filter fun p => s.portState p == portLive).length
    let s := s.postPilot 0x2530 [(8, s.tick), (4, n)]
    (s.dict.filterMap fun (e : Nat × Octets) =>
      if 0x2320 * 256 < e.1 ∧ e.1 < 0x2330 * 256 then some (192 * (e.1 / 256 - 0x2320) + e.1 % 256 - 1) else none).foldl
      State.grantMast s
  else s

/-- Every ratline link that is not shut down begins its training (Table 9.5). -/
def State.startRatlines (s : State) : State :=
  ((List.range 24).filter fun l => s.val 0x4830 (l + 1) == 0).foldl (fun s l =>
    (linkDirs l).foldl (fun s e => s.setRat e.1 e.2 { st := 1, since := s.tick }) s) s

/-- Zeroes the carve-out and releases it (step 4): its length is what 7040h:01 held at the last power or package reset. -/
def State.clearCarve (s : State) : State := s.zeroMem 0 (s.carve * 2 ^ 30)

/-- Whether every enabled port has ended its bring-up (step 5). -/
def State.portsSettled (s : State) : Bool :=
  (List.range 7).all fun p =>
    let st := s.portState p
    st == portLive || st == portQuarantined || st == portDown || (st == portOff && (!s.hasAxis p || s.val (0x4010 + p) 1 == 0))

/-- STARTUP_STEP (R445, R447): the next step ends, or fails with a cause. In step 4 a step that does not fail with a cause
`m + 1` reports that mast `m` failed its bond test: it is fenced (R285), and the step goes on. Step 3 begins with the check of
the input: outside R442 the package stays in Standby, which only a reset leaves. -/
def execStartupStep (fails : Bool) (cause : Nat) (s : State) : Result :=
  let step := s.val 0x2500 1 + 1
  guardEvent (s.pkg == (if step ≤ 2 then pkgStandby else pkgBooting) && s.val 0x2500 2 == 0 && !s.fw.recovery) s <|
  match step with
  | 1 => .next (if fails then s else s.stepDone 1)
  | 2 =>
    match (if fails then none else s.bankToRun 0) with
    | none => .next { s.stepFails 2 cause with fw := { s.fw with recovery := true } }
    | some b => .next ((((s.runPilot b).reportBank 0).stepDone 2).boot)
  | 3 =>
    if !s.inputOk then .next (s.goPkg pkgStandby) else
    match (if fails then none else s.bankToRun 1) with
    | none => .next (((if fails then s else s.reportBank 1).stepFails 3 cause).goPkg pkgStandby)
    | some b =>
      let s := ((s.runBank 1 b).reportBank 1).stepDone 3
      .next (((s.setVal 0x2000 4 0xFFFF).setVal 0x2000 5 3).startRatlines)
  | 4 =>
    if fails then .next (s.stepFails 4 cause)
    else if cause ≠ 0 then
      .next (if 3072 < cause then s else s.fenceMast (cause - 1) 3)
    else
      let s := s.clearCarve.stepDone 4
      let s := (List.range 7).foldl State.enablePort s
      .next { s with fw := { s.fw with bringUp := s.tick } }
  | 5 =>
    .next (if fails ∨ (!s.portsSettled ∧ s.tick < s.fw.bringUp + 1000 * msTicks) then s else s.stepDone 5)
  | _ => .next s

/-- The host's ready write (R446). -/
def State.hostReadyWritten (s : State) (v : Nat) : State :=
  if v = 1 then { s with fw := { s.fw with ready := true } } else s

/-! ### Power on, power off (R427, R428, R448, R489) -/

/-- What a power reset keeps: RWP objects, identity and fuses, and the non-volatile banks. -/
def keptThroughPower (key : Nat) : Bool :=
  let i := key / 256
  let sub := key % 256
  i == 0x1000 || (i == 0x1010 && sub == 1) || (i == 0x1020 && sub == 1) || (i == 0x7000 && sub ≤ 4) ||
    (match objRow i sub with | some r => r.access == 4 | none => false)

/-- Everything is off; the commands that wait, the outputs and the model's own counters stay. -/
def State.powerOff (s : State) : State :=
  { pending := s.pending, free := s.free, draws := s.draws, outbox := s.outbox, ident := s.ident,
    dict := FMap.set (s.dict.filter fun (e : Nat × Octets) => keptThroughPower e.1) (objKey 0x2000 1) ⟨1, 1⟩ ⟨1, 0⟩,
    fw := { banks := s.fw.banks, raises := s.fw.raises } }

/-- The pilot supply comes up: Standby, the counter at zero; debug is locked under a new challenge, and the package key
of R192 is drawn. -/
def State.powerUp (s : State) (ticks : Nat) : State :=
  let (c, s) := s.draw 256
  let (k, s) := s.draw 64
  let s := { s with tick := ticks, carve := s.val 0x7040 1 }.setVal 0x2000 1 pkgStandby
  ((s.setObj 0x7080 1 ⟨32, c⟩).setPart packageKeyPlace { key := k }).bump 0x3400 17 1

/-- POWER_ON (R427): `ticks` pilot ticks after the supply came up. -/
def execPowerOn (ticks : Nat) (s : State) : Result :=
  guardEvent (s.pkg == pkgOff) s <| .next (s.powerUp ticks)

/-- POWER_LOSS (R427): the input falls below 32 V. -/
def execPowerLoss (s : State) : Result := guardEvent (s.pkg != pkgOff) s <| .next s.powerOff

/-- RESETREQ (R489): 5Ah is a power reset; other values are ignored. -/
def execResetreq (value : Nat) (s : State) : Result :=
  guardEvent (s.pkg != pkgOff && value == 0x5A) s <| .next (s.powerOff.powerUp 0)

/-! ### Resets (R448 to R450) -/

/-- A package reset is asked for (R441): BUSY in Shutdown while a sensor reads above 85 °C. -/
def State.askPackageReset (s : State) : Nat × State :=
  if s.pkg = pkgShutdown ∧ (s.power.readings.any fun e => 85 < e.2) then (1, s)
  else (0, s.beginReset 1 0 0 State.resetPackage)

/-- A partition reset is asked for: RANGE where the partition does not exist, BUSY where a die pair that it uses is still
fenced (R448, R468). -/
def State.askPartReset (s : State) (p : Nat) : Nat × State :=
  if !s.partExists p then (7, s)
  else if (List.range 16).any fun d => s.dieFenced d && s.touchesDie p d then (1, s)
  else (0, s.beginReset 2 p 0 fun s => s.clearPart p)

/-- The ratline ports of a die after its domain reset: the die's own records are cleared (R299, Table 9.5). -/
def State.resetDiePorts (s : State) (d : Nat) : State :=
  let s := (List.range 4).foldl (fun s side =>
    match neighbourDie d side with
    | none => s
    | some e =>
      let back := s.rat e (oppositeSide side)
      let off := (s.rat d side).st == 0 || (s.rat d side).st == 5
      let s := if off then s else (s.loseFlow d side).setRat d side { st := 1, since := s.tick, retT := (s.rat d side).retT }
      (s.loseFlow e (oppositeSide side)).setRat e (oppositeSide side) { back with retT := 0 }) s
  ((List.range 7).filter fun p => portDie p == d).foldl (fun s p =>
    if s.portState p = portOff ∨ s.portState p = portDown then s else (s.portFalls p portOff false).enablePort p) s

/-- What a base-die domain reset clears (Table 13.7, R449); the masts of a domain that was not On stay Dark. -/
def State.clearDomain (s : State) (d : Nat) : State :=
  let off := s.domain d != 0
  let s := (mastsOfDie d).foldl State.darken (s.goDomain d 5)
  let s := (((s.zeroDie d).trimResetDie d).flushAgent d).resetDiePorts d
  if off then s else s.restoreMasts (mastsOfDie d)

def State.askDomainReset (s : State) (d : Nat) : State :=
  s.beginReset 3 d (s.domain d) fun s => s.clearDomain d

/-- A reset link: its records at both ends are cleared once it is Off (R299). -/
def State.resetLink (s : State) (l : Nat) : State :=
  if (linkDirs l).all fun e => (s.rat e.1 e.2).live then s
  else
    let st := if s.running && s.val 0x4830 (l + 1) == 0 then 1 else 0
    ((linkDirs l).foldl (fun s e => (s.loseFlow e.1 e.2).setRat e.1 e.2 { st := st, since := s.tick }) s).readmit

/-- A port or link is reset: it shuts down as its own enable does, then is brought up from Off (R449). -/
def State.askPortReset (s : State) (sub : Nat) : State :=
  s.beginReset 4 sub 0 fun s =>
    if 8 ≤ sub then s.resetLink (sub - 8)
    else
      let p := sub - 1
      let st := s.portState p
      if st = portLive ∨ st = portQuarantined ∨ st = portRetrain then s.flipPort p 0
      else if st = portClosing ∨ st = portPending then s
      else (s.portFalls p portOff true).enablePort p

/-- Whether a reset in progress has run to its end (R449). -/
def State.resetEnds (s : State) (r : Reset) : Bool :=
  match r.kind with
  | 1 => s.pkg == pkgReady
  | 2 => (s.mastsOf r.scope).all s.mastSettled && s.loaded.all fun k => (s.head k).part != r.scope || ((s.plan k).st != 4 && (s.plan k).st != 5)
  | 3 => r.before != 0 || (mastsOfDie r.scope).all s.mastSettled
  | 4 =>
    if 8 ≤ r.scope then (linkDirs (r.scope - 8)).all fun e =>
      let st := (s.rat e.1 e.2).st
      st == ratLive || st == ratDown || (st == ratOff && s.val 0x4830 (r.scope - 7) == 1)
    else
      let st := s.portState (r.scope - 1)
      st == portOff || st == portPresence || st == portLive || st == portQuarantined || st == portDown
  | _ => false

/-- Debug scopes open as the package reset that they asked for completes (R462). -/
def State.settleDebug (s : State) : State :=
  match s.fw.opening with
    | some (scopes, life, digest) =>
      ({ s with fw := { s.fw with opening := none, life := if life = 0 then none else some (s.tick + life) } }.setVal 0x7080 4 scopes).postPilot
        0x7420 [(1, scopes), (16, digest)]
    | none => s

/-- What the end of a reset changes in its scope, before it is reported. -/
def State.resetEffect (s : State) (r : Reset) : State :=
  match r.kind with
  | 1 => s.settleDebug
  | 2 => s.goPart r.scope .live
  | 3 => s.goDomain r.scope r.before
  | _ => s

/-- DOMAIN_RESET_TIMEOUT (R469): not complete after 5 ms; the die pair is fenced. -/
def execDomainResetTimeout (d : Nat) (s : State) : Result :=
  match s.resets.find? fun r => r.kind == 3 && r.scope == d with
  | none => .next s
  | some r => guardEvent (r.since + 5 * msTicks ≤ s.tick) s <| .next ((s.fenceDie d 2).fenceUntil 15).readmit

end Sys2Proof.Machine
end

