-- ==== Sys2Proof/Machine/Security.lean ====
section
/-! DEFINITION. Signed images, fuses, recovery, debug, the management link and the I3C address (R453 to R462, R487,
R488). -/
namespace Sys2Proof.Machine

/-! ### Images (R455 to R457) -/

/-- The bank of a kind that is not running. -/
def State.idleBank (s : State) (kind : Nat) : Nat := 1 - (if kind = 0 then s.val 0x2500 5 else s.fw.loader)

/-- Puts a verified image into a bank and marks the bank preferred. -/
def State.putImage (s : State) (kind b : Nat) (image : Octets) : State :=
  { s with fw := { s.fw with banks := FMap.put s.fw.banks (2 * kind + b) { image := image } } }.setVal 0x7000 2
    (setBit (s.val 0x7000 2) kind (b = 1))

/-- A whole image written to 7010h (R455): status 0, or 7 (RANGE) where it is invalid and the bank stays as it was. -/
def State.writeImage (s : State) (kind : Nat) (image : Octets) : Nat × State :=
  if s.imageFault kind image ≠ 0 then (7, s.setVal 0x7010 3 2)
  else
    (0, ((s.putImage kind (s.idleBank kind) image).setVal 0x7010 3 1).postPilot 0x7432 [(1, kind + 1), (4, imageVersion image)])

/-- A raise of the fused minimum SVN (R456). -/
def State.raiseSvn (s : State) (kind v : Nat) : Nat × State :=
  let n := FMap.get s.fw.raises kind 0
  if v ≠ s.val 0x7000 (5 + kind) ∨ v ≤ s.val 0x7000 (3 + kind) ∨ 64 ≤ n then (7, s)
  else
    (0, ({ s with fw := { s.fw with raises := FMap.put s.fw.raises kind (n + 1) } }.setVal 0x7000 (3 + kind) v).postPilot 0x7434
      [(1, kind + 1), (4, n + 1)])

/-- RECOVERY_IMAGE (R457): in recovery, a valid pilot image goes to bank A and the ROM restarts: at step 2 of start-up, or, where
a restart of the running package had led into recovery, with the firmware of that bank (R43). -/
def execRecoveryImage (image : Octets) (s : State) : Result :=
  guardEvent (s.fw.recovery && s.imageFault 0 image == 0) s <|
    let s := s.putImage 0 0 image
    let s : State := { s with fw := { s.fw with recovery := false } }
    .next (if 2 ≤ s.val 0x2500 1 then (s.runPilot 0).postPilot 0x2A10 [] else (s.setVal 0x2500 1 1).setVal 0x2500 2 0)

/-! ### Debug (R461, R462) -/

/-- Whether a token's fields, chain and signature are right (Table 14.3). -/
def State.tokenGood (s : State) (t : Octets) : Bool :=
  let n := (t.slice 64 4).bits
  let chain := t.slice 68 n
  let scope := (t.slice 48 1).bits
  let leaf := Config.chainLeaf chain
  (t.slice 0 4).bits == 0x4244565A && (t.slice 4 4).bits == 0 && (t.slice 8 8).bits == s.val 0x1000 7 &&
    (t.slice 16 32).bits == s.val 0x7080 1 && decide (0 < scope) && decide (scope < 8) && (t.slice 49 7).bits == 0 &&
    t.len == 182 + n && decide (n ≤ 8192) && !s.refusedIdentity (identityOf leaf) &&
    (Config.chainRooted chain 2 || (scope == 2 && s.chainToAnchor chain)) &&
    Config.ed448Verify leaf (t.slice 0 (68 + n)) (t.slice (68 + n) 114).bits

/-- Draws a new debug challenge. -/
def State.newChallenge (s : State) : State := let (c, s) := s.draw 256; s.setObj 0x7080 1 ⟨32, c⟩

/-- A token written to 7080h:02 (R462): a valid one performs a package reset, at whose end the scopes open. -/
def State.writeToken (s : State) (t : Octets) : Nat × State :=
  if !s.tokenGood t then (7, s.newChallenge)
  else
    let n := (t.slice 64 4).bits
    let leaf := Config.chainLeaf (t.slice 68 n)
    let (st, s) := s.newChallenge.askPackageReset
    if st ≠ 0 then (st, s)
    else (0, { s with fw := { s.fw with opening := some ((t.slice 48 1).bits, (t.slice 56 8).bits, identityOf leaf) } })

/-- Closes the open scopes with a package reset (R462); causes 1 LIFE, 2 a write of 7080h:03 (log 28). -/
def State.closeDebug (s : State) (cause : Nat) : State :=
  let s := ({ s with fw := { s.fw with life := none } }.setVal 0x7080 4 0).postPilot 0x7422 [(1, cause)]
  s.beginReset 1 0 0 State.resetPackage

/-- A write to 7080h:03: with no scope open it changes nothing. -/
def State.relock (s : State) (v : Nat) : State := if v = 1 ∧ s.val 0x7080 4 ≠ 0 then s.closeDebug 2 else s

/-- DEBUG_LIFE_EXPIRY (R462). -/
def execDebugLifeExpiry (s : State) : Result :=
  match s.fw.life with
  | none => .next s
  | some t => guardEvent (t ≤ s.tick) s <| .next (s.closeDebug 1)

/-! ### Management link and I3C (R487, R488) -/

/-- MGMT_LINK_ATTEMPT (R487): 25 Gbit/s for 2 s, then 10, until a link forms. -/
def execMgmtLinkAttempt (links : Bool) (s : State) : Result :=
  guardEvent (s.pkg != pkgOff && s.val 0x1020 9 == 0) s <|
    if links then .next (s.setVal 0x1020 9 s.mgmtRate)
    else guardEvent (s.mgmtSince + 2000 * msTicks ≤ s.tick) s <| .next { s with mgmtRate := if s.mgmtRate = 25 then 10 else 25, mgmtSince := s.tick }

/-- The bytes of the I3C target's readable registers (Table 15.6), offset 00h lowest: ID, STATE, HOT, POWER, VIN, CAUSE and
IBIEN. Write-only registers and offsets outside the table read as zero. No command reads them; they are views of State. -/
def State.i3cRegs (s : State) : Octets :=
  ⟨13, 0x3216 + s.val 0x1000 4 % 256 * 2 ^ 16 + 2 * 2 ^ 24 + (s.pkg % 128 + if s.fw.recovery then 128 else 0) * 2 ^ 32 +
    s.val 0x2200 2 % 256 * 2 ^ 40 + s.val 0x2000 7 % 65536 * 2 ^ 48 + s.val 0x2000 6 / 10 % 65536 * 2 ^ 64 +
    s.val 0x2500 2 % 65536 * 2 ^ 80 + s.ibien % 256 * 2 ^ 96⟩

/-- DYNAMIC_ADDRESS (R488): assigned by SETDASA or ENTDAA. -/
def execDynamicAddress (addr : Nat) (s : State) : Result :=
  guardEvent (s.pkg != pkgOff && addr < 128) s <| .next { s with i3cAddr := addr }

end Sys2Proof.Machine
end

