-- ==== Sys2Proof/Machine/Dictionary.lean ====
section
/-! DEFINITION. The object dictionary as its requesters see it: stagers, ownership, the checks of a value, what a read
answers, digests of sets (R5, R14, R38, R355, R384, R390, R396, R400 to R406, R415, R417, R425, R464). -/
namespace Sys2Proof.Machine

/-! ### Requesters (R15, R390, R406) -/

/-- The class bit of a requester in an accessor mask. -/
def whoMask : Who → Nat
  | .operator _ => 1
  | .host _ => 2
  | .peer _ => 4

/-- The stager of a requester: sessions 0 to 7, host contexts 8 to 23; a peer holds none. -/
def stagerOf : Who → Option Nat
  | .operator i => some (i % 8)
  | .host c => some (8 + c % 16)
  | .peer _ => none

/-- What names the requester in a status output. -/
def whoTag : Who → Nat
  | .operator i => i
  | .host c => 0x100 + c
  | .peer p => 0x200 + p

def State.stager (s : State) (i : Nat) : Stager := FMap.get s.stagers i {}
def State.setStager (s : State) (i : Nat) (x : Stager) : State := { s with stagers := FMap.set s.stagers i {} x }

/-- A state whose live values are overridden (a view of R408). -/
def State.withValues (s : State) (vs : FMap Octets) : State :=
  vs.foldl (fun s e => s.setObj (keyIdx e.1) (keySub e.1) e.2) s

/-- The committed view of R408 without any staging set. -/
def State.committed (s : State) : State := s.deferred.foldl (fun s d => s.setObj (keyIdx d.key) (keySub d.key) d.value) s

/-! ### Ownership (R87, R277, R355, R384, R402, R464, R474) -/

/-- The number that stands for 'no partition that a host can own'. -/
def ownNone : Nat := 16

/-- The partition that a plan slot is assigned to (R355). -/
def State.slotOwner (s : State) (k : Nat) : Nat :=
  ((List.range 16).find? fun p => bitOf (s.val (0x7140 + p) 2) k).getD ownNone

/-- Indices of which index `base + p` serves partition `p`. -/
def partIndices : List Nat := [0x3500, 0x3610, 0x5100, 0x6000, 0x6100, 0x6180, 0x6190, 0x6340, 0x7110, 0x7120, 0x7140]

/-- Indices of which subindex `p + 1` serves partition `p`. -/
def partSubs : List Nat := [0x2610, 0x3400, 0x3620, 0x6500, 0x6501, 0x7100, 0x7102, 0x7130, 0x7160]

/-- The partitions that a requester of `idx:sub` must own; none where the object belongs to no partition, slot, group or
map. -/
def State.objOwners (s : State) (idx sub : Nat) : List Nat :=
  match partIndices.find? fun b => b ≤ idx && idx ≤ b + 15 with
  | some b => [idx - b]
  | none =>
    if partSubs.contains idx then (if 1 ≤ sub ∧ sub ≤ 16 then [sub - 1] else [])
    else if 0x6300 ≤ idx ∧ idx ≤ 0x633F then [min (s.val idx 1) ownNone]
    else if 0x5000 ≤ idx ∧ idx ≤ 0x503F then [s.slotOwner (idx - 0x5000)]
    else if 0x5080 ≤ idx ∧ idx ≤ 0x50BF then [s.slotOwner (idx - 0x5080)]
    else if idx = 0x50C0 ∧ 1 ≤ sub then [s.slotOwner (sub - 1)]
    else if 0x5040 ≤ idx ∧ idx ≤ 0x507F then
      ((List.range 64).filter fun k => (s.head k).bken && (s.head k).bkm == idx - 0x5040).map s.slotOwner
    else if 0x2320 ≤ idx ∧ idx ≤ 0x232F ∧ 1 ≤ sub then
      [(s.partOfMast (192 * (idx - 0x2320) + sub - 1)).getD ownNone]
    else []

/-- Whether host context `c` owns all of them (R464). -/
def State.ctxOwnsAll (s : State) (c : Nat) (ps : List Nat) : Bool := ps.all fun p => p < 16 && ctxOwns (s.context c) p

/-- The ownership check of R402: only a host is held to it. -/
def State.ownerOk (s : State) (who : Who) (idx sub : Nat) : Bool :=
  match who with
  | .host c => s.ctxOwnsAll c (s.objOwners idx sub)
  | _ => true

/-- Whether a read is held to ownership: the objects of a plan slot, which a host may not reach (R355; log 31). -/
def ownedRead (idx : Nat) : Bool := (0x5000 ≤ idx && idx ≤ 0x503F) || (0x5080 ≤ idx && idx ≤ 0x50C0)

/-! ### Finding an object (R402 checks 1 to 3, R404) -/

/-- The status of checks 1 to 3, and the object's row where they pass. -/
def State.findObject (s : State) (who : Who) (idx sub : Nat) : Nat × Option ObjRow :=
  if 0x8000 ≤ idx ∧ idx ≤ 0xEFFF then (2, none)
  else if 0xF000 ≤ idx then
    (if bitOf (s.val 0x7080 4) 0 && whoMask who == 1 then 2 else 0x0B, none)
  else if !objExists idx then (2, none)
  else match objRow idx sub with
    | none => (3, none)
    | some r => if r.mask &&& whoMask who = 0 then (4, none) else (0, some r)

/-- Objects that a host may read, but only the operator may write (R222). -/
def operatorWrites (idx : Nat) : Bool := idx == 0x3290

/-- Whether the class of a requester may write an object that it may read. -/
def mayWrite (who : Who) (idx : Nat) : Bool := whoMask who == 1 || !operatorWrites idx

/-! ### The checks of a value (R400, R402 checks 6 to 8) -/

/-- The bytes of an entry of a TAB. -/
def tabEntry (idx sub : Nat) : Nat := if 0x5000 ≤ idx ∧ idx ≤ 0x503F ∧ sub = 2 then 64 else 1

/-- Whether a value has a length of its type. -/
def lengthOk (r : ObjRow) (idx sub : Nat) (v : Octets) : Bool :=
  if r.ty = 11 then v.len ≤ 2 ^ 20 && v.len % tabEntry idx sub == 0 else v.len == r.len

/-- The range of a number (lowest, highest, step) that an object table or a rule states; none where any value may be. -/
def objRange (idx sub : Nat) : Option (Nat × Nat × Nat) :=
  if 0x2320 ≤ idx ∧ idx ≤ 0x232F then some (0, 2, 1)
  else if 0x3000 ≤ idx ∧ idx ≤ 0x300F then some (85, 95, 1)
  else if 0x6000 ≤ idx ∧ idx ≤ 0x600F then
    (match sub with | 2 => some (0, 4095, 1) | 3 => some (0, 4096, 1) | 4 => some (1, 65535, 1) | _ => none)
  else if 0x4010 ≤ idx ∧ idx ≤ 0x4016 then some (0, 1, 1)
  else if 0x5100 ≤ idx ∧ idx ≤ 0x510F then some (1, 3, 1)
  else match idx with
  | 0x1020 => if sub = 2 then some (1024, 65535, 1) else none
  | 0x2100 => some (2800, 5600, 50)
  | 0x2200 => some (80, 95, 1)
  | 0x2400 => some (0, 1, 1)
  | 0x2600 | 0x2610 | 0x2620 | 0x2630 | 0x7160 | 0x50C0 => some (1, 1, 1)
  | 0x3180 => some (64, 4096, 1)
  | 0x3290 => if sub = 2 then some (2, 32, 1) else none
  | 0x4000 => (match sub with | 4 => some (1, 16, 1) | 5 => some (1, 32, 1) | 6 => some (1, 48, 1) | _ => none)
  | 0x4020 => some (1, 1000000, 1)
  | 0x4030 => some (32, 4096, 1)
  | 0x4040 | 0x4840 => some (1, 64, 1)
  | 0x4820 => some (10, 1000000, 1)
  | 0x4830 => some (0, 1, 1)
  | 0x6360 => some (1024, 49152, 1)
  | 0x7040 => some (16, 512, 16)
  | _ => none

/-- Whether any of the bits `[hi:lo]` of the listed fields is set. -/
def anyBits (v : Nat) (fs : List (Nat × Nat)) : Bool := fs.any fun f => field v f.1 f.2 != 0

/-- Format codes reserved for generation 3 and later (Table 1.11, R14). -/
def reservedFormat (f : Nat) : Bool := 9 ≤ f

/-- Whether a reserved bit of a structured value is set (R13), or a field holds an encoding reserved under R14: the group
format and the virtual channel of a plan header, the formats of a converted region. -/
def reservedSet (idx sub : Nat) (v : Octets) : Bool :=
  let n := v.bits
  if 0x7110 ≤ idx ∧ idx ≤ 0x711F then anyBits n [(63, 57), (48, 46), (22, 22)]
  else if 0x3500 ≤ idx ∧ idx ≤ 0x350F then
    anyBits n [(255, 238), (191, 169), (127, 105), (63, 41)] || reservedFormat (field n 227 224) || reservedFormat (field n 231 228)
  else if 0x5000 ≤ idx ∧ idx ≤ 0x503F then
    if sub = 1 then anyBits n [(255, 90)] || reservedFormat (field n 27 24) || field n 23 20 == 15
    else (List.range (v.len / 64)).any fun i => anyBits (v.slice (64 * i) 64).bits [(511, 381)]
  else if 0x5040 ≤ idx ∧ idx ≤ 0x507F then anyBits n [(63, 27)]
  else if 0x6300 ≤ idx ∧ idx ≤ 0x633F then sub == 2 && (anyBits n [(31, 8)] || field n 5 4 == 3)
  else if 0x7140 ≤ idx ∧ idx ≤ 0x714F then sub == 1 && anyBits n [(15, 14), (1, 0)]
  else if idx = 0x4050 then anyBits n [(127, 121), (116, 112), (73, 64), (47, 0)]
  else if idx = 0x7030 then anyBits n [(95, 84), (63, 0)]
  else false

/-- Whether a converted region's own fields are wrong (R226, Table 7.2); a disabled region's are not looked at. -/
def badRegion (n : Nat) : Bool :=
  let sf := field n 227 224
  let vf := field n 231 228
  field n 223 192 != 0 &&
    (sf < 2 || 6 < sf || !(vf == 0 || vf == 2 || vf == 3 || (vf == 4 && sf == 6)) ||
     (bitOf n 232 && (sf == 2 || sf == 3)) || field n 11 0 != 0 || (bitOf n 237 && field n 130 128 != 0))

/-- Whether a coefficient of a trim group is refused (R264). -/
def badCoef (sub n : Nat) : Bool :=
  let x := f32Format.decode n
  let neg := x.lt (.fin (Dyad.zero false))
  let big := (Fp.fin ⟨false, 1, 0⟩).lt x
  !x.isFinite || ((sub == 4 || sub == 6) && (neg || big)) || ((sub == 7 || sub == 10) && neg)

/-- Whether a number breaks the range of its object: its table, and the rules that concern it alone. -/
def State.outOfRange (s : State) (r : ObjRow) (idx sub : Nat) (v : Octets) : Bool :=
  let n := v.bits
  (r.ty == 1 && 1 < n) ||
  (match objRange idx sub with | some (lo, hi, st) => n < lo || hi < n || (n - lo) % st != 0 | none => false) ||
  (if 0x7110 ≤ idx ∧ idx ≤ 0x711F then
     s.memTop < winEnd n || (bitOf n 49 && (field n 21 0 % 256 != 0 || field n 45 23 % 256 != 0))
   else if 0x3500 ≤ idx ∧ idx ≤ 0x350F then badRegion n
   else if 0x3610 ≤ idx ∧ idx ≤ 0x361F then n % 2 == 1 || 128 < n / 256 + n % 256
   else if 0x6000 ≤ idx ∧ idx ≤ 0x600F then sub == 1 && n % 4096 != 0
   else if 0x6300 ≤ idx ∧ idx ≤ 0x633F then (sub == 1 && 15 < n && n != 255) || (3 ≤ sub && badCoef sub n)
   else if 0x6340 ≤ idx ∧ idx ≤ 0x634F then sub == 1 && n % 64 != 0
   else if idx = 0x7130 then n % 64 != 0
   else false)

/-- The status of checks 7 and 8: 8 RESERVED, 7 RANGE, 0. -/
def State.valueStatus (s : State) (r : ObjRow) (idx sub : Nat) (v : Octets) : Nat :=
  if reservedSet idx sub v then 8 else if s.outOfRange r idx sub v then 7 else 0

/-! ### Digests (R417) -/

/-- One entry of a digest's input. -/
def digestEntry (k : Nat) (v : Octets) : Octets :=
  Octets.append ⟨7, keyIdx k % 65536 + keySub k * 65536 + v.len % 2 ^ 32 * 2 ^ 24⟩ v

/-- The digest of a set of values in ascending order of key. -/
def digestOf (vs : FMap Octets) : Octets :=
  shake256 (vs.foldl (fun o e => Octets.append o (digestEntry e.1 e.2)) ⟨0, 0⟩) 32

/-- The keys of every RWS, RW and RWP object, ascending. -/
def settingKeys : List Nat :=
  ((allObjects.filter fun r => 2 ≤ r.access && r.access ≤ 4).flatMap fun r =>
    (List.range (r.hi + 1 - r.lo)).flatMap fun i =>
      (List.range (r.subHi + 1 - r.subLo)).map fun j => objKey (r.lo + i) (r.subLo + j)).mergeSort (· ≤ ·)

/-- The committed-state digest 1F10h:02. -/
def State.committedDigest (s : State) : Octets :=
  let v := s.committed
  digestOf (settingKeys.map fun k => (k, v.obj (keyIdx k) (keySub k)))

/-! ### What a read answers (R38, R406, R425) -/

/-- A commit status record (Table 12.6). -/
def State.commitBytes (s : State) (r : CommitRec) : Octets :=
  let pend := (s.deferred.filter fun d => d.num == r.num).length
  ⟨32, r.count % 2 ^ 32 + pend % 2 ^ 32 * 2 ^ 32 + r.tick % 2 ^ 64 * 2 ^ 64 + r.detail % 2 ^ 32 * 2 ^ 128 +
       r.sub % 256 * 2 ^ 184 + r.index % 65536 * 2 ^ 192 + r.code % 256 * 2 ^ 208 + r.status % 256 * 2 ^ 216 +
       r.token % 2 ^ 32 * 2 ^ 224⟩

/-- Counters of cycles that the model does not count: they read as open values (log 1, log 32); the cycles that a port's
channels waited for credit once one has waited. -/
def State.openObject (s : State) (idx sub : Nat) : Bool :=
  (0x3800 ≤ idx && idx ≤ 0x380F && sub == 1) || (0x3840 ≤ idx && idx ≤ 0x384F && 2 ≤ sub && sub ≤ 5) ||
  (0x3850 ≤ idx && idx ≤ 0x385F && (sub == 2 || sub == 3)) ||
  (0x4010 ≤ idx && idx ≤ 0x4016 && sub == 0x10 && (s.port (idx - 0x4010)).stalled)

/-- What 4900h:05 and up report of a mast's bond (Table 9.8). -/
def Mast.bondState (x : Mast) : Nat := if x.fenced then 3 else if x.bond.upperOut then 1 else if x.bond.lowerOut then 2 else 0

/-- The mode in effect in a partition (6501h): 2 while a mast still runs a work item of the other mode. -/
def State.modeInEffect (s : State) (p : Nat) : Nat :=
  let now := s.val 0x6500 (p + 1) == 1
  let mine := s.val (0x7120 + p) 1
  if s.masts.any fun e => bitOf mine e.1 && e.2.threads.any fun t => t.2.item == some (!now) then 2
  else if now then 1 else 0

/-- The record of a watched tag in memory, bytes 0 to 3,711; empty where none is watched or recorded. -/
def State.watchedRecord (s : State) (p n : Nat) : Octets :=
  let tag := s.val (0x6180 + p) n
  let i := 0x6000 + p
  if s.val i 1 = 0 ∨ tag < s.val i 2 ∨ s.val i 2 + s.val i 3 ≤ tag then ⟨0, 0⟩
  else ⟨3712, s.load (s.val i 1 + 4096 * (tag - s.val i 2)) 3712⟩

/-- A number as the bytes of its object. -/
def asObj (idx sub n : Nat) : Octets := ⟨objLen idx sub, n % 2 ^ (8 * objLen idx sub)⟩

/-- Values that the state holds elsewhere than in the dictionary store. -/
def State.heldValue (s : State) (idx sub : Nat) : Option Nat :=
  if sub = 0 then none
  else if 0x2330 ≤ idx ∧ idx ≤ 0x233F then some (s.mast (192 * (idx - 0x2330) + sub - 1)).status
  else if 0x3000 ≤ idx ∧ idx ≤ 0x300F ∧ sub = 3 then
    some (s.poisoned.filter fun h => s.home (64 * h) == idx - 0x3000).length
  else if 0x4010 ≤ idx ∧ idx ≤ 0x4016 then
    let x := s.port (idx - 0x4010)
    match sub with
    | 2 => some x.link.st
    | 3 => some x.link.width
    | 4 => some (x.link.gen * 16 + x.link.ver)
    | 5 => some x.link.rate
    | 6 => some x.link.cause
    | 7 => some x.peer.digest
    | 8 => some (fieldOfCoord x.peer.coord)
    | 9 => some x.link.latency
    | 0x12 => some x.link.map
    | _ => none
  else if 0x4800 ≤ idx ∧ idx ≤ 0x480F then
    let x := s.rat (idx - 0x4800) ((sub - 1) % 4)
    if sub ≤ 4 then some x.st else if sub ≤ 8 then some x.width else if sub ≤ 12 then some x.map else none
  else if 0x4900 ≤ idx ∧ idx ≤ 0x490F then
    let d := idx - 0x4900
    match sub with
    | 1 | 2 => none
    | 3 => some ((mastsOfDie d).filter fun m => (s.mast m).bondState == 1 || (s.mast m).bondState == 2).length
    | 4 => some ((mastsOfDie d).filter fun m => (s.mast m).fenced).length
    | _ => some (s.mast (192 * d + sub - 5)).bondState
  else match idx, sub with
  | 0x1020, 0x0A => some s.sessions.length
  | 0x1A00, 1 => some (s.ring 0).posted
  | 0x1A00, 2 => some (s.ring 0).read
  | 0x1A00, 3 => some (s.ring 0).drops
  | 0x1A00, _ => some (s.ring (sub - 3)).drops
  | 0x2000, 2 => some s.tick
  | 0x6501, _ => some (s.modeInEffect (sub - 1))
  | _, _ => none

/-- The value of `idx:sub` as its unit or the management plane holds it now. -/
def State.present (s : State) (idx sub : Nat) : Octets × State :=
  if s.openObject idx sub then let (v, s) := s.open (8 * objLen idx sub); (asObj idx sub v, s)
  else if 0x4060 = idx ∧ 1 ≤ sub then
    ((match s.heard.find? fun e => e.1 == sub - 1 with | some e => heardBytes e.2 | none => ⟨0, 0⟩), s)
  else if 0x6190 ≤ idx ∧ idx ≤ 0x619F ∧ 1 ≤ sub then (s.watchedRecord (idx - 0x6190) sub, s)
  else match s.heldValue idx sub with
    | some n => (asObj idx sub n, s)
    | none => (s.obj idx sub, s)

/-- The values that belong to the requester's own stager (R425). -/
def State.ownValue (s : State) (who : Who) (idx sub : Nat) : Option Octets :=
  let x := match stagerOf who with | some i => s.stager i | none => {}
  match idx, sub with
  | 0x1F00, 3 => some ⟨2, x.set.length % 65536⟩
  | 0x1F01, 0 => none
  | 0x1F01, n => some (match x.records[n - 1]? with | some r => s.commitBytes r | none => ⟨32, 0⟩)
  | 0x1F10, 1 => some (digestOf x.set)
  | 0x1F10, 2 => some s.committedDigest
  | 0x7070, 2 => some x.report
  | _, _ => none

/-- Whether an object is a counter or status of a data-plane or control-plane unit, which the dictionary holds as a
snapshot (R38, R156, R184, R222, R256, R277, R306, R350, R388). -/
def snapshotObject (idx sub : Nat) : Bool :=
  match objRow idx sub with
  | some r => r.access == 1 && sub != 0 &&
      ((0x2330 ≤ idx && idx ≤ 0x233F) || (0x3000 ≤ idx && idx ≤ 0x3400) || (0x3600 ≤ idx && idx ≤ 0x4FFF && idx != 0x4060) ||
       (0x5000 ≤ idx && idx ≤ 0x50D0) || (0x6000 ≤ idx && idx ≤ 0x6501))
  | none => false

/-- Two counters that start anew when they are read: most entries in use (3100h:02), highest window mean (2100h:04). -/
def State.readClears (s : State) (idx sub : Nat) : State :=
  if 0x3100 ≤ idx ∧ idx ≤ 0x310F ∧ sub = 2 then s.setVal idx 2 (s.val idx 1)
  else if idx = 0x2100 ∧ sub = 4 then s.setVal 0x2100 4 0
  else s

/-- A plain read: the value and its stamp. Of a unit that has posted no snapshot yet it is what the unit holds now (log 33). -/
def State.readLive (s : State) (who : Who) (r : ObjRow) (idx sub : Nat) : (Octets × Nat) × State :=
  if r.access = 5 then ((⟨r.len, 0⟩, 0), s)
  else match s.ownValue who idx sub with
  | some v => ((v, 0), s)
  | none =>
    if snapshotObject idx sub then
      match s.snaps.find? fun e => e.1 == objKey idx sub with
      | some e => (e.2, s.readClears idx sub)
      | none => let (v, s) := s.present idx sub; ((v, s.tick), s.readClears idx sub)
    else
      let (v, s) := s.present idx sub
      ((v, 0), s.readClears idx sub)

/-- A read with STAGED: the stager's value, else the committed value of R408 (R406). -/
def State.readStaged (s : State) (who : Who) (r : ObjRow) (idx sub : Nat) : (Octets × Nat) × State :=
  let k := objKey idx sub
  let set := match stagerOf who with | some i => (s.stager i).set | none => []
  match set.find? fun e => e.1 == k, s.deferred.find? fun d => d.key == k with
  | some e, _ => ((e.2, 0), s)
  | none, some d => ((d.value, 0), s)
  | none, none => s.readLive who r idx sub

/-! ### Snapshots (R36, R38, R420) -/

/-- A snapshot goes into the snapshot ring; where that is full it is dropped and counted. A ring that has dropped posts its
overflow record first, which nothing reads: it takes a place (R36). -/
def SnapRing.post (g : SnapRing) (cap key : Nat) (v : Octets) (tick : Nat) : SnapRing :=
  let n := g.recs.length + (if g.owed = 0 then 0 else 1)
  if n < cap then { g with recs := g.recs ++ [(key, (v, tick))], owed := 0 }
  else { g with drops := g.drops + 1, owed := g.owed + 1 }

/-- The subindices of an index that its units post as snapshots. -/
def snapshotSubs (idx : Nat) : List Nat := ((List.range (objTop idx)).map (· + 1)).filter (snapshotObject idx)

/-- The units behind an index post what they hold of it. -/
def State.postSnapshots (s : State) (idx : Nat) : State :=
  let s : State := { s with snapRing := { s.snapRing with last := FMap.put s.snapRing.last idx s.tick } }
  (snapshotSubs idx).foldl (fun s sub =>
    let (v, s) := s.present idx sub
    { s with snapRing := s.snapRing.post Config.snapshotRing (objKey idx sub) v s.tick }) s

/-- Whether the units behind an index post again: 25,000 ticks after the last time. -/
def State.snapshotDue (s : State) (idx : Nat) : Bool := FMap.get s.snapRing.last idx 0 + msTicks ≤ s.tick

/-- The dictionary store takes the snapshots out of the ring. -/
def State.takeSnapshots (s : State) : State :=
  { s with snaps := s.snapRing.recs.foldl (fun m e => FMap.put m e.1 e.2) s.snaps, snapRing := { s.snapRing with recs := [] } }

/-- The indices under which some unit keeps counters. -/
def snapshotIndices : List Nat :=
  (allObjects.foldl (fun l r => (List.range (r.hi + 1 - r.lo)).foldl (fun l i => insertSorted (r.lo + i) l) l) []).filter
    fun idx => !(snapshotSubs idx).isEmpty

/-- At the end of a tick: the units that are due have posted, and the store has what the ring held (R38). -/
def State.settleSnapshots (s : State) : State :=
  let s := if s.tick < msTicks then s
    else (snapshotIndices.filter s.snapshotDue).foldl State.postSnapshots s
  s.takeSnapshots

/-- SNAPSHOT_POST (R38): the units behind an index post, 25,000 ticks after the last time; their first posting may come
earlier. -/
def execSnapshotPost (idx : Nat) (s : State) : Result :=
  guardEvent (!(snapshotSubs idx).isEmpty && (s.snapshotDue idx || (s.snapRing.last.find? fun e => e.1 == idx).isNone)) s <|
    .next (s.postSnapshots idx)

end Sys2Proof.Machine
end

