-- ==== Sys2Proof/Machine/Commit.lean ====
section
/-! DEFINITION. The commit gate: requests, checks, zeroing, the flip, deferred and superseded values, the ends of resets, a
pilot restart (R34, R43, R191, R239, R329, R340, R373, R407 to R419, R449, R450, R463, R465 to R467). -/
namespace Sys2Proof.Machine

/-! ### Records and events (R415, R420) -/

/-- Changes the status record of commit `num`, where its stager still holds it. -/
def State.setRec (s : State) (num : Nat) (f : CommitRec → CommitRec) : State :=
  { s with stagers := s.stagers.map fun (e : Nat × Stager) =>
      (e.1, { e.2 with records := e.2.records.map fun (r : CommitRec) => if r.num = num then f r else r }) }

/-- The partitions whose records a stager's commits are: those its host context owns, or none (R420). -/
def State.commitParts (s : State) (stager : Nat) : List Nat :=
  let ps := if 8 ≤ stager then (List.range 16).filter (ctxOwns (s.context (stager - 8))) else []
  if ps.isEmpty then [partOperator] else ps

/-- Posts a commit event. -/
def State.postCommit (s : State) (code stager : Nat) (detail : List (Nat × Nat)) : State :=
  (s.commitParts stager).foldl (fun s p => s.post { code := code, plane := 0, part := p, detail := detail }) s

/-- Whether a stager has a commit in checks (R407). -/
def State.inChecks (s : State) (stager : Nat) : Bool := (s.stager stager).records.any fun r => r.status == 1

/-! ### Requests (R407, R408, R411) -/

/-- A token written to 1F00h:01: status 1 (BUSY) while a commit of the stager is in checks. An empty set is judged by its
digest alone, at once. -/
def State.requestCommit (s : State) (stager token : Nat) : Nat × State :=
  let x := s.stager stager
  if s.inChecks stager then (1, s)
  else
    let num := s.commitNum + 1
    let r : CommitRec := { num := num, token := token % 2 ^ 32, status := 1, count := x.set.length }
    let bad := x.expect ≠ 0 ∧ (digestOf x.set).bits ≠ x.expect
    let put := fun (r : CommitRec) (s : State) =>
      { s with commitNum := num }.setStager stager { x with expect := 0, records := (r :: x.records).take 8 }
    if !x.set.isEmpty then
      let s := put r s
      (0, { s with commits := s.commits ++ [{ stager := stager, num := num, token := token % 2 ^ 32, since := s.tick,
                                              set := x.set, expect := x.expect }] })
    else if bad then
      (0, (put { r with status := 2, code := 1, index := 0x1F00, sub := 4, tick := s.tick } s).postCommit 0x1F32 stager
            [(4, token), (1, 1), (2, 0x1F00), (1, 4)])
    else (0, (put { r with status := 4, tick := s.tick } s).postCommit 0x1F30 stager [(4, token), (4, 0)])

/-- 1 written to 1F00h:02 (R411). -/
def State.discardStaged (s : State) (stager v : Nat) : Nat × State :=
  if v = 0 then (0, s)
  else if s.inChecks stager then (1, s)
  else (0, s.setStager stager { s.stager stager with set := [] })

/-- A value staged (R406, R407). -/
def State.stageValue (s : State) (stager key : Nat) (v : Octets) : Nat × State :=
  let x := s.stager stager
  let others := x.set.filter fun e => e.1 != key
  let bytes := others.foldl (fun n e => n + e.2.len) v.len
  if s.inChecks stager then (1, s)
  else if 4096 ≤ others.length ∨ 2 ^ 21 < bytes then (0x0A, s)
  else (0, s.setStager stager { x with set := FMap.put x.set key v })

/-! ### Check 4: consistency and partition bounds (R409) -/

/-- Whether `[a, a + n)` and `[b, b + m)` share a byte. -/
def overlaps (a n b m : Nat) : Bool := n != 0 && m != 0 && a < b + m && b < a + n

/-- The lantern table or trim-entry table of a partition: in windows with the rights it needs (R252, R259). -/
def State.tableCode (v : State) (p base len : Nat) (rights : List Nat) : Nat :=
  if base = 0 ∨ len = 0 ∨ v.inWindows p base len rights then 0 else 5

/-- The lantern table of partition `p` (R252). -/
def State.lanternCode (v : State) (p : Nat) : Nat :=
  v.tableCode p (v.val (0x6000 + p) 1) (4096 * v.val (0x6000 + p) 3) [rightRd, rightWr, rightAow]

/-- The trim-entry table of partition `p` (R259). -/
def State.trimTableCode (v : State) (p : Nat) : Nat :=
  v.tableCode p (v.val (0x6340 + p) 1) (64 * v.val (0x6340 + p) 2) [rightRd, rightWr]

/-- A window against every other enabled window and the carve-out (R190), and the tables of its partition against the windows
as they become (R252, R259). -/
def State.windowCode (v : State) (p n : Nat) : Nat :=
  let w := v.window p (n - 1)
  if winLen w ≠ 0 ∧ (List.range 256).any fun j =>
      !(j / 16 == p && j % 16 + 1 == n) &&
        overlaps (winBase w) (winLen w) (winBase (v.window (j / 16) (j % 16))) (winLen (v.window (j / 16) (j % 16))) then 4
  else if winLen w ≠ 0 ∧ winBase w < v.carve * 2 ^ 30 then 5
  else max (v.lanternCode p) (v.trimTableCode p)

/-- A converted region: its arrays lie in windows with RD and WR, and regions of one array agree (R226). -/
def State.regionCode (v : State) (p r : Nat) : Nat :=
  let n := v.val (0x3500 + p) r
  let len := field n 223 192 * 4096
  let rights := [rightRd, rightWr]
  let elems := len * 8 / formatBits (field n 227 224)
  if len = 0 then 0
  else if (List.range 64).any fun j =>
      let m := v.val (0x3500 + p) (j + 1)
      field m 223 192 != 0 && field m 40 0 == field n 40 0 && m - field m 231 228 * 2 ^ 228 != n - field n 231 228 * 2 ^ 228 then 4
  else if !v.inWindows p (field n 40 0) len rights ||
      (bitOf n 232 && !v.inWindows p (field n 104 64) (elems / blockSize (field n 234 233)) rights) ||
      (bitOf n 237 && !v.inWindows p (field n 168 128) (len / 4096 * 8) rights) then 5
  else 0

/-- A host context against the others and the carve-out (R463). -/
def State.contextCode (v : State) (c : Nat) : Nat :=
  let x := v.context c
  let base := fun (y : Nat) => field y 83 74
  let len := fun (y : Nat) => field y 73 64
  if (len x ≠ 0 ∧ v.carve < base x + len x) ∨ (List.range 16).any fun j =>
      let y := v.context j
      j != c && (ctxCores x &&& ctxCores y != 0 || field x 111 96 &&& field y 111 96 != 0 ||
        overlaps (base x) (len x) (base y) (len y)) then 4 else 0

/-- The masts of a partition: in no other, and Dark where they change partition (R465); `s` is live, `v` the view. -/
def State.mastsCode (s v : State) (p : Nat) : Nat :=
  let x := v.val (0x7120 + p) 1
  let moved := x ^^^ s.val (0x7120 + p) 1
  if (List.range 16).any (fun q => q != p && v.val (0x7120 + q) 1 &&& x != 0) ||
      (List.range 3072).any (fun m => bitOf moved m && (s.mast m).power != .dark) then 4 else 0

/-- A destruction (R466): no slot of the partition is loaded, its masts are Dark. -/
def State.existCode (s v : State) (p : Nat) : Nat :=
  if v.val 0x7100 (p + 1) = 1 ∨ !s.partExists p then 0
  else if (v.loaded.any fun k => (v.head k).part == p) || (s.mastsOf p).any fun m => (s.mast m).power != .dark then 4
  else 0

/-- Whether the tag ranges of two partitions overlap (R250). -/
def State.tagsOverlap (v : State) (p : Nat) : Bool :=
  (List.range 16).any fun q => q != p &&
    overlaps (v.val (0x6000 + p) 2) (v.val (0x6000 + p) 3) (v.val (0x6000 + q) 2) (v.val (0x6000 + q) 3)

/-- What check 4 finds of one staged object: 0, 4 CONSISTENCY or 5 PARTITION (log 34). -/
def State.crossCode (s v : State) (key : Nat) : Nat :=
  let idx := keyIdx key
  let sub := keySub key
  if 0x3500 ≤ idx ∧ idx ≤ 0x350F then v.regionCode (idx - 0x3500) sub
  else if 0x3610 ≤ idx ∧ idx ≤ 0x361F then
    let a := v.allotment (idx - 0x3610) (sub - 1)
    if (List.range 16).any fun q => q != idx - 0x3610 && overlaps a.1 a.2 (v.allotment q (sub - 1)).1 (v.allotment q (sub - 1)).2
    then 4 else 0
  else if 0x5100 ≤ idx ∧ idx ≤ 0x510F then
    if v.val idx 1 = v.val idx 2 ∨ v.val idx 1 = v.val idx 3 ∨ v.val idx 2 = v.val idx 3 then 4 else 0
  else if 0x6000 ≤ idx ∧ idx ≤ 0x600F then
    if v.tagsOverlap (idx - 0x6000) then 4
    else v.lanternCode (idx - 0x6000)
  else if 0x6340 ≤ idx ∧ idx ≤ 0x634F then v.trimTableCode (idx - 0x6340)
  else if 0x7110 ≤ idx ∧ idx ≤ 0x711F then v.windowCode (idx - 0x7110) sub
  else if 0x7120 ≤ idx ∧ idx ≤ 0x712F then s.mastsCode v (idx - 0x7120)
  else if 0x7140 ≤ idx ∧ idx ≤ 0x714F then
    if (List.range 16).any fun q => q != idx - 0x7140 && v.val (0x7140 + q) sub &&& v.val idx sub != 0 then 4 else 0
  else match idx with
  | 0x4000 =>
    if ((List.range 3).any fun a => coordAt v.sizes a ≤ coordAt v.coord a) || !v.loaded.isEmpty then 4 else 0
  | 0x4030 => if 11565 < (List.range 15).foldl (fun n i => n + v.val 0x4030 (i + 1)) 480 then 4 else 0
  | 0x6500 => if v.val 0x7100 sub = 0 then 5 else 0
  | 0x7030 => v.contextCode (sub - 1)
  | 0x7100 => s.existCode v (sub - 1)
  | _ => 0

/-! ### The checks (R409) -/

/-- A refusal: code of Table 12.7, object, DETAIL. -/
structure Refused where
  code   : Nat
  key    : Nat
  detail : Nat := 0
deriving DecidableEq, Repr

/-- Whether a commit stages slot `k`'s header or phase table. -/
def loadsSlot (set : FMap Octets) (k : Nat) : Bool :=
  set.any fun e => e.1 == objKey (0x5000 + k) 1 || e.1 == objKey (0x5000 + k) 2

/-- Check 5 on one loaded slot of the view: a slot that the commit does not load or change is not refused for a port,
ratline or mast that has failed since (R381, R382; log 35). -/
def admissionFails (set : FMap Octets) (k code : Nat) : Bool := code != 0 && (loadsSlot set k || (code != 2 && code != 0x0B))

/-- The first failing check of a commit on the view `v`; `b` is the committed view without the set. -/
def State.judgeCommit (s b v : State) (q : CommitReq) : Option Refused :=
  let who : Who := if 8 ≤ q.stager then .host (q.stager - 8) else .operator q.stager
  if q.expect ≠ 0 ∧ (digestOf q.set).bits ≠ q.expect then some ⟨1, objKey 0x1F00 4, 0⟩
  else match q.set.find? fun e => !(b.ownerOk who (keyIdx e.1) (keySub e.1) && v.ownerOk who (keyIdx e.1) (keySub e.1)) with
  | some e => some ⟨2, e.1, 0⟩
  | none => match q.set.find? fun e => match objRow (keyIdx e.1) (keySub e.1) with
      | some r => s.valueStatus r (keyIdx e.1) (keySub e.1) e.2 != 0
      | none => true with
    | some e => some ⟨3, e.1, 0⟩
    | none => match q.set.find? fun e => s.crossCode v e.1 != 0 with
      | some e => some ⟨s.crossCode v e.1, e.1, 0⟩
      | none => match v.loaded.find? fun k => admissionFails q.set k (v.judge k).code with
        | some k =>
          let x := v.judge k
          some ⟨6, objKey (0x5000 + k) x.sub, x.code * 2 ^ 24 + x.phase * 2 ^ 16⟩
        | none => none

/-- Writes what admission found on the view into 5080h (R378, R381). -/
def State.noteAdmission (s v : State) (set : FMap Octets) : State :=
  v.loaded.foldl (fun s k =>
    let x := v.judge k
    if x.code = 0 then s.noteVerdict k 1 x else if admissionFails set k x.code then s.noteVerdict k 3 x else s) s

/-- Refuses a commit (R411, R415). -/
def State.refuseCommit (s : State) (q : CommitReq) (r : Refused) : State :=
  let tick := s.tick
  let s := { s with commits := s.commits.filter fun c => c.num != q.num }.setRec q.num fun (x : CommitRec) =>
    { x with status := 2, code := r.code, index := keyIdx r.key, sub := keySub r.key, detail := r.detail, tick := tick }
  s.postCommit 0x1F32 q.stager [(4, q.token), (1, r.code), (2, keyIdx r.key), (1, keySub r.key)]

/-! ### Zeroing before the flip (R191, R239, R463, R467) -/

/-- Zeroes a range through the home directories. -/
def State.zeroRange (s : State) (a n : Nat) : State := (s.zeroMem a n).dropLines a n

/-- Zeroes what a window newly covers: all of it where it was disabled, where its spread changes or where its partition is
created. -/
def State.zeroWindow (s : State) (fresh : Bool) (old new : Nat) : State :=
  if winLen new = 0 then s
  else if fresh || winLen old = 0 || bitOf old 49 != bitOf new 49 then s.zeroRange (winBase new) (winLen new)
  else
    let s := if winBase new < winBase old then
        s.zeroRange (winBase new) (min (winEnd new) (winBase old) - winBase new) else s
    if winEnd old < winEnd new then
      s.zeroRange (max (winBase new) (winEnd old)) (winEnd new - max (winBase new) (winEnd old)) else s

/-- The zeroing that a set asks for, on the live state. -/
def State.zeroFor (s : State) (vs : FMap Octets) : State :=
  let new := fun (k : Nat) (d : Nat) => (FMap.get vs k ⟨0, d⟩).bits
  let made := (List.range 16).filter fun p => !s.partExists p && new (objKey 0x7100 (p + 1)) 0 == 1
  let s := made.foldl (fun (s : State) p => (List.range 16).foldl (fun (s : State) n =>
    s.zeroWindow true 0 (new (objKey (0x7110 + p) (n + 1)) (s.window p n))) s) s
  vs.foldl (fun (s : State) e =>
    let idx := keyIdx e.1
    let sub := keySub e.1
    if 0x7110 ≤ idx ∧ idx ≤ 0x711F ∧ !made.contains (idx - 0x7110) then s.zeroWindow false (s.window (idx - 0x7110) (sub - 1)) e.2.bits
    else if idx = 0x7030 then
      let o := s.context (sub - 1)
      if field o 83 64 = field e.2.bits 83 64 then s
      else (s.dropLines (field o 83 74 * 2 ^ 30) (field o 73 64 * 2 ^ 30)).zeroRange (field e.2.bits 83 74 * 2 ^ 30)
        (field e.2.bits 73 64 * 2 ^ 30)
    else s) s

/-! ### What a value does as it becomes live (R466, R443, R346, R305, R340, R373) -/

/-- Creates partition `p` (Table 14.5). -/
def State.createPart (s : State) (p : Nat) : State :=
  let (key, s) := s.draw 64
  let s := ((s.setPart p { key := key }).goPart p .live).bump 0x3400 (p + 1) 1
  let s := (List.range 16).foldl (fun s d => s.zeroPanes p d) s
  let g := s.ring (p + 1)
  let s := (s.setVal 0x3620 (p + 1) 0).setRing (p + 1) { g with recs := [], read := g.posted, owed := 0 }
  s.post { code := 0x7410, plane := 0, part := p, detail := [(1, p), (4, s.val 0x3400 (p + 1))] }

/-- Destroys partition `p`: its objects return to their defaults, its key is discarded; `old` is the state before. An
object that the same set gives to another partition stays. -/
def State.destroyPart (s old : State) (p : Nat) : State :=
  let mine := fun (k : Nat) => keyIdx k != 0x3400 && (old.objOwners (keyIdx k) (keySub k)).contains p &&
    !(s.objOwners (keyIdx k) (keySub k)).any fun q => q != p && q < 16
  let s := { s with dict := s.dict.filter fun (e : Nat × Octets) => !mine e.1,
                    trims := s.trims.filter fun (e : Nat × Trim) => e.1 / 65536 != p,
                    panes := s.panes.filter fun (e : Nat × Pane) => e.1 / 32 != p,
                    silent := s.silent.filter fun e => e / 4096 != p,
                    lantern := s.lantern.filter fun (e : Nat × Nat) => e.1 / (4096 * 16 * 80) % 16 != p }
  (s.setPart p {}).post { code := 0x7412, plane := 0, part := p, detail := [(1, p)] }

/-- A core is reset: its loads end with it. -/
def State.resetCore (s : State) (n : Nat) : State :=
  let t := (s.forgetRequests fun w => w == coreWho n).emit .pin 0x7030 n ⟨0, 0⟩
  { t with coreLoads := t.coreLoads.filter fun x => x.core != n }

/-- A core that moves to another context is reset; one in no context is held in reset (R463). -/
def State.moveCores (s : State) (old : State) : State :=
  ((List.range 16).filter fun n => old.contextOfCore n != s.contextOfCore n).foldl State.resetCore s

/-- A plan slot whose header or phase table became live (Table 11.7). -/
def State.flipSlot (s : State) (k : Nat) (header : Bool) : State :=
  let y := s.plan k
  let h := s.head k
  if !h.valid then
    if y.st = 0 then s else (s.setPlan k {}).noteVerdict k 0 ⟨0, 0, 0, []⟩
  else if header then s.setPlan k { st := 1, step := h.s0 }
  else if y.st = 2 then s.setPlan k { y.clean with st := 1 }
  else s

/-- Whether a port is held in quarantine for another cause than 11, out of which no commit leads (R329). -/
def Port.recheckable (x : Port) : Bool := x.link.st == portQuarantined && x.link.cause != 11

/-- A flip of 4050h: step 6 and then 7 at every quarantined port (R329). -/
def State.flipPermissions (s : State) : State :=
  (List.range 7).foldl (fun s p => if (s.port p).recheckable then s.checkPermission p else s) s

/-- Step 7 again at a Live or quarantined stay port (R329, R340): it is quarantined where the step fails; where it passes, a
quarantined one that step 6 has admitted is Live, any other stays where it is. A partner whose identity was never accepted has
reported no coordinate (log 61). -/
def State.recheckCoord (s : State) (p : Nat) : State :=
  let x := s.port p
  let c := s.coordCause p
  if !x.identified then s
  else if c ≠ 0 then s.quarantine p c
  else if x.link.st = portLive then s
  else s.checkPermission p

/-- A flip of 4000h at one stay port: step 7 again where it is Live or quarantined; one that is on its way there along an axis
of size 1 now goes Off (R327), one that is Off for want of an axis is brought up. -/
def State.flipTorusPort (s : State) (p : Nat) : State :=
  let x := s.port p
  if x.link.st = portLive ∨ x.recheckable then s.recheckCoord p
  else if x.link.st = portOff then s.enablePort p
  else if portPresence ≤ x.link.st ∧ x.link.st < portLive ∧ !s.hasAxis p then s.portFalls p portOff false
  else s

/-- A flip of 4000h (R329, R340). -/
def State.flipTorus (s : State) : State := (List.range 6).foldl State.flipTorusPort s

/-- What one object does as its value becomes live; `old` is the state before the edge. -/
def State.flipEffect (s old : State) (key : Nat) : State :=
  let idx := keyIdx key
  let sub := keySub key
  let v := s.val idx sub
  if v = old.val idx sub ∧ idx / 64 ≠ 0x5000 / 64 then s
  else if 0x3610 ≤ idx ∧ idx ≤ 0x361F then s.zeroPanes (idx - 0x3610) (sub - 1)
  else if 0x4010 ≤ idx ∧ idx ≤ 0x4016 then s.flipPort (idx - 0x4010) v
  else if 0x5000 ≤ idx ∧ idx ≤ 0x503F then s.flipSlot (idx - 0x5000) (sub = 1)
  else match idx with
  | 0x2400 => s.flipDomain (sub - 1) v
  | 0x4830 => s.flipLink (sub - 1) v
  | 0x7100 =>
    if v = 1 ∧ !old.partExists (sub - 1) then s.createPart (sub - 1)
    else if v = 0 ∧ old.partExists (sub - 1) then s.destroyPart old (sub - 1)
    else s
  | _ => s

/-- Copies a set of values live on one pilot-clock edge (R34, R411), zeroing first. A plan that goes live is judged by the ports
as they are now (R347). -/
def State.goLive (s : State) (vs : FMap Octets) : State :=
  if vs.isEmpty then s
  else
    let s := s.zeroFor vs
    let old := s
    let s := s.withValues vs
    let s := vs.foldl (fun s e => s.flipEffect old e.1) s
    let has := fun (i : Nat) => vs.any fun e => keyIdx e.1 == i
    let s := if has 0x4000 then s.flipTorus else s
    let s := if has 0x4050 then s.flipPermissions else s
    let s := if has 0x7030 then s.moveCores old else s
    if vs.any fun e => 0x5000 ≤ keyIdx e.1 && keyIdx e.1 ≤ 0x503F then s.readmit else s

/-- Arms every plan that Idle holds for nothing, and serves the chunks that waited (R373, R412). -/
def State.releasePlans (s : State) : State := (s.loaded.foldl State.arm s).takeHeld

/-! ### Deferred values (R412 to R414) -/

/-- Whether a slot keeps deferred values pending: a phase is in progress, or its partition or the package is Resetting. -/
def State.slotHolds (s : State) (k : Nat) : Bool :=
  (s.plan k).inProgress || s.resetting 2 (s.head k).part || s.resetting 1 0

/-- Ends every accepted commit of which no value is pending any more (R413, R415). -/
def State.endCommits (s : State) : State :=
  (s.accepted.filter fun e => !s.deferred.any fun d => d.num == e.1).foldl (fun s e =>
    let s := { s with accepted := FMap.erase s.accepted e.1 }
    if e.2.lost = 0 then
      (s.setRec e.1 fun (r : CommitRec) => { r with status := 4 }).postCommit 0x1F36 e.2.stager [(4, e.2.token)]
    else
      (s.setRec e.1 fun (r : CommitRec) => { r with status := 5 }).postCommit 0x1F34 e.2.stager [(4, e.2.token), (4, e.2.lost)]) s

/-- Whether a value has to wait: a plan that uses it has a phase in progress (R412). -/
def State.held (s : State) (key : Nat) : Bool := (s.usersOf key).any s.slotHolds

/-- Copies live every deferred value whose plans are all Idle or Empty, then releases those plans (R412). -/
def State.flipReady (s : State) : State :=
  let ready := s.deferred.filter fun d => !s.held d.key
  if ready.isEmpty then s
  else
    let t : State := { s with deferred := s.deferred.filter fun d => s.held d.key }
    (t.goLive (ready.foldl (fun m d => FMap.put m d.key d.value) [])).endCommits.releasePlans

/-- A load or unload of a slot that is Aborting (Table 11.7, R418, R419). -/
def State.heldReload (s : State) (k : Nat) (v : Octets) : State :=
  let y := s.plan k
  let valid := (planHead v.bits).valid
  if y.st = 4 ∧ valid then (s.setPlan k { y with st := 5 }).postHeld (partOr (s.partOfSlot k)) 4 k
  else if y.st = 5 ∧ !valid then s.setPlan k { y with st := 4 }
  else s

/-- The flip of a commit whose checks have passed (R411 to R413). -/
def State.acceptCommit (s : State) (q : CommitReq) : State :=
  let s := { s with commits := s.commits.filter fun c => c.num != q.num }
  let x := s.stager q.stager
  let s := if x.records.any fun r => r.num == q.num then s.setStager q.stager { x with set := [] } else s
  let hit := fun (d : Deferred) => q.set.any fun e => e.1 == d.key
  let gone := s.deferred.filter hit
  let s := { s with deferred := s.deferred.filter fun d => !hit d,
                    accepted := s.accepted.map fun (e : Nat × Accepted) =>
                      (e.1, { e.2 with lost := e.2.lost + (gone.filter fun (d : Deferred) => d.num == e.1).length }) }
  let pend := q.set.filter fun e => s.held e.1
  let waits : List Deferred := pend.map fun e => { num := q.num, key := e.1, value := e.2 }
  let s := s.goLive (q.set.filter fun e => !s.held e.1)
  let s := { s with deferred := s.deferred ++ waits }
  let s := pend.foldl (fun s e =>
    if 0x5000 ≤ keyIdx e.1 ∧ keyIdx e.1 ≤ 0x503F ∧ keySub e.1 = 1 then s.heldReload (keyIdx e.1 - 0x5000) e.2 else s) s
  let s := (s.loaded.foldl State.disarm s).endCommits
  let tick := s.tick
  let s := s.setRec q.num fun (r : CommitRec) => { r with status := if pend.isEmpty then 4 else 3, tick := tick }
  let s := if pend.isEmpty then s
    else { s with accepted := FMap.put s.accepted q.num { stager := q.stager, token := q.token } }
  (s.postCommit 0x1F30 q.stager [(4, q.token), (4, pend.length)]).releasePlans

/-- Whether a reset holds the flips of commits that pass meanwhile (R450). -/
def State.resetHolds (s : State) : Bool := s.resets.any fun r => r.kind == 1 || r.kind == 2 || r.kind == 3

/-- The commits that have passed their checks and wait for their edge, oldest first. -/
def State.passed (s : State) : List CommitReq := s.commits.filter (·.passed)

/-- The view on which the next commit is judged, without its own set (R408): what has passed is accepted and comes next. -/
def State.judgedView (s : State) : State := s.passed.foldl (fun v q => v.withValues q.set) s.committed

/-- COMMIT_CHECKS_DONE (R408 to R411): the checks of the commit in checks end. One that passes flips on the next pilot-clock
edge (R34, R411), or when the resets in progress are over (R450). -/
def execCommitChecksDone (s : State) : Result :=
  match s.commits.find? fun q => !q.passed with
  | none => .next s
  | some q =>
    let b := s.judgedView
    let v := b.withValues q.set
    match s.judgeCommit b v q with
    | some r => .next ((if r.code = 6 then s.noteAdmission v q.set else s).refuseCommit q r)
    | none =>
      let s := s.noteAdmission v q.set
      .next { s with commits := s.commits.map fun c => if c.num = q.num then { c with passed := true } else c }

/-! ### The ends of resets (R414, R449, R450) -/

/-- The commit flip of one pilot-clock edge (R42): first the deferred values whose plans are quiescent, then the commits that
have passed, in their order. -/
def State.flipWaiting (s : State) : State :=
  let s := s.flipReady
  if s.resetHolds then s else s.passed.foldl State.acceptCommit s

/-- DEFERRED_FLIP (R412): the edge on which deferred values become live. -/
def execDeferredFlip (s : State) : Result :=
  guardEvent ((s.deferred.any fun d => !s.held d.key) || (!s.resetHolds && !s.passed.isEmpty)) s <| .next s.flipWaiting

/-- RESET_COMPLETE (R449); what waited for the reset flips on the same edge (R414, R450). -/
def execResetComplete (kind scope : Nat) (s : State) : Result :=
  match s.resets.find? fun r => r.kind == kind && r.scope == scope with
  | none => .next s
  | some r => guardEvent (s.resetEnds r) s <| .next (((s.resetEffect r).reportReset r true).flipWaiting)

/-- An abort written to 50C0h (R376, R448, R450): of a plan that runs it is a reset, reported at its begin and end. -/
def State.askAbort (s : State) (k : Nat) : State :=
  let st := (s.plan k).st
  if st = 1 then s.postAborted k
  else if st = 0 then s
  else if st = 4 ∨ st = 5 then
    (if s.resetting 5 k || s.resetting 2 (s.head k).part then s.beginReset 5 k 0 (·.abortPlan k) else s)
  else s.beginReset 5 k 0 (·.abortPlan k)

/-- PLAN_ABORT_DONE (R373): the plan's drains have ended; it goes Idle at the same step. A held load, like every value deferred
on the plan, flips on the next pilot-clock edge (R412, R418). -/
def execPlanAbortDone (k : Nat) (s : State) : Result :=
  let y := s.plan k
  let drains := s.panes.any fun e => match e.2.st with | .draining j _ => j == k | _ => false
  guardEvent (decide (k < 64) && (y.st == 4 || y.st == 5) && !drains) s <|
    let s := (s.postAborted k).setPlan k { y.clean with st := 1, phase := 0, served := [], seen := [] }
    let s := match s.resets.find? fun r => r.kind == 5 && r.scope == k with
      | some r => s.reportReset r true
      | none => s
    .next (s.arm k).takeHeld

/-! ### Rings and restarts (R36, R43) -/

/-- EVENT_RING_OVERFLOW (R36): a ring that dropped records has room again. -/
def execEventRingOverflow (ring : Nat) (s : State) : Result :=
  let g := s.ring ring
  guardEvent (decide (ring < 17) && g.owed != 0 && decide (g.used < ringSize ring)) s <|
    .next (s.setRing ring (g.settle (ringSize ring) (overflowRec s.tick ring)))

end Sys2Proof.Machine
end

