-- ==== Sys2Proof/Machine/Requests.lean ====
section
/-! DEFINITION. Dictionary requests and the writes that act at once: READ, WRITE, READ_SEG, WRITE_SEG, LIST, DESCRIBE and
the register writes with a command of their own (R390 to R393, R399 to R407, R411, R436, R446, R448, R455, R460, R462, R468). -/
namespace Sys2Proof.Machine

/-! ### Attestation (R460) -/

/-- The DIGEST of the image that runs of a kind. -/
def State.measured (s : State) (kind : Nat) : Octets :=
  let d := imageDigest (s.bank kind (if kind = 0 then s.val 0x2500 5 else s.fw.loader)).image
  ⟨64, d.bits⟩

/-- The report of Table 14.2 for a nonce. R5 says that every attestation report carries the variant, the stack height, the
stepping and the serial number; Table 14.2, which lays the report out to its last byte, has a place for the serial number alone.
The model follows the table, a choice of its own (log 62). -/
def State.report (s : State) (nonce : Octets) : Octets :=
  let n := fun (len v : Nat) => (⟨len, v % 2 ^ (8 * len)⟩ : Octets)
  let fenced := (s.masts.filter fun e => e.2.fenced).length
  let body := [n 4 0x5441565A, n 2 1, n 1 2, n 1 (s.val 0x7080 4), n 8 (s.val 0x1000 7), n 16 (s.val 0x1000 9), n 32 nonce.bits,
    n 8 s.tick, n 4 (s.val 0x1010 1), n 4 (s.val 0x1010 2), n 4 (s.val 0x1010 3), n 2 (s.val 0x7000 5), n 2 (s.val 0x7000 6),
    s.measured 0, s.measured 1, s.committedDigest, n 2 fenced, n 2 (s.val 0x7180 1), n 4 0].foldl Octets.append ⟨0, 0⟩
  Octets.append body ⟨114, Config.ed448Sign body % 2 ^ 912⟩

/-- A nonce written to 7070h:01. -/
def State.writeNonce (s : State) (stager : Nat) (nonce : Octets) : State :=
  s.setStager stager { s.stager stager with nonce := some nonce, report := s.report nonce }

/-! ### Writes that take effect at once (R15, R34, R403) -/

/-- The package mast that `idx:sub` of 2320h to 232Fh concerns. -/
def mastOfObject (idx sub : Nat) : Nat := 192 * (idx - 0x2320) + sub - 1

/-- Accepts a write to an RW object (2320h, 2100h:01, 50C0h), which becomes live on the next pilot-clock edge (R34); a fenced
mast's is refused (R285). -/
def State.acceptWrite (s : State) (idx sub v : Nat) : Nat × State :=
  if 0x2320 ≤ idx ∧ idx ≤ 0x232F ∧ (s.mast (mastOfObject idx sub)).fenced then (7, s)
  else (0, { s with writes := s.writes ++ [(idx, sub, v)] })

/-- A write to a mast's 2320h object becomes live (R118 to R120); one that asks for a power-up asks for its grant, which the same
edge answers (R39, R42). -/
def State.liveRequest (s : State) (m v : Nat) : State :=
  let s := s.requestMast m v
  if s.asksGrant m then { s with grants := s.grants ++ [m] } else s

/-- An accepted RW write becomes live (R34). -/
def State.liveWrite (s : State) (w : Nat × Nat × Nat) : State :=
  if w.1 = 0x2100 then s.writeCap w.2.2
  else if w.1 = 0x50C0 then s.askAbort (w.2.1 - 1)
  else s.liveRequest (mastOfObject w.1 w.2.1) w.2.2

/-- Every accepted RW write becomes live, in their order. -/
def State.liveWrites (s : State) : State := s.writes.foldl State.liveWrite { s with writes := [] }

/-- A write to 7160h (R468). -/
def State.writeStop (s : State) (p : Nat) : Nat × State :=
  if s.partExists p then (0, s.stopPart p 1) else (7, s)

/-- The effect of a write to an RWP or WO object that has passed its checks: a status and the next state. -/
def State.applyWrite (s : State) (stager idx sub : Nat) (v : Octets) : Nat × State :=
  let n := v.bits
  match idx, sub with
  | 0x1F00, 1 => s.requestCommit stager n
  | 0x1F00, 2 => s.discardStaged stager n
  | 0x1F00, 4 => (0, s.setStager stager { s.stager stager with expect := n })
  | 0x2500, 3 => (0, s.hostReadyWritten n)
  | 0x2600, _ => s.askPackageReset
  | 0x2610, _ => s.askPartReset (sub - 1)
  | 0x2620, _ => (0, s.askDomainReset (sub - 1))
  | 0x2630, _ => (0, s.askPortReset sub)
  | 0x7010, 1 => s.writeImage 0 v
  | 0x7010, 2 => s.writeImage 1 v
  | 0x7010, 4 => s.raiseSvn 0 n
  | 0x7010, 5 => s.raiseSvn 1 n
  | 0x7070, 1 => (0, s.writeNonce stager v)
  | 0x7080, 2 => s.writeToken v
  | 0x7080, 3 => (0, s.relock n)
  | 0x7160, _ => s.writeStop (sub - 1)
  | _, _ => (0, s.setObj idx sub v)

/-- A write of a whole value, checked in the order of R402: the status and the next state. -/
def State.writeObject (s : State) (who : Who) (idx sub : Nat) (v : Octets) : Nat × State :=
  match stagerOf who, s.findObject who idx sub with
  | none, _ => (4, s)
  | some _, (st, none) => (st, s)
  | some i, (_, some r) =>
    if !mayWrite who idx then (4, s)
    else if r.access = 1 then (5, s)
    else if !s.ownerOk who idx sub then (9, s)
    else if !lengthOk r idx sub v then (6, s)
    else if r.access = 3 then s.stageValue i (objKey idx sub) v
    else
      let st := s.valueStatus r idx sub v
      if st ≠ 0 then (st, s)
      else if r.access = 2 then s.acceptWrite idx sub v.bits
      else s.applyWrite i idx sub v

/-! ### Requests (Table 12.2) -/

/-- A reply: its status and the bytes that follow. -/
structure Reply where
  status : Nat
  body   : Octets := ⟨0, 0⟩
deriving DecidableEq, Repr

/-- A number of a Choan field, most significant byte first (R392). -/
def msb (n v : Nat) : Octets := octets (bytesMsb n v)

/-- The body of a READ or READ_SEG reply. -/
def readReply (r : ObjRow) (off n stamp : Nat) (v : Octets) : Reply :=
  let head := [⟨1, r.ty⟩, ⟨2, 0⟩, msb 4 v.len, msb 4 off, msb 8 stamp].foldl Octets.append ⟨0, 0⟩
  ⟨0, Octets.append head (v.slice off n)⟩

/-- READ and READ_SEG (R390, R402, R406). -/
def State.readRequest (s : State) (who : Who) (idx sub off n : Nat) (staged : Bool) : Reply × State :=
  match s.findObject who idx sub with
  | (st, none) => (⟨st, ⟨0, 0⟩⟩, s)
  | (_, some r) =>
    if ownedRead idx && !s.ownerOk who idx sub then (⟨9, ⟨0, 0⟩⟩, s)
    else if 1024 < n then (⟨6, ⟨0, 0⟩⟩, s)
    else
      let ((v, stamp), s) := if staged then s.readStaged who r idx sub else s.readLive who r idx sub
      (readReply r off n stamp v, s)

/-- A plain acknowledgement: status and three reserved bytes. -/
def ack (status : Nat) : Reply := ⟨status, ⟨3, 0⟩⟩

/-- WRITE: a value of at most 1,024 bytes (R401). -/
def State.writeRequest (s : State) (who : Who) (idx sub : Nat) (v : Octets) : Reply × State :=
  if 1024 < v.len then (ack 6, s) else let (st, s) := s.writeObject who idx sub v; (ack st, s)

/-- WRITE_SEG (R401): segments follow one another from offset 0; the value is written with the FIN segment. -/
def State.writeSegment (s : State) (who : Who) (idx sub off : Nat) (data : Octets) (fin : Bool) : Reply × State :=
  match stagerOf who, s.findObject who idx sub with
  | none, _ => (ack 4, s)
  | some _, (st, none) => (ack st, s)
  | some i, (_, some r) =>
    let x := s.stager i
    let k := objKey idx sub
    let before : Option Octets :=
      if off = 0 then some ⟨0, 0⟩
      else match x.partialValue with
        | some (j, o) => if j = k ∧ o.len = off then some o else none
        | none => none
    if !mayWrite who idx then (ack 4, s)
    else if r.access = 1 then (ack 5, s)
    else if !s.ownerOk who idx sub then (ack 9, s)
    else if 1024 < data.len then (ack 6, s)
    else match before with
    | none => (ack 0x0C, s.setStager i { x with partialValue := none })
    | some o =>
      let v := Octets.append o data
      if fin then
        let (st, s) := (s.setStager i { x with partialValue := none }).writeObject who idx sub v
        (ack st, s)
      else (ack 0, s.setStager i { x with partialValue := some (k, v) })

/-- The indices of this package, ascending (R404, R405). -/
def existingIndices : List Nat :=
  allObjects.foldl (fun l r => (List.range (r.hi + 1 - r.lo)).foldl (fun l i => insertSorted (r.lo + i) l) l) []

/-- LIST (R393): the existing indices from `first` upward, up to `count`. -/
def listRequest (first count : Nat) : Reply :=
  if count = 0 ∨ 256 < count then ⟨7, ⟨0, 0⟩⟩
  else
    let is := (existingIndices.filter (first ≤ ·)).take count
    ⟨0, is.foldl (fun o i => Octets.append o (Octets.append (msb 2 i) ⟨2, objTop i⟩)) ⟨0, 0⟩⟩

/-- DESCRIBE (R393): type code, access code, accessor mask, size. -/
def State.describeRequest (s : State) (who : Who) (idx sub : Nat) : Reply × State :=
  match s.findObject who idx sub with
  | (st, none) => (⟨st, ⟨0, 0⟩⟩, s)
  | (_, some r) =>
    if ownedRead idx && !s.ownerOk who idx sub then (⟨9, ⟨0, 0⟩⟩, s)
    else
      let (n, s) := if r.ty = 11 then let ((v, _), s) := s.readLive who r idx sub; (v.len, s) else (r.len, s)
      (⟨0, Octets.append ⟨3, r.ty + r.access * 256 + r.mask * 65536⟩ (msb 4 n)⟩, s)

/-- The number in `n` bytes of a body from `off`, most significant byte first. -/
def bodyNum (o : Octets) (off n : Nat) : Nat := ofBytes (o.slice off n).bytes.reverse

/-- The dictionary requests that all three ways in carry (R390): by message type, flags and body; none for another type or
a body too short for it. -/
def State.dictionary (s : State) (who : Who) (type flags : Nat) (b : Octets) : Option (Reply × State) :=
  let idx := bodyNum b 0 2
  let sub := bodyNum b 2 1
  let staged := bitOf flags 0
  match type with
  | 0x10 => if b.len = 4 then some (s.readRequest who idx sub 0 1024 staged) else none
  | 0x12 => if 4 ≤ b.len then some (s.writeRequest who idx sub (b.slice 4 b.len)) else none
  | 0x14 => if b.len = 10 then some (s.readRequest who idx sub (bodyNum b 4 4) (bodyNum b 8 2) staged) else none
  | 0x16 => if 8 ≤ b.len then some (s.writeSegment who idx sub (bodyNum b 4 4) (b.slice 8 b.len) (bitOf flags 1)) else none
  | 0x18 => if b.len = 4 then some (listRequest idx (bodyNum b 2 2), s) else none
  | 0x1A => if b.len = 4 then some (s.describeRequest who idx sub) else none
  | _ => none

/-- The bytes of a reply. -/
def Reply.bytes (r : Reply) : Octets := Octets.append ⟨1, r.status⟩ r.body

/-! ### Register writes with a command of their own

Each stands for a write that its transport has admitted: an open session of a claimed package, or the host mailbox
(log 37). The status that answers it leaves the package as an output. -/

/-- Closes a session: its place is free and its staging set discarded; the records of its commits go with it. -/
def State.closeSession (s : State) (n : Nat) : State :=
  { s with sessions := FMap.erase s.sessions (n - 1) }.setStager (n - 1) {}

/-- What follows the answer to a write: one to 1020h:02 to 1020h:08 that was done closes every open session (R391). -/
def State.settleAddress (s : State) (idx sub status : Nat) : State :=
  if idx = 0x1020 ∧ 2 ≤ sub ∧ sub ≤ 8 ∧ status = 0 then s.sessions.foldl (fun s e => s.closeSession (e.1 + 1)) s else s

/-- Writes an object for a requester and answers the status. -/
def State.writeAs (s : State) (who : Who) (idx sub : Nat) (v : Octets) : Result :=
  guardEvent (s.pkg != pkgOff) s <|
    let (st, s) := s.writeObject who idx sub v
    .next ((s.emit .status (whoTag who) st ⟨0, 0⟩).settleAddress idx sub st)

/-- A number as the value of a fixed-length object. -/
def State.writeNum (s : State) (who : Who) (idx sub n : Nat) : Result := s.writeAs who idx sub (asObj idx sub n)

/-- COMMIT_REQUEST (R407): a token written to 1F00h:01. -/
def execCommitRequest (who : Who) (token : Nat) (s : State) : Result := s.writeNum who 0x1F00 1 token

/-- STAGING_DISCARD (R411): a write to 1F00h:02. -/
def execStagingDiscard (who : Who) (value : Nat) (s : State) : Result := s.writeNum who 0x1F00 2 value

/-- PLAN_ABORT (R376): a write to 50C0h:k + 1. -/
def execPlanAbort (who : Who) (k value : Nat) (s : State) : Result := s.writeNum who 0x50C0 (k + 1) value

/-- MAST_POWER_REQUEST (R118): a write to 2320h of a mast. -/
def execMastPowerRequest (who : Who) (m value : Nat) (s : State) : Result :=
  s.writeNum who (0x2320 + mastDie m) (mastLocal m + 1) value

/-- POWER_CAP_WRITE (R436): a write to 2100h:01. -/
def execPowerCapWrite (who : Who) (watts : Nat) (s : State) : Result := s.writeNum who 0x2100 1 watts

/-- HOST_READY (R446): a write to 2500h:03. -/
def execHostReady (who : Who) (value : Nat) (s : State) : Result := s.writeNum who 0x2500 3 value

/-- PACKAGE_RESET (R448): a write to 2600h:01. -/
def execPackageReset (who : Who) (value : Nat) (s : State) : Result := s.writeNum who 0x2600 1 value

/-- PARTITION_RESET (R448, R449): a write to 2610h:p + 1. -/
def execPartitionReset (who : Who) (p value : Nat) (s : State) : Result := s.writeNum who 0x2610 (p + 1) value

/-- DOMAIN_RESET (R448, R449): a write to 2620h:d + 1. -/
def execDomainReset (who : Who) (d value : Nat) (s : State) : Result := s.writeNum who 0x2620 (d + 1) value

/-- PORT_RESET (R448, R449): a write to 2630h. -/
def execPortReset (who : Who) (sub value : Nat) (s : State) : Result := s.writeNum who 0x2630 sub value

/-- PARTITION_STOP (R468): a write to 7160h:p + 1. -/
def execPartitionStop (who : Who) (p value : Nat) (s : State) : Result := s.writeNum who 0x7160 (p + 1) value

/-- FIRMWARE_IMAGE_WRITE (R455): a whole image written to 7010h:01 (kind 0) or 7010h:02 (kind 1). -/
def execFirmwareImageWrite (who : Who) (kind : Nat) (image : Octets) (s : State) : Result :=
  guardEvent (decide (kind < 2)) s (s.writeAs who 0x7010 (kind + 1) image)

/-- SVN_RAISE (R456): a write to 7010h:04 or 7010h:05. -/
def execSvnRaise (who : Who) (kind value : Nat) (s : State) : Result :=
  guardEvent (decide (kind < 2)) s (s.writeNum who 0x7010 (kind + 4) value)

/-- ATTESTATION_NONCE (R460): a write to 7070h:01. -/
def execAttestationNonce (who : Who) (nonce : Octets) (s : State) : Result := s.writeAs who 0x7070 1 nonce

/-- DEBUG_TOKEN (R462): a write to 7080h:02. -/
def execDebugToken (who : Who) (token : Octets) (s : State) : Result := s.writeAs who 0x7080 2 token

/-- DEBUG_RELOCK (R462): a write to 7080h:03. -/
def execDebugRelock (who : Who) (value : Nat) (s : State) : Result := s.writeNum who 0x7080 3 value

/-- REGISTER_WRITE (R34, R488): an object with no command of its own; an index below 100h is an offset of the I3C target of
Table 15.6, of which only IBIEN may be written here. -/
def execRegisterWrite (who : Who) (idx sub : Nat) (value : Octets) (s : State) : Result :=
  if idx < 0x100 then
    guardEvent (s.pkg != pkgOff && idx == 0x0C) s (.next { s with ibien := value.bits % 4 })
  else s.writeAs who idx sub value

end Sys2Proof.Machine
end

