-- ==== Sys2Proof/Machine/Choan.lean ====
section
/-! DEFINITION. The Choan responder: HELLO, discovery, sessions, claim, requests within a session, event reads and pushes,
and the pilot firmware's restart (R43, R391 to R397, R423). -/
namespace Sys2Proof.Machine

/-- Whether the Choan responder runs: start-up step 2 has ended, and the pilot ROM is not in recovery (R445, R447). -/
def State.choanUp (s : State) : Bool := s.pkg != pkgOff && 2 ≤ s.val 0x2500 1 && !s.fw.recovery

/-- Whether the package is claimed (R396). -/
def State.claimed (s : State) : Bool := (List.range 8).any fun i => s.val 0x1030 (i + 1) != 0

/-- Whether an identity digest is one of the claiming operators'. -/
def State.claims (s : State) (digest : Nat) : Bool := (List.range 8).any fun i => s.val 0x1030 (i + 1) == digest && digest != 0

/-- The body of HELLO (Table 12.2). -/
def State.helloBody (s : State) : Octets :=
  [s.obj 0x1000 9, s.obj 0x1000 3, msb 8 (s.val 0x1000 7), ⟨1, s.val 0x1000 8⟩, ⟨1, if s.claimed then 1 else 0⟩,
   ⟨1, s.val 0x1010 5⟩, ⟨1, 0⟩, ⟨4, s.coord⟩, msb 2 (s.val 0x1020 2)].foldl Octets.append ⟨0, 0⟩

/-- HELLO (R397): multicast once a second while unclaimed, over IPv6 and, where it is on, IPv4; its SEQ is open (log 1). -/
def execHello (s : State) : Result :=
  guardEvent (s.choanUp && !s.claimed && (s.hellos == 0 || s.hellos + 25000000 ≤ s.tick + 1)) s <|
    let (seq, s) := s.open 32
    let d := choanDatagram 0 0 0 seq s.helloBody ⟨0, 0⟩
    let s := { s with hellos := s.tick + 1 }.emit .notice 0 0 d
    .next (if s.val 0x1020 5 = 0 then s else s.emit .notice 0 1 d)

/-- DISCOVER (R397): answered to its sender. -/
def execDiscover (fromAddr seq : Nat) (s : State) : Result :=
  guardEvent s.choanUp s <| .next (s.emit .reply fromAddr 3 (choanDatagram 3 4 0 seq (Octets.append ⟨4, 0⟩ s.helloBody) ⟨0, 0⟩))

/-! ### Sessions (R394, R395) -/

/-- The session that a number names. -/
def State.session (s : State) (n : Nat) : Option Session := if n = 0 then none else (s.sessions.find? fun e => e.1 == n - 1).map (·.2)

/-- Cuts a reply into datagrams: each begins with the status byte, the signature stands whole in the last, which has FIN
(R392, R393; log 38). -/
def acceptPieces (addr seq status : Nat) (sig : Octets) : Nat → Octets → List Octets
  | 0, _ => []
  | fuel + 1, o =>
    if o.len ≤ 1093 then
      [choanDatagram 5 6 0 seq (Octets.append ⟨1, status⟩ (Octets.append o sig)) ⟨0, 0⟩]
    else
      choanDatagram 5 4 0 seq (Octets.append ⟨1, status⟩ (o.slice 0 1093)) ⟨0, 0⟩ ::
        acceptPieces addr seq status sig fuel (o.slice 1093 o.len)

/-- A SESSION_ACCEPT that opens nothing. -/
def State.refuseSession (s : State) (addr seq status : Nat) : State :=
  s.emit .reply addr 5 (choanDatagram 5 6 0 seq ⟨4, status⟩ ⟨0, 0⟩)

/-- Whether a client's chain is acceptable (R459). -/
def State.clientChain (s : State) (chain : Octets) : Bool :=
  decide (chain.len ≤ 8192) && !s.refusedIdentity (identityOf (Config.chainLeaf chain)) &&
    (if s.anchors.isEmpty then Config.chainSelfSigned chain else s.chainToAnchor chain)

/-- SESSION_INIT (R394, R396). -/
def execSessionInit (fromAddr seq : Nat) (nonce key chain : Octets) (s : State) : Result :=
  guardEvent s.choanUp s <|
  match (List.range 8).find? fun i => (s.session (i + 1)).isNone with
  | none => .next (s.refuseSession fromAddr seq 1)
  | some i =>
    let leaf := Config.chainLeaf chain
    if !s.clientChain chain then .next s
    else if s.claimed && !s.claims (identityOf leaf) then .next (s.refuseSession fromAddr seq 4)
    else
      let (n, s) := s.draw 256
      let (secret, s) := s.draw 448
      let mine : Octets := ⟨56, Config.x448Public secret % 2 ^ 448⟩
      let z := Config.x448Shared secret key.bits % 2 ^ 448
      if z = 0 then .next s
      else
        let all := [nonce, ⟨32, n⟩, key, mine, chain, s.ownChain].foldl Octets.append ⟨0, 0⟩
        let tr := shake256 all 64
        let ks := kmac256 ⟨56, z⟩ tr 64 "ZV-CHOAN"
        let x : Session := { keyIn := ks.slice 0 32, keyOut := ks.slice 32 32, transcript := tr, leaf := leaf,
                             ident := identityOf leaf, address := fromAddr, last := s.tick }
        let s := { s with sessions := FMap.put s.sessions i x }.setStager i {}
        let head := [⟨3, 0⟩, msb 4 (i + 1), ⟨32, n⟩, mine, s.ownChain].foldl Octets.append ⟨0, 0⟩
        .next ((acceptPieces fromAddr seq 0 (ownSignature tr) 12 head).foldl (fun s d => s.emit .reply fromAddr 5 d) s)

/-- A datagram whose TAG fails, or of a session that does not exist: counted, and posted at most once in 25,000 pilot ticks
(R394). -/
def State.badTag (s : State) (address : Nat) : State :=
  let s := s.bump 0x1040 3 1
  s.postLimited 0 msTicks
    { code := 0x1C12, plane := 0, part := partOperator, detail := [(8, address), (4, s.val 0x1040 3)] }

/-- Whether the TAG of a request is right (R394). -/
def tagRight (x : Session) (env : Envelope) (type flags : Nat) (body : Octets) : Bool :=
  (kmac256 x.keyIn (choanHead type flags env.session env.seq body) 8 "ZV-CHOAN").bits == env.tag

/-- Sends a reply of a session and keeps it among the last 64 (R395). -/
def State.sendReply (s : State) (env : Envelope) (type : Nat) (r : Reply) : State :=
  match s.session env.session with
  | none => s
  | some x =>
    let d := choanDatagram (type + 1) 4 env.session env.seq r.bytes x.keyOut
    let y := { x with replies := ((env.seq, d) :: x.replies).take 64, top := max x.top env.seq, seen := true, last := s.tick }
    { s with sessions := FMap.put s.sessions (env.session - 1) y }.emit .reply env.session (type + 1) d

/-- SESSION_CONFIRM (R394): a bad signature ends the exchange with no session. -/
def execSessionConfirm (env : Envelope) (sig : Octets) (s : State) : Result :=
  guardEvent s.choanUp s <|
  match s.session env.session with
  | none => .next (s.badTag 0)
  | some x =>
    if !tagRight x env 6 0 sig then .next (s.badTag x.address)
    else if x.confirmed then
      match x.replies.find? fun e => e.1 == env.seq with
      | some e => .next (s.emit .reply env.session 7 e.2)
      | none => .next s
    else if !Config.ed448Verify x.leaf x.transcript sig.bits then .next (s.closeSession env.session)
    else
      let s := { s with sessions := FMap.put s.sessions (env.session - 1) { x with confirmed := true } }.bump 0x1040 1 1
      .next (s.sendReply env 6 (ack 0))

/-- A request within a session: TAG, sequence window, the store of replies, the limits of an unclaimed package, then the
request itself and, once it is answered, what follows from it (R394 to R396). -/
def State.choan (s : State) (env : Envelope) (type flags : Nat) (body : Octets) (act : State → Session → Reply × State)
    (after : Reply → State → State := fun _ t => t) : Result :=
  guardEvent s.choanUp s <|
  match s.session env.session with
  | none => .next (s.badTag 0)
  | some x =>
    if !x.confirmed || !tagRight x env type flags body then .next (s.badTag x.address)
    else
      let s := { s with sessions := FMap.put s.sessions (env.session - 1) { x with last := s.tick } }
      match x.replies.find? fun e => e.1 == env.seq with
      | some e => .next (s.emit .reply env.session (type + 1) e.2)
      | none =>
        if x.seen ∧ env.seq + 64 ≤ x.top then .next s
        else
          let idx := bodyNum body 0 2
          let free := type == 8 || type == 0x0A || type == 0x18 || type == 0x1A || (type == 0x10 && 0x1000 ≤ idx && idx ≤ 0x10FF)
          let (r, s) := if !s.claimed && !free then (⟨4, ⟨0, 0⟩⟩, s) else act s x
          .next (after r (s.sendReply env type r))

/-- The dictionary requests of a session. A write to 1020h:02 to 1020h:08 closes every session once it is answered (R391). -/
def State.choanDict (s : State) (env : Envelope) (type flags : Nat) (body : Octets) : Result :=
  let who := Who.operator (env.session - 1)
  let writes := type == 0x12 || (type == 0x16 && bitOf flags 1)
  s.choan env type flags body (fun s _ => (s.dictionary who type flags body).getD (⟨4, ⟨0, 0⟩⟩, s))
    fun r t => if writes then t.settleAddress (bodyNum body 0 2) (bodyNum body 2 1) r.status else t

/-- CLAIM (R396). -/
def execClaim (env : Envelope) (s : State) : Result :=
  s.choan env 8 0 ⟨0, 0⟩ fun s x =>
    if s.claimed then (ack 4, s)
    else (ack 0, (s.setVal 0x1030 1 x.ident).post
      { code := 0x1C10, plane := 0, part := partOperator, detail := [(16, x.ident)] })

/-- CLOSE: the session ends once it is answered. -/
def execClose (env : Envelope) (s : State) : Result :=
  s.choan env 0x0A 0 ⟨0, 0⟩ (fun s _ => (ack 0, s)) fun _ t => t.closeSession env.session

/-- The four bytes that open the body of an object request. -/
def objBody (idx sub : Nat) : Octets := Octets.append (msb 2 idx) ⟨2, sub % 256⟩

/-- READ (R393, R402). -/
def execRead (env : Envelope) (idx sub : Nat) (staged : Bool) (s : State) : Result :=
  s.choanDict env 0x10 (if staged then 1 else 0) (objBody idx sub)

/-- WRITE (R393, R402). -/
def execWrite (env : Envelope) (idx sub : Nat) (value : Octets) (s : State) : Result :=
  s.choanDict env 0x12 0 (Octets.append (objBody idx sub) value)

/-- READ_SEG (R393). -/
def execReadSeg (env : Envelope) (idx sub offset length : Nat) (staged : Bool) (s : State) : Result :=
  s.choanDict env 0x14 (if staged then 1 else 0) (Octets.append (objBody idx sub) (Octets.append (msb 4 offset) (msb 2 length)))

/-- WRITE_SEG (R393, R401). -/
def execWriteSeg (env : Envelope) (idx sub offset : Nat) (data : Octets) (fin : Bool) (s : State) : Result :=
  s.choanDict env 0x16 (if fin then 2 else 0) (Octets.append (objBody idx sub) (Octets.append (msb 4 offset) data))

/-- LIST (R393). -/
def execList (env : Envelope) (first count : Nat) (s : State) : Result :=
  s.choanDict env 0x18 0 (Octets.append (msb 2 first) (msb 2 count))

/-- DESCRIBE (R393). -/
def execDescribe (env : Envelope) (idx sub : Nat) (s : State) : Result := s.choanDict env 0x1A 0 (objBody idx sub)

/-! ### Event rings over Choan (R422, R423) -/

/-- Moves the read position of a ring forward to `v`, a value modulo 2^32; a value behind it or beyond WRIDX is ignored
(R422). -/
def Ring.advance (g : Ring) (v : Nat) : Ring :=
  let d := signedOf 32 (v + 2 ^ 32 - g.read % 2 ^ 32)
  let left := signedOf 32 (g.posted + 2 ^ 32 - v % 2 ^ 32)
  if 0 ≤ d ∧ 0 ≤ left then { g with read := g.read + d.toNat, recs := g.recs.drop d.toNat } else g

/-- The records of a ring from an RSEQ on, up to `n`. -/
def Ring.from (g : Ring) (rseq n : Nat) : List Rec :=
  (g.recs.filter fun r => 0 ≤ signedOf 32 (r.rseq + 2 ^ 32 - rseq % 2 ^ 32)).take n

/-- EVENT_READ (R423): up to 16 records of the operator ring. -/
def execEventRead (env : Envelope) (rseq count : Nat) (s : State) : Result :=
  s.choan env 0x20 0 (Octets.append (msb 4 rseq) ⟨1, count % 256⟩) fun s _ =>
    let n := count % 256
    if n = 0 ∨ 16 < n then (⟨7, ⟨0, 0⟩⟩, s)
    else
      let g := s.ring 0
      let rs := g.from rseq n
      (⟨0, rs.foldl (fun o r => Octets.append o (recBytes r)) (Octets.append ⟨3, rs.length⟩ (msb 4 g.read))⟩, s)

/-- EVENT_ACK (R423): clears records through an RSEQ; only a claiming identity may. -/
def execEventAck (env : Envelope) (rseq : Nat) (s : State) : Result :=
  s.choan env 0x22 0 (msb 4 rseq) fun s x =>
    if !s.claims x.ident then (ack 4, s) else (ack 0, s.setRing 0 ((s.ring 0).advance ((rseq + 1) % 2 ^ 32)))

/-- SUBSCRIBE (R423). -/
def execSubscribe (env : Envelope) (on : Bool) (s : State) : Result :=
  s.choan env 0x24 0 ⟨1, if on then 1 else 0⟩ fun s x =>
    let s := s.pushNew
    let y := { x with subscribed := on, last := s.tick }
    (ack 0, { s with sessions := FMap.put s.sessions (env.session - 1) y })

/-- SESSION_TIMEOUT (R395): no valid datagram for 60 s. -/
def execSessionTimeout (n : Nat) (s : State) : Result :=
  match s.session n with
  | none => .next s
  | some x => guardEvent (x.last + 1500000000 ≤ s.tick) s <| .next (s.closeSession n)

end Sys2Proof.Machine
end

