-- ==== Sys2Proof/Machine/Remote.lean ====
section
/-! DEFINITION. Remote memory access: requests of the ports, their order and their answers, and the two events of memory on
which an answer can wait (R336, R348, R349, R354; R203, R209, R212). -/
namespace Sys2Proof.Machine

/-- Whether a request is formed as R354 asks. -/
def remoteFits (m : RemoteMsg) : Bool :=
  m.addr % 8 == 0 && 8 ≤ m.len && m.len ≤ 4096 && m.len % 8 == 0 && m.addr / 4096 == (m.addr + (m.len - 1)) / 4096

/-- The partitions that the entry latched at a port names (Table 10.8). -/
def State.portParts (s : State) (p : Nat) : List Nat := (List.range 16).filter (permPart (s.port p).peer.entry)

/-- The partition whose PEER window admits a request of a port (R336). -/
def State.remotePart (s : State) (p : Nat) (m : RemoteMsg) (right : Nat) : Option Nat :=
  (s.portParts p).find? fun q => (s.part q).st != .stopped && s.partExists q && m.addr + m.len ≤ s.memTop &&
    (s.findWindow q m.addr m.len [rightPeer, right]).isSome

/-- A request that no window admits: blocked under R188 (R336). -/
def State.remoteBlocked (s : State) (p : Nat) (m : RemoteMsg) : State := s.blockedFor (.port p 0) (s.portParts p) m.addr m.len

/-- Sends a VC 14 response: by the bowsprit to its partner, else to the requester (R349, R354). -/
def State.respond (s : State) (p kind status : Nat) (m : RemoteMsg) (body : Octets) : State :=
  let msg := message kind 0 status m.tid body
  if p = 6 then s.sendPort 6 14 msg else s.sendTo 14 (coordOfField m.src) 0 msg

/-! ### Order and answers (R354) -/

/-- Whether two requests come from one source through one port; the bowsprit has one partner (R349). -/
def Remote.sameSource (a b : Remote) : Bool := a.port == b.port && (a.port == 6 || a.msg.src == b.msg.src)

/-- Whether two requests touch one 256-byte granule. -/
def Remote.sameGranule (a b : Remote) : Bool :=
  a.msg.addr / 256 ≤ (b.msg.addr + (b.msg.len - 1)) / 256 && b.msg.addr / 256 ≤ (a.msg.addr + (a.msg.len - 1)) / 256

/-- Whether a request has to wait for one of its source that came earlier: for one to the same granule, and with ORD for
every one. -/
def Remote.after (q earlier : Remote) : Bool := q.sameSource earlier && (q.msg.ord || q.sameGranule earlier)

/-- The first request that has not begun and waits for none before it. -/
def nextRemote : List Remote → List Remote → Option Remote
  | _, [] => none
  | before, q :: r => if !q.under && !before.any q.after then some q else nextRemote (before ++ [q]) r

/-- Changes one request. -/
def State.setRemote (s : State) (q : Remote) : State := { s with remote := s.remote.map fun r => if r.id = q.id then q else r }

/-- A request begins: its accesses are sent. -/
def State.beginRemote (s : State) (q : Remote) : State :=
  let who := Requester.port q.port q.id
  if q.kind = 1 then
    let (ans, s) := s.readMany who (some q.part) q.msg.addr q.msg.len
    s.setRemote { q with under := true, val := ans.val, err := ans.err }
  else
    let (bad, s) := s.writeMany who (some q.part) q.msg.addr q.msg.len q.msg.data
    s.setRemote { q with under := true, err := bad }

/-- A request is over: it takes its place from the list and is answered, a posted write not (R354). A read that found an
uncorrectable error on its way says so (R199). -/
def State.endRemote (s : State) (q : Remote) : State :=
  let s := { s with remote := s.remote.filter fun r => r.id != q.id }
  if q.kind = 0 then s
  else if q.kind = 1 then
    if q.err || s.badRange q.msg.addr q.msg.len then s.respond q.port 0x0E02 1 q.msg ⟨0, 0⟩
    else s.respond q.port 0x0E02 0 q.msg ⟨q.msg.len, q.val⟩
  else s.respond q.port 0x0E04 (if q.err then 1 else 0) q.msg ⟨0, 0⟩

/-- Begins and ends requests as far as they go, at most `fuel` of either. -/
def State.runRemotes (s : State) : Nat → State
  | 0 => s
  | fuel + 1 =>
    match s.remote.find? fun q => q.under && !s.awaits (portWho q.port q.id) with
    | some q => (s.endRemote q).runRemotes fuel
    | none => match nextRemote [] s.remote with
      | some q => (s.beginRemote q).runRemotes fuel
      | none => s

/-- Serves the ports' requests. -/
def State.serveRemotes (s : State) : State := s.runRemotes (2 * s.remote.length)

/-- A request joins those of its port. -/
def State.addRemote (s : State) (p kind part : Nat) (m : RemoteMsg) : State :=
  let q : Remote := { id := s.remoteNum, port := p, kind := kind, msg := m, part := part }
  let t : State := { s with remote := s.remote ++ [q], remoteNum := s.remoteNum + 1 }
  t.serveRemotes

/-! ### The messages (R348, R349, R354) -/

/-- Goes on with a message of a port that carries traffic; one on a channel that the entry does not permit is policed
(R336). -/
def onMessage (p vc : Nat) (s : State) (k : Result) : Result :=
  onPort p s <|
    guardEvent (s.receives p) s <|
      if !permVc (s.port p).peer.entry vc then .next (s.police p policedVc) else k

/-- POSTED_WRITE (R349, R354): from the bowsprit alone, on VC 10 to 13; one that fails its checks is policed. -/
def execPostedWrite (p : Nat) (m : RemoteMsg) (s : State) : Result :=
  onMessage p m.vc s <|
    if p ≠ 6 ∨ m.vc < 10 ∨ 13 < m.vc ∨ !remoteFits m then .next (s.police p policedKind)
    else match s.remotePart p m rightWr with
      | none => .next ((s.remoteBlocked p m).police p policedWindow)
      | some q => .next (s.addRemote p 0 q m)

/-- READ_REQ (R354): answered with the data, or with status 1 where blocked or uncorrectable. -/
def execReadReq (p : Nat) (m : RemoteMsg) (s : State) : Result :=
  onMessage p 14 s <|
    if !remoteFits m then .next (s.police p policedKind)
    else match s.remotePart p m rightRd with
      | none => .next ((s.remoteBlocked p m).respond p 0x0E02 1 m ⟨0, 0⟩)
      | some q => .next (s.addRemote p 1 q m)

/-- WRITE_REQ (R354): applied and acknowledged. -/
def execWriteReq (p : Nat) (m : RemoteMsg) (s : State) : Result :=
  onMessage p 14 s <|
    if !remoteFits m then .next (s.police p policedKind)
    else match s.remotePart p m rightWr with
      | none => .next ((s.remoteBlocked p m).respond p 0x0E04 1 m ⟨0, 0⟩)
      | some q => .next (s.addRemote p 2 q m)

/-- READ_RESP (R354): the requester's access completes with the data and its status. -/
def execReadResp (p : Nat) (m : RemoteMsg) (s : State) : Result :=
  onMessage p 14 s <| .next (s.emit .coreFault m.tid m.status ⟨m.len, m.data⟩)

/-- WRITE_ACK (R354): the requester's access completes with its status. -/
def execWriteAck (p : Nat) (m : RemoteMsg) (s : State) : Result :=
  onMessage p 14 s <| .next (s.emit .coreFault m.tid m.status ⟨0, 0⟩)

/-! ### Events of memory -/

/-- FILL_ARRIVAL (R203, R206): the transaction in progress at the line's home ends with its data at the cache that asked, once
its memory requests and the recalls it waits for are over; the ports' requests that waited go on. -/
def execFillArrival (g l : Nat) (s : State) : Result :=
  match (s.dirEntry l).busy with
  | none => .next s
  | some q => guardEvent (q.agent == g && s.fillReady l q) s <| .next (s.fill l q).serveRemotes

/-- MEM_ACCESS_COMPLETE (R198, R209, R212): the access that the channel's scheduler picks ends, with a number of symbols in
error among the 72 of a half that is read. While a domain reset of its die runs, its requests wait (R449). -/
def execMemAccessComplete (c wrong : Nat) (s : State) : Result :=
  match s.nextAccess c with
  | none => .next s
  | some a => guardEvent (s.val 0x2410 (c / 128 + 1) != 5) s <| .next (s.accessDone c a wrong).serveRemotes

end Sys2Proof.Machine
end

