-- ==== Sys2Proof/Machine/Lamplighter.lean ====
section
/-! DEFINITION. What the lamplighter cores and the peers reach: memory under the cluster's access table, the host mailbox,
the host rings, dictionary requests from partners; and the pilot firmware's restart (R33, R43, R398, R399, R422, R464). -/
namespace Sys2Proof.Machine

/-! ### Accesses that are blocked (R464) -/

/-- Results that a core sees: 0 a load's data, 1 an access fault, 2 an uncorrectable data error. -/
def coreData : Nat := 0
def coreBlocked : Nat := 1
def coreError : Nat := 2

/-- The base die of a core's cluster. -/
def coreDie (core : Nat) : Nat := if core < 8 then 0 else 15

/-- The partitions that a context owns; PART FEh where it owns none. -/
def State.ctxParts (s : State) (c : Nat) : List Nat :=
  let ps := (List.range 16).filter (ctxOwns (s.context c))
  if ps.isEmpty then [partOperator] else ps

/-- An access outside the table: an access fault, counted, and posted at most once per core in 25,000 pilot ticks, once for
each partition that the context owns. -/
def State.blockCore (s : State) (core c a : Nat) : State :=
  let s := (s.bump (0x3200 + coreDie core) 6 1).emit .coreFault core coreBlocked ⟨8, a % 2 ^ 64⟩
  let k := 0x3040 * 2 ^ 40 + 16384 + core
  let last := FMap.get s.limits k 0
  if last = 0 ∨ last + msTicks ≤ s.tick + 1 then
    (s.ctxParts c).foldl (fun s p => s.post
      { code := 0x3040, plane := 1, part := p, kind := 1, num := core, detail := [(2, core), (8, a), (1, p)] })
      { s with limits := FMap.put s.limits k (s.tick + 1) }
  else s

/-- Goes on as host context of a core; a core in no context is held in reset (R463). -/
def onCore (core : Nat) (s : State) (k : Nat → Result) : Result :=
  guardEvent (decide (core < 16) && s.pkg != pkgOff && s.pkg != pkgShutdown) s <|
    match s.contextOfCore core with
    | none => .next s
    | some c => k c

/-! ### The host mailbox (R33, R398) -/

def mailBase : Nat := 0x20000000000
def mailAlloc : Nat := 0x20000020000
def mailSubmit : Nat := 0x20000020008
def mailFree : Nat := 0x20000020010

/-- The context that holds a slot. -/
def State.mailOwner (s : State) (k : Nat) : Option Nat := (s.mailSlots.find? fun e => e.1 == k).map (·.2.ctx)

/-- A read of ALLOC: the lowest free slot, now held; FFFF_FFFFh where all 64 are. -/
def State.allocMail (s : State) (core c : Nat) : State :=
  match (List.range 64).find? fun k => (s.mailOwner k).isNone with
  | none => s.emit .coreFault core coreData ⟨8, 0xFFFFFFFF⟩
  | some k => { s with mailSlots := FMap.put s.mailSlots k { ctx := c } }.emit .coreFault core coreData ⟨8, k⟩

/-- A datagram as it lies in memory or in a message: type, flags, body; none where it is malformed (R393). -/
def datagram (o : Octets) : Option (Nat × Nat × Octets) :=
  let n := bodyNum o 6 2
  let type := bodyNum o 3 1
  let flags := bodyNum o 4 2
  if o.len < 16 + n ∨ 1208 < n ∨ bodyNum o 0 2 ≠ 0x4348 ∨ bodyNum o 2 1 ≠ 1 then none
  else if !([0x02, 0x04, 0x06, 0x08, 0x0A, 0x10, 0x12, 0x14, 0x16, 0x18, 0x1A, 0x20, 0x22, 0x24].contains type) then none
  else some (type, flags, o.slice 16 n)

/-- Answers a request without a session: the reply datagram; none for one that is dropped and counted (R390, R393). -/
def State.serve (s : State) (who : Who) (allowed : List Nat) (o : Octets) : Option Octets × State :=
  match datagram o with
  | none => (none, s.bump 0x1040 2 1)
  | some (type, flags, body) =>
    let reply := fun (r : Reply) => choanHead (type + 1) 4 0 0 r.bytes
    if !allowed.contains type then (some (reply ⟨4, ⟨0, 0⟩⟩), s)
    else match s.dictionary who type flags body with
      | none => (none, s.bump 0x1040 2 1)
      | some (r, s) => (some (reply r), s)

/-- The 2,032 bytes of a slot from its byte 16. -/
def State.mailRequest (s : State) (k : Nat) : Octets := ⟨2032, FMap.readLE s.mailbox (2048 * k + 16) 2032⟩

/-- Writes a reply into a slot, and then 2 into its STATE word. -/
def State.mailReply (s : State) (k : Nat) (d : Octets) : State :=
  { s with mailbox := FMap.writeLE (FMap.writeLE s.mailbox (2048 * k + 16) d.len d.bits) (2048 * k) 8 2 }

/-- The request types of the host (R390). -/
def hostTypes : List Nat := [0x10, 0x12, 0x14, 0x16, 0x18, 0x1A]

/-- A slot number written to SUBMIT; the pilot firmware answers while it runs. -/
def State.submitMail (s : State) (core c k : Nat) : State :=
  match s.mailOwner k with
  | none => s
  | some o =>
    if o ≠ c then s.blockCore core c mailSubmit
    else if !s.choanUp then s
    else
      match s.serve (.host c) hostTypes (s.mailRequest k) with
      | (some d, t) => t.mailReply k d
      | (none, t) => t

/-- A slot number written to FREE. -/
def State.freeMail (s : State) (core c k : Nat) : State :=
  match s.mailOwner k with
  | none => s
  | some o => if o ≠ c then s.blockCore core c mailFree else { s with mailSlots := FMap.erase s.mailSlots k }

/-- MAILBOX_ALLOC (R398). -/
def execMailboxAlloc (core : Nat) (s : State) : Result := onCore core s fun c => .next (s.allocMail core c)

/-- MAILBOX_SUBMIT (R398). -/
def execMailboxSubmit (core slot : Nat) (s : State) : Result :=
  onCore core s fun c => .next (s.submitMail core c slot)

/-- MAILBOX_FREE (R398). -/
def execMailboxFree (core slot : Nat) (s : State) : Result :=
  onCore core s fun c => .next (s.freeMail core c slot)

/-! ### The peer mailbox (R33, R390, R399) -/

/-- A DICT_REPLY with the TID of its request: by the bowsprit to its partner, else to the requester (R349, R353, R399). -/
def State.replyPeer (s : State) (q : PeerRequest) (status : Nat) (d : Octets) : State :=
  let msg := message 0x0006 0 status q.tid d
  if q.port = 6 then s.sendPort 6 0 msg else s.sendTo 0 (coordOfField q.src) 0 msg

/-- Answers a request with the busy status (R33). -/
def State.busyPeer (s : State) (q : PeerRequest) : State := s.replyPeer q 3 (choanHead (bodyNum q.dg 3 1 + 1) 4 0 0 ⟨1, 1⟩)

/-- DICT_REQUEST (R33, R399): a partner's request on VC 0 enters the peer mailbox, or is answered busy where it is full. -/
def execDictRequest (p src tid : Nat) (dg : Octets) (s : State) : Result :=
  onMessage p 0 s <|
    let q : PeerRequest := { port := p, src := src, tid := tid, dg := dg }
    .next (if 64 ≤ s.peerMail.length then s.busyPeer q else { s with peerMail := s.peerMail ++ [q] })

/-- The types that a partner may ask for: none unless its entry has DICT (R390). -/
def State.peerTypes (s : State) (p : Nat) : List Nat :=
  if permDict (s.port p).peer.entry then [0x10, 0x14, 0x18, 0x1A] else []

/-- Serves one request of the peer mailbox. -/
def State.servePeer (s : State) (q : PeerRequest) : State :=
  match s.serve (.peer q.port) (s.peerTypes q.port) q.dg with
  | (some d, t) => t.replyPeer q 0 d
  | (none, t) => t

/-- The pilot firmware, while it runs, empties the peer mailbox. -/
def State.servePeers (s : State) : State :=
  if s.choanUp then s.peerMail.foldl State.servePeer { s with peerMail := [] } else s

/-! ### Host rings (R422) -/

/-- A value written to RDIDX of host ring `p`. -/
def State.writeRdidx (s : State) (p v : Nat) : State := s.setRing (p + 1) ((s.ring (p + 1)).advance (v % 2 ^ 32))

/-- RDIDX_WRITE (R422): by a core whose context owns the partition of the ring; any other is blocked. -/
def execRdidxWrite (core ring value : Nat) (s : State) : Result :=
  guardEvent (decide (ring < 16)) s <| onCore core s fun c =>
    if ctxOwns (s.context c) ring then .next (s.writeRdidx ring value)
    else .next (s.blockCore core c (0x20000080008 + 0x10 * ring))

/-- The bytes of record place `n` of host ring `p`; the place of a cleared record holds an open value (log 1). -/
def State.ringPlace (s : State) (p n : Nat) : Nat × State :=
  match (s.ring (p + 1)).recs.find? fun r => r.rseq % 4096 == n with
  | some r => ((recBytes r).bits, s)
  | none => s.open 512

/-! ### Lamplighter accesses (R464) -/

/-- The window of a partition that the context owns, or its slice, that admits an access. -/
def State.coreAdmits (s : State) (c a n : Nat) (store : Bool) : Bool :=
  let x := s.context c
  let base := field x 83 74 * 2 ^ 30
  let len := field x 73 64 * 2 ^ 30
  (base ≤ a && a + n ≤ base + len) ||
    (a + n ≤ s.memTop && (List.range 16).any fun p => ctxOwns x p && s.partExists p &&
      (s.findWindow p a n [if store then rightWr else rightRd]).isSome)

/-- The cluster cache through which a core reaches memory (R32). -/
def coreAgent (core : Nat) : Nat := if core < 8 then 16 else 17

/-- A load ends: with its data, or with an uncorrectable data error. -/
def State.endLoad (s : State) (x : CoreLoad) : State :=
  if s.badRange x.addr x.len then
    let (v, s) := s.open (8 * x.len)
    s.emit .coreFault x.core coreError ⟨x.len, v⟩
  else s.emit .coreFault x.core coreData ⟨x.len, x.val⟩

/-- Ends the loads whose cores wait for no line any more. -/
def State.serveCores (s : State) : State :=
  (s.coreLoads.filter fun x => !s.awaits (coreWho x.core)).foldl State.endLoad
    { s with coreLoads := s.coreLoads.filter fun x => s.awaits (coreWho x.core) }

/-- An access to memory that the table admits, through the cluster cache and the homes (R20, R32). On a fenced die pair the
carve-out is an access fault, other memory an uncorrectable data error, and a store changes nothing (R472). -/
def State.coreMemory (s : State) (core a n data : Nat) (store : Bool) : State :=
  if s.homeFenced a then
    if a < s.carve * 2 ^ 30 then s.emit .coreFault core coreBlocked ⟨8, a⟩
    else if store then s.emit .coreFault core coreError ⟨8, a⟩
    else s.endLoad { core := core, addr := a, len := n, val := 0 }
  else
    let s := s.demand (coreAgent core) 0 (coreWho core) a n store
    if store then s.store a n data
    else
      let x : CoreLoad := { core := core, addr := a, len := n, val := s.load a n }
      if s.awaits (coreWho core) then { s with coreLoads := s.coreLoads ++ [x] } else s.endLoad x

/-- An access to control space: mailbox slots, its three registers, ring registers, ring records. -/
def State.coreControl (s : State) (core c a n data : Nat) (store : Bool) : State :=
  let off := a - mailBase
  let give := fun (v : Nat) (s : State) => s.emit .coreFault core coreData ⟨n, v % 2 ^ (8 * n)⟩
  if off + n ≤ 0x20000 then
    if off / 2048 ≠ (off + n - 1) / 2048 ∨ s.mailOwner (off / 2048) ≠ some c then s.blockCore core c a
    else if store then { s with mailbox := FMap.writeLE s.mailbox off n data }
    else give (FMap.readLE s.mailbox off n) s
  else if a = mailAlloc ∧ !store then s.allocMail core c
  else if a = mailSubmit ∧ store then s.submitMail core c (data % 2 ^ (8 * n))
  else if a = mailFree ∧ store then s.freeMail core c (data % 2 ^ (8 * n))
  else if 0x80000 ≤ off ∧ off + n ≤ 0x80100 then
    let p := (off - 0x80000) / 16
    let g := s.ring (p + 1)
    if !ctxOwns (s.context c) p || (off % 16 + n > 16) then s.blockCore core c a
    else if store then (if off % 16 = 8 then s.writeRdidx p (data % 2 ^ (8 * n)) else s)
    else give ((g.posted % 2 ^ 32 + g.read % 2 ^ 32 * 2 ^ 64) >>> (8 * (off % 16))) s
  else if 0x100000 ≤ off ∧ off + n ≤ 0x100000 + 16 * 0x40000 ∧ !store ∧ off % 64 + n ≤ 64 then
    let p := (off - 0x100000) / 0x40000
    if !ctxOwns (s.context c) p then s.blockCore core c a
    else
      let (v, s) := s.ringPlace p ((off - 0x100000) % 0x40000 / 64)
      give (v >>> (8 * (off % 64))) s
  else s.blockCore core c a

/-- LAMPLIGHTER_ACCESS (R464): a load or store of up to 64 bytes within one 128-byte line. -/
def execLamplighterAccess (core : Nat) (store : Bool) (addr len data : Nat) (s : State) : Result :=
  guardEvent (decide (0 < len ∧ len ≤ 64 ∧ addr / 128 = (addr + len - 1) / 128)) s <| onCore core s fun c =>
    if mailBase ≤ addr then .next (s.coreControl core c addr len data store)
    else if s.coreAdmits c addr len store then .next (s.coreMemory core addr len data store)
    else .next (s.blockCore core c addr)

/-! ### The pilot firmware restarts (R43) -/

/-- Every held slot is answered BUSY and freed; every request of the peer mailbox is answered busy. -/
def State.emptyMail (s : State) : State :=
  let s := s.mailSlots.foldl (fun s e =>
    s.mailReply e.1 (choanHead (bodyNum (s.mailRequest e.1) 3 1 + 1) 4 0 0 ⟨1, 1⟩)) s
  s.peerMail.foldl State.busyPeer { s with mailSlots := [], peerMail := [] }

/-- The commit in checks is refused with RESTART. -/
def State.restartCommit (s : State) : State :=
  match s.commits.find? fun q => !q.passed with
  | none => s
  | some q => s.refuseCommit q { code := 7, key := 0 }

/-- PILOT_RESTARTED (R43): the firmware has not serviced its watchdog for 25,000 pilot ticks. The ROM verifies the banks again; a
bank marked preferred since runs now (R455). -/
def execPilotRestarted (s : State) : Result :=
  guardEvent (s.choanUp && s.fw.serviced + msTicks ≤ s.tick) s <|
    let s := s.restartCommit.emptyMail
    match s.bankToRun 0 with
    | none => .next { s with fw := { s.fw with recovery := true } }
    | some b => .next (((s.runPilot b).reportBank 0).postPilot 0x2A10 [])

end Sys2Proof.Machine
end

