-- ==== Sys2Proof/Machine/Clock.lean ====
section
/-! DEFINITION. The pilot clock: what one tick without a command does (R34, R37 to R39, R42, R439, R440, R446). -/
namespace Sys2Proof.Machine

/-- The ceilings below 64 are counted in ticks, in 2100h:03 and 2200h:04 (R439, R440). -/
def State.countThrottled (s : State) : State :=
  let capped : Bool := s.power.cap < 64
  let hot : Bool := s.val 0x2200 5 < 64
  let s := if capped then s.bump 0x2100 3 1 else s
  if hot then s.bump 0x2200 4 1 else s

/-- Answers the power-up grants asked for, each under the settings as they stand (R39, R42). -/
def State.answerGrants (s : State) : State := s.grants.foldl State.grantMast { s with grants := [] }

/-- What the meeting points do on one pilot-clock edge (R42): the commit flip, the RW writes with it (R34, R414), the entry into
Ready (R446), the grants. Protective revocations act as they come, before it; each event is posted with what it records. -/
def State.pilotEdge (s : State) : State := s.flipWaiting.liveWrites.tryReady.answerGrants

/-- The management plane's work in one tick: the peer mailbox, the answers that waited for memory, the pushes of the records
posted (R33, R423). -/
def State.pilotWork (s : State) : State := s.servePeers.serveRemotes.serveCores.resumeShards.pushNew

/-- One pilot tick passes (log 5): the units that are due post their snapshots (R38), the tick counter advances, the edge takes
effect, and the firmware works. An unpowered package has no tick. -/
def State.idleTick (s : State) : State :=
  if s.pkg = pkgOff then s else
  let s := s.settleSnapshots
  let s : State := { s with tick := s.tick + 1 }
  s.countThrottled.pilotEdge.pilotWork

end Sys2Proof.Machine
end

