-- ==== Sys2Proof/Machine/Dispatch.lean ====
section
/-! DEFINITION. The meaning of each command: one arm per constructor of `Instr`, each one call of its own meaning. -/
namespace Sys2Proof.Machine

/-- The effect of a command on everything but the queue. -/
def exec (i : Instr) (s : State) : Host.Outcome State Fault Refusal :=
  match i with
  | .nop m t => Sys2Proof.Machine.execNop m t s
  | .add m t => Sys2Proof.Machine.execAdd m t s
  | .sub m t => Sys2Proof.Machine.execSub m t s
  | .and m t => Sys2Proof.Machine.execAnd m t s
  | .or m t => Sys2Proof.Machine.execOr m t s
  | .xor m t => Sys2Proof.Machine.execXor m t s
  | .shl m t => Sys2Proof.Machine.execShl m t s
  | .shr m t => Sys2Proof.Machine.execShr m t s
  | .sar m t => Sys2Proof.Machine.execSar m t s
  | .mul m t => Sys2Proof.Machine.execMul m t s
  | .slt m t => Sys2Proof.Machine.execSlt m t s
  | .sltu m t => Sys2Proof.Machine.execSltu m t s
  | .seq m t => Sys2Proof.Machine.execSeq m t s
  | .min m t => Sys2Proof.Machine.execMin m t s
  | .max m t => Sys2Proof.Machine.execMax m t s
  | .lds m t => Sys2Proof.Machine.execLds m t s
  | .sts m t => Sys2Proof.Machine.execSts m t s
  | .ldm m t => Sys2Proof.Machine.execLdm m t s
  | .stm m t => Sys2Proof.Machine.execStm m t s
  | .amadd m t => Sys2Proof.Machine.execAmadd m t s
  | .amswap m t => Sys2Proof.Machine.execAmswap m t s
  | .br m t => Sys2Proof.Machine.execBr m t s
  | .bz m t => Sys2Proof.Machine.execBz m t s
  | .bnz m t => Sys2Proof.Machine.execBnz m t s
  | .jal m t => Sys2Proof.Machine.execJal m t s
  | .post m t => Sys2Proof.Machine.execPost m t s
  | .waitc m t => Sys2Proof.Machine.execWaitc m t s
  | .watch m t => Sys2Proof.Machine.execWatch m t s
  | .fetchw m t => Sys2Proof.Machine.execFetchw m t s
  | .cinc m t => Sys2Proof.Machine.execCinc m t s
  | .cclr m t => Sys2Proof.Machine.execCclr m t s
  | .start m t => Sys2Proof.Machine.execStart m t s
  | .halt m t => Sys2Proof.Machine.execHalt m t s
  | .rdsys m t => Sys2Proof.Machine.execRdsys m t s
  | .mastThreadFault m t => Sys2Proof.Machine.execMastThreadFault m t s
  | .memoryResultReturn m t => Sys2Proof.Machine.execMemoryResultReturn m t s
  | .watchChange m t => Sys2Proof.Machine.execWatchChange m t s
  | .watchTimeout m t => Sys2Proof.Machine.execWatchTimeout m t s
  | .watchEntryFree m t => Sys2Proof.Machine.execWatchEntryFree m t s
  | .postSlotFree m t => Sys2Proof.Machine.execPostSlotFree m t s
  | .copyIn m k => Sys2Proof.Machine.execCopyIn m k s
  | .copyOut m k => Sys2Proof.Machine.execCopyOut m k s
  | .mesh m k => Sys2Proof.Machine.execMesh m k s
  | .localCopy m k => Sys2Proof.Machine.execLocalCopy m k s
  | .addOut m k => Sys2Proof.Machine.execAddOut m k s
  | .halyardComplete m k => Sys2Proof.Machine.execHalyardComplete m k s
  | .meshArrival m k => Sys2Proof.Machine.execMeshArrival m k s
  | .meshAck m k => Sys2Proof.Machine.execMeshAck m k s
  | .matmul m => Sys2Proof.Machine.execMatmul m s
  | .aclr m => Sys2Proof.Machine.execAclr m s
  | .adapt m => Sys2Proof.Machine.execAdapt m s
  | .send m => Sys2Proof.Machine.execSend m s
  | .mainsailComplete m => Sys2Proof.Machine.execMainsailComplete m s
  | .copy m => Sys2Proof.Machine.execCopy m s
  | .jibAdd m => Sys2Proof.Machine.execJibAdd m s
  | .jibSub m => Sys2Proof.Machine.execJibSub m s
  | .jibMul m => Sys2Proof.Machine.execJibMul m s
  | .fma m => Sys2Proof.Machine.execFma m s
  | .jibMin m => Sys2Proof.Machine.execJibMin m s
  | .jibMax m => Sys2Proof.Machine.execJibMax m s
  | .mul3 m => Sys2Proof.Machine.execMul3 m s
  | .exp m => Sys2Proof.Machine.execExp m s
  | .log m => Sys2Proof.Machine.execLog m s
  | .recip m => Sys2Proof.Machine.execRecip m s
  | .rsqrt m => Sys2Proof.Machine.execRsqrt m s
  | .sqrt m => Sys2Proof.Machine.execSqrt m s
  | .reluGrad m => Sys2Proof.Machine.execReluGrad m s
  | .geluGrad m => Sys2Proof.Machine.execGeluGrad m s
  | .siluGrad m => Sys2Proof.Machine.execSiluGrad m s
  | .sigmoidGrad m => Sys2Proof.Machine.execSigmoidGrad m s
  | .rsum m => Sys2Proof.Machine.execRsum m s
  | .rsumsq m => Sys2Proof.Machine.execRsumsq m s
  | .rmax m => Sys2Proof.Machine.execRmax m s
  | .rmaxabs m => Sys2Proof.Machine.execRmaxabs m s
  | .rmstat m => Sys2Proof.Machine.execRmstat m s
  | .rmsstat m => Sys2Proof.Machine.execRmsstat m s
  | .norm m => Sys2Proof.Machine.execNorm m s
  | .skip m => Sys2Proof.Machine.execSkip m s
  | .jibComplete m => Sys2Proof.Machine.execJibComplete m s
  | .launchCopyDone m => Sys2Proof.Machine.execLaunchCopyDone m s
  | .shutterEntry m => Sys2Proof.Machine.execShutterEntry m s
  | .shutteredWake m => Sys2Proof.Machine.execShutteredWake m s
  | .mastPowerRequest who m value => Sys2Proof.Machine.execMastPowerRequest who m value s
  | .mastPowerDown m => Sys2Proof.Machine.execMastPowerDown m s
  | .wickWakeDone m => Sys2Proof.Machine.execWickWakeDone m s
  | .darkWakeDone m => Sys2Proof.Machine.execDarkWakeDone m s
  | .directoryRequest agent line ask => Sys2Proof.Machine.execDirectoryRequest agent line ask s
  | .fillArrival agent line => Sys2Proof.Machine.execFillArrival agent line s
  | .forwardedRead agent line => Sys2Proof.Machine.execForwardedRead agent line s
  | .invalidate agent line => Sys2Proof.Machine.execInvalidate agent line s
  | .memAccessComplete channel wrong => Sys2Proof.Machine.execMemAccessComplete channel wrong s
  | .trackerGrantTimeout channel => Sys2Proof.Machine.execTrackerGrantTimeout channel s
  | .patrolScrub stack wrong => Sys2Proof.Machine.execPatrolScrub stack wrong s
  | .hbmTempSample stack temp => Sys2Proof.Machine.execHbmTempSample stack temp s
  | .hotWindowEnd d => Sys2Proof.Machine.execHotWindowEnd d s
  | .heldDrainStart d p pane => Sys2Proof.Machine.execHeldDrainStart d p pane s
  | .paneDrainEnd d p pane => Sys2Proof.Machine.execPaneDrainEnd d p pane s
  | .lanternFlush d => Sys2Proof.Machine.execLanternFlush d s
  | .trimCheck d => Sys2Proof.Machine.execTrimCheck d s
  | .trimHeldRecheck p e => Sys2Proof.Machine.execTrimHeldRecheck p e s
  | .trimUpdateComplete p e => Sys2Proof.Machine.execTrimUpdateComplete p e s
  | .bondBeatReceive m upward beat flips sidebandBad => Sys2Proof.Machine.execBondBeatReceive m upward beat flips sidebandBad s
  | .bondWindowEnd d => Sys2Proof.Machine.execBondWindowEnd d s
  | .ratlineDataFlit d side fresh flips => Sys2Proof.Machine.execRatlineDataFlit d side fresh flips s
  | .ratlineNak d side => Sys2Proof.Machine.execRatlineNak d side s
  | .ratlineCredit d side => Sys2Proof.Machine.execRatlineCredit d side s
  | .ratlineRetire d side => Sys2Proof.Machine.execRatlineRetire d side s
  | .ratlineSwitch d side spareLocks => Sys2Proof.Machine.execRatlineSwitch d side spareLocks s
  | .ratlineWidth d side word => Sys2Proof.Machine.execRatlineWidth d side word s
  | .ratlineRetryTimeout d side => Sys2Proof.Machine.execRatlineRetryTimeout d side s
  | .ratlineControlResend d side => Sys2Proof.Machine.execRatlineControlResend d side s
  | .ratlineLaneWindowEnd d side => Sys2Proof.Machine.execRatlineLaneWindowEnd d side s
  | .ratlineElectricalDone d side bad => Sys2Proof.Machine.execRatlineElectricalDone d side bad s
  | .ratlineMapExchangeDone d side => Sys2Proof.Machine.execRatlineMapExchangeDone d side s
  | .ratlineMapTimeout d side => Sys2Proof.Machine.execRatlineMapTimeout d side s
  | .ratlineLinkOff link => Sys2Proof.Machine.execRatlineLinkOff link s
  | .stayPresenceDetected p => Sys2Proof.Machine.execStayPresenceDetected p s
  | .stayRateAlternate p => Sys2Proof.Machine.execStayRateAlternate p s
  | .stayElectricalDone p healthy roundTripNs word => Sys2Proof.Machine.execStayElectricalDone p healthy roundTripNs word s
  | .capability p msg => Sys2Proof.Machine.execCapability p msg s
  | .identity p msg => Sys2Proof.Machine.execIdentity p msg s
  | .keying p msg => Sys2Proof.Machine.execKeying p msg s
  | .stayPartnerLost p => Sys2Proof.Machine.execStayPartnerLost p s
  | .stayDataFlit p flit => Sys2Proof.Machine.execStayDataFlit p flit s
  | .idle p flit => Sys2Proof.Machine.execIdle p flit s
  | .nak p flit => Sys2Proof.Machine.execNak p flit s
  | .credit p flit => Sys2Proof.Machine.execCredit p flit s
  | .width p flit => Sys2Proof.Machine.execWidth p flit s
  | .switch p flit => Sys2Proof.Machine.execSwitch p flit s
  | .keyswitch p flit => Sys2Proof.Machine.execKeyswitch p flit s
  | .stayRetryTimeout p => Sys2Proof.Machine.execStayRetryTimeout p s
  | .stayKeyRefresh p => Sys2Proof.Machine.execStayKeyRefresh p s
  | .stayFecWindowEnd p uncorrectable corrected => Sys2Proof.Machine.execStayFecWindowEnd p uncorrectable corrected s
  | .stayRetrainDone p word => Sys2Proof.Machine.execStayRetrainDone p word s
  | .stayTagWindowEnd p => Sys2Proof.Machine.execStayTagWindowEnd p s
  | .stayCreditStarved p vc => Sys2Proof.Machine.execStayCreditStarved p vc s
  | .stayShutdownEnd p => Sys2Proof.Machine.execStayShutdownEnd p s
  | .discoverySend p => Sys2Proof.Machine.execDiscoverySend p s
  | .discovery p msg => Sys2Proof.Machine.execDiscovery p msg s
  | .discoveryStale entry => Sys2Proof.Machine.execDiscoveryStale entry s
  | .dictRequest p src tid datagram => Sys2Proof.Machine.execDictRequest p src tid datagram s
  | .backupRequest p src msg => Sys2Proof.Machine.execBackupRequest p src msg s
  | .backupRelease p src msg => Sys2Proof.Machine.execBackupRelease p src msg s
  | .chunk p src c => Sys2Proof.Machine.execChunk p src c s
  | .chunkHoldExpiry n => Sys2Proof.Machine.execChunkHoldExpiry n s
  | .postedWrite p msg => Sys2Proof.Machine.execPostedWrite p msg s
  | .readReq p msg => Sys2Proof.Machine.execReadReq p msg s
  | .readResp p msg => Sys2Proof.Machine.execReadResp p msg s
  | .writeReq p msg => Sys2Proof.Machine.execWriteReq p msg s
  | .writeAck p msg => Sys2Proof.Machine.execWriteAck p msg s
  | .phaseTrigger k => Sys2Proof.Machine.execPhaseTrigger k s
  | .phaseComplete k => Sys2Proof.Machine.execPhaseComplete k s
  | .deadlineMissed k => Sys2Proof.Machine.execDeadlineMissed k s
  | .planAbort who k value => Sys2Proof.Machine.execPlanAbort who k value s
  | .planAbortDone k => Sys2Proof.Machine.execPlanAbortDone k s
  | .deferredFlip => Sys2Proof.Machine.execDeferredFlip s
  | .hello => Sys2Proof.Machine.execHello s
  | .discover fromAddr seq => Sys2Proof.Machine.execDiscover fromAddr seq s
  | .sessionInit fromAddr seq nonce key chain => Sys2Proof.Machine.execSessionInit fromAddr seq nonce key chain s
  | .sessionConfirm env sig => Sys2Proof.Machine.execSessionConfirm env sig s
  | .claim env => Sys2Proof.Machine.execClaim env s
  | .close env => Sys2Proof.Machine.execClose env s
  | .read env index sub staged => Sys2Proof.Machine.execRead env index sub staged s
  | .write env index sub value => Sys2Proof.Machine.execWrite env index sub value s
  | .readSeg env index sub offset length staged => Sys2Proof.Machine.execReadSeg env index sub offset length staged s
  | .writeSeg env index sub offset data fin => Sys2Proof.Machine.execWriteSeg env index sub offset data fin s
  | .list env first count => Sys2Proof.Machine.execList env first count s
  | .describe env index sub => Sys2Proof.Machine.execDescribe env index sub s
  | .eventRead env rseq count => Sys2Proof.Machine.execEventRead env rseq count s
  | .eventAck env rseq => Sys2Proof.Machine.execEventAck env rseq s
  | .subscribe env on => Sys2Proof.Machine.execSubscribe env on s
  | .sessionTimeout session => Sys2Proof.Machine.execSessionTimeout session s
  | .eventRingOverflow ring => Sys2Proof.Machine.execEventRingOverflow ring s
  | .snapshotPost index => Sys2Proof.Machine.execSnapshotPost index s
  | .mailboxAlloc core => Sys2Proof.Machine.execMailboxAlloc core s
  | .mailboxSubmit core slot => Sys2Proof.Machine.execMailboxSubmit core slot s
  | .mailboxFree core slot => Sys2Proof.Machine.execMailboxFree core slot s
  | .commitRequest who token => Sys2Proof.Machine.execCommitRequest who token s
  | .commitChecksDone => Sys2Proof.Machine.execCommitChecksDone s
  | .stagingDiscard who value => Sys2Proof.Machine.execStagingDiscard who value s
  | .rdidxWrite core ring value => Sys2Proof.Machine.execRdidxWrite core ring value s
  | .registerWrite who index sub value => Sys2Proof.Machine.execRegisterWrite who index sub value s
  | .grantRequest m => Sys2Proof.Machine.execGrantRequest m s
  | .pilotRestarted => Sys2Proof.Machine.execPilotRestarted s
  | .powerOn tPilot => Sys2Proof.Machine.execPowerOn tPilot s
  | .powerLoss => Sys2Proof.Machine.execPowerLoss s
  | .powerSample watts millivolts => Sys2Proof.Machine.execPowerSample watts millivolts s
  | .capEvaluate => Sys2Proof.Machine.execCapEvaluate s
  | .powerCapWrite who watts => Sys2Proof.Machine.execPowerCapWrite who watts s
  | .thermalThrottle sensor reading => Sys2Proof.Machine.execThermalThrottle sensor reading s
  | .thermalWindowEnd readings => Sys2Proof.Machine.execThermalWindowEnd readings s
  | .thermalShutdown sensor reading => Sys2Proof.Machine.execThermalShutdown sensor reading s
  | .inputUndervoltage millivolts => Sys2Proof.Machine.execInputUndervoltage millivolts s
  | .inputOvervoltage millivolts => Sys2Proof.Machine.execInputOvervoltage millivolts s
  | .domainForceDark d => Sys2Proof.Machine.execDomainForceDark d s
  | .domainOff d => Sys2Proof.Machine.execDomainOff d s
  | .domainOn d => Sys2Proof.Machine.execDomainOn d s
  | .startupStep fails cause => Sys2Proof.Machine.execStartupStep fails cause s
  | .hostReady who value => Sys2Proof.Machine.execHostReady who value s
  | .packageReset who value => Sys2Proof.Machine.execPackageReset who value s
  | .partitionReset who p value => Sys2Proof.Machine.execPartitionReset who p value s
  | .domainReset who d value => Sys2Proof.Machine.execDomainReset who d value s
  | .portReset who sub value => Sys2Proof.Machine.execPortReset who sub value s
  | .resetComplete kind scope => Sys2Proof.Machine.execResetComplete kind scope s
  | .domainResetTimeout d => Sys2Proof.Machine.execDomainResetTimeout d s
  | .resetreq value => Sys2Proof.Machine.execResetreq value s
  | .recoveryImage image => Sys2Proof.Machine.execRecoveryImage image s
  | .firmwareImageWrite who kind image => Sys2Proof.Machine.execFirmwareImageWrite who kind image s
  | .svnRaise who kind value => Sys2Proof.Machine.execSvnRaise who kind value s
  | .attestationNonce who nonce => Sys2Proof.Machine.execAttestationNonce who nonce s
  | .debugToken who token => Sys2Proof.Machine.execDebugToken who token s
  | .debugRelock who value => Sys2Proof.Machine.execDebugRelock who value s
  | .debugLifeExpiry => Sys2Proof.Machine.execDebugLifeExpiry s
  | .partitionStop who p value => Sys2Proof.Machine.execPartitionStop who p value s
  | .lamplighterAccess core store addr len data => Sys2Proof.Machine.execLamplighterAccess core store addr len data s
  | .mgmtLinkAttempt links => Sys2Proof.Machine.execMgmtLinkAttempt links s
  | .ratlineTrainingFramesSeen d side => Sys2Proof.Machine.execRatlineTrainingFramesSeen d side s
  | .stayControlResend p => Sys2Proof.Machine.execStayControlResend p s
  | .ratlineIdle d side => Sys2Proof.Machine.execRatlineIdle d side s
  | .dynamicAddress addr => Sys2Proof.Machine.execDynamicAddress addr s

end Sys2Proof.Machine
end

