-- ==== Sys2Proof/WellFormed.lean ====
section
/-! DEFINITION. Which commands are well formed: the unit that an operand names exists in the package (R1 to R5), and a
field that arrives on a link or in a request fits the width that the spec gives it. -/
namespace Sys2Proof

/-- A byte string whose bits fit its length. -/
def Octets.fits (o : Octets) : Bool := decide (o.bits < 2 ^ (8 * o.len))

/-- A requester that exists: a session place, a host context, a port (R15, R390). -/
def Who.fits : Who → Bool
  | .operator n => n < 8
  | .host c => c < 16
  | .peer p => p < 7

/-- The field widths of a stay flit (Tables 10.3 and 10.4). -/
def StayFlit.fits (f : StayFlit) : Bool :=
  f.vc < 16 && f.typ < 4 && f.cls < 4 && f.seq < 4096 && f.ack < 4096 && f.hops < 128 && f.fill < 256 &&
  f.dst < 2 ^ 18 && f.src < 2 ^ 18 && f.rsvd < 2 ^ 44 && decide (f.body < 2 ^ 1920) && f.tag < 2 ^ 64 && f.crc < 2 ^ 32 &&
  f.crcN < 2 ^ 32

/-- The field widths of a ratline flit (Table 9.2). -/
def RatBody.fits (b : RatBody) : Bool := b.vc < 16 && b.fill ≤ 56 && decide (b.body < 2 ^ 448) && (!b.resp || b.vc == 14)

/-- The field widths of a plan chunk's header and trailer (R366, Table 11.6). -/
def Chunk.fits (c : Chunk) : Bool :=
  c.len ≤ 1048576 && c.index < 2 ^ 24 && c.version < 2 ^ 32 && c.step < 2 ^ 32 && c.rank < 64 && c.die < 16 &&
  c.k < 256 && c.gf < 16 && c.ctype < 16 && c.phase < 32 && c.planId < 65536 && decide (c.payload < 2 ^ (8 * c.len)) &&
  c.digest < 2 ^ 64

/-- A mast, its thread, an engine, a die, a port, a direction of a ratline. -/
def mastFits (m : Nat) : Bool := m < 3072
def threadFits (m t : Nat) : Bool := m < 3072 && t < 512
def streamFits (m k : Nat) : Bool := m < 3072 && k < 2
def dieFits (d : Nat) : Bool := d < 16
def portFits (p : Nat) : Bool := p < 7
def sideFits (d side : Nat) : Bool := d < 16 && side < 4

/-- Whether every operand of a command is one that the package or its links can supply. -/
def Instr.wellFormed : Instr → Bool
  | .nop m t | .add m t | .sub m t | .and m t | .or m t | .xor m t | .shl m t | .shr m t | .sar m t | .mul m t
  | .slt m t | .sltu m t | .seq m t | .min m t | .max m t | .lds m t | .sts m t | .ldm m t | .stm m t | .amadd m t
  | .amswap m t | .br m t | .bz m t | .bnz m t | .jal m t | .post m t | .waitc m t | .watch m t | .fetchw m t
  | .cinc m t | .cclr m t | .start m t | .halt m t | .rdsys m t | .mastThreadFault m t | .memoryResultReturn m t
  | .watchChange m t | .watchTimeout m t | .watchEntryFree m t | .postSlotFree m t => threadFits m t
  | .copyIn m k | .copyOut m k | .mesh m k | .localCopy m k | .addOut m k | .halyardComplete m k | .meshArrival m k
  | .meshAck m k => streamFits m k
  | .matmul m | .aclr m | .adapt m | .send m | .mainsailComplete m | .copy m | .jibAdd m | .jibSub m | .jibMul m
  | .fma m | .jibMin m | .jibMax m | .mul3 m | .exp m | .log m | .recip m | .rsqrt m | .sqrt m | .reluGrad m
  | .geluGrad m | .siluGrad m | .sigmoidGrad m | .rsum m | .rsumsq m | .rmax m | .rmaxabs m | .rmstat m | .rmsstat m
  | .norm m | .skip m | .jibComplete m | .launchCopyDone m | .shutterEntry m | .shutteredWake m | .mastPowerDown m
  | .wickWakeDone m | .darkWakeDone m | .grantRequest m => mastFits m
  | .mastPowerRequest who m _ => who.fits && mastFits m
  | .directoryRequest g l _ | .fillArrival g l | .forwardedRead g l | .invalidate g l => g < 18 && l < 2 ^ 34
  | .memAccessComplete c n => c < 2048 && n ≤ 72
  | .trackerGrantTimeout c => c < 2048
  | .patrolScrub k n => k < 32 && n ≤ 72
  | .hbmTempSample k _ => k < 32
  | .hotWindowEnd d | .lanternFlush d | .trimCheck d | .bondWindowEnd d | .domainForceDark d | .domainOff d
  | .domainOn d | .domainResetTimeout d => dieFits d
  | .heldDrainStart d p k | .paneDrainEnd d p k => dieFits d && p < 16 && k < 2
  | .trimHeldRecheck p e | .trimUpdateComplete p e => p < 16 && e < 65536
  | .bondBeatReceive m _ beat flips _ => mastFits m && (match beat with | some b => decide (b < 2 ^ 1024) | none => true) && decide (flips < 2 ^ 1024)
  | .ratlineDataFlit d side fresh _ => sideFits d side && (match fresh with | some b => b.fits | none => true)
  | .ratlineNak d side | .ratlineCredit d side | .ratlineRetire d side | .ratlineRetryTimeout d side
  | .ratlineControlResend d side | .ratlineLaneWindowEnd d side | .ratlineMapExchangeDone d side
  | .ratlineMapTimeout d side | .ratlineTrainingFramesSeen d side | .ratlineIdle d side => sideFits d side
  | .ratlineSwitch d side _ => sideFits d side
  | .ratlineWidth d side _ => sideFits d side
  | .ratlineElectricalDone d side _ => sideFits d side
  | .ratlineLinkOff l => l < 24
  | .stayPresenceDetected p | .stayRateAlternate p | .stayPartnerLost p | .stayRetryTimeout p | .stayKeyRefresh p
  | .stayTagWindowEnd p | .stayShutdownEnd p | .discoverySend p | .stayControlResend p => portFits p
  | .stayElectricalDone p _ _ _ | .stayFecWindowEnd p _ _ => portFits p
  | .capability p msg => portFits p && decide (msg.word < 2 ^ 64) && msg.nonce.fits
  | .identity p msg => portFits p && decide (msg.coord < 2 ^ 32) && msg.chain.fits && msg.sig.fits
  | .keying p msg => portFits p && msg.key.fits && msg.sig.fits
  | .stayDataFlit p f | .idle p f | .nak p f | .credit p f | .width p f | .switch p f | .keyswitch p f =>
    portFits p && f.fits
  | .stayRetrainDone p _ => portFits p
  | .stayCreditStarved p vc => portFits p && vc < 16
  | .discovery p msg => portFits p && decide (msg.coord < 2 ^ 32)
  | .discoveryStale e => e < 64
  | .dictRequest p src tid dg => portFits p && src < 2 ^ 18 && tid < 65536 && dg.fits
  | .backupRequest p src _ | .backupRelease p src _ => portFits p && src < 2 ^ 18
  | .chunk p src c => portFits p && src < 2 ^ 18 && c.fits
  | .chunkHoldExpiry _ => true
  | .postedWrite p msg | .readReq p msg | .readResp p msg | .writeReq p msg | .writeAck p msg =>
    portFits p && msg.src < 2 ^ 18 && decide (msg.data < 2 ^ (8 * msg.len))
  | .phaseTrigger k | .phaseComplete k | .deadlineMissed k | .planAbortDone k => k < 64
  | .planAbort who k _ => who.fits && k < 64
  | .deferredFlip | .hello | .commitChecksDone | .pilotRestarted | .powerLoss | .capEvaluate | .debugLifeExpiry => true
  | .discover _ _ => true
  | .sessionInit _ _ nonce key chain => nonce.fits && key.fits && chain.fits
  | .sessionConfirm _ sig => sig.fits
  | .claim _ | .close _ | .eventRead _ _ _ | .eventAck _ _ | .subscribe _ _ => true
  | .read _ idx sb _ | .describe _ idx sb => idx < 65536 && sb < 256
  | .write _ idx sb value => idx < 65536 && sb < 256 && value.fits
  | .readSeg _ idx sb _ _ _ => idx < 65536 && sb < 256
  | .writeSeg _ idx sb _ data _ => idx < 65536 && sb < 256 && data.fits
  | .list _ first count => first < 65536 && count < 65536
  | .sessionTimeout n => 1 ≤ n && n ≤ 8
  | .eventRingOverflow n => n < 17
  | .snapshotPost idx => idx < 65536
  | .mailboxAlloc c | .mailboxSubmit c _ | .mailboxFree c _ => c < 16
  | .commitRequest who _ | .stagingDiscard who _ | .powerCapWrite who _ | .hostReady who _ | .packageReset who _
  | .portReset who _ _ | .debugRelock who _ => who.fits
  | .rdidxWrite c ring _ => c < 16 && ring < 16
  | .registerWrite who idx sb value => who.fits && idx < 65536 && sb < 256 && value.fits
  | .powerOn _ | .powerSample _ _ | .inputUndervoltage _ | .inputOvervoltage _ | .startupStep _ _ | .resetreq _
  | .mgmtLinkAttempt _ => true
  | .thermalThrottle sensor _ | .thermalShutdown sensor _ => sensor < 384
  | .thermalWindowEnd readings => readings.all fun e => e.1 < 384
  | .partitionReset who p _ | .partitionStop who p _ => who.fits && p < 16
  | .domainReset who d _ => who.fits && dieFits d
  | .resetComplete kind _ => 1 ≤ kind && kind ≤ 5
  | .recoveryImage image => image.fits
  | .firmwareImageWrite who kind image => who.fits && kind < 2 && image.fits
  | .svnRaise who kind _ => who.fits && kind < 2
  | .attestationNonce who nonce => who.fits && nonce.fits
  | .debugToken who token => who.fits && token.fits
  | .lamplighterAccess core _ addr len data => core < 16 && addr < 2 ^ 52 && len ≤ 64 && decide (data < 2 ^ (8 * len))
  | .dynamicAddress addr => addr < 128

end Sys2Proof
end

