-- ==== Sys2Proof/Safety.lean ====
section
/-! DEFINITION. What counts as a sound state and a safe run, in the terms the claims use: the canonical form of memory,
what a command leaves unchanged, and when a command of each kind can run. -/
namespace Sys2Proof.Machine

/-! ### Sound states -/

/-- The canonical form of memory: addresses strictly rising, no entry 0, which is what an unlisted byte reads as (log 3). -/
def Memory.wf (m : FMap Byte) : Bool := FMap.wf 0#8 m

/-- A thread whose registers are listed canonically, s0 not among them (R89). -/
def Thread.wf (th : Thread) : Bool := FMap.wf 0#64 th.regs && (th.regs.all fun e => e.1 ≠ 0)

/-- A ring holds exactly the records posted and not yet read, at most `cap` of them (R36, R420). -/
def Ring.sound (g : Ring) (cap : Nat) : Prop := g.read ≤ g.posted ∧ g.recs.length = g.used ∧ g.used ≤ cap

/-- Memory, the gradient buffers and the host mailbox stand in canonical form, and every ring is within its size. -/
def State.sound (s : State) : Prop :=
  Memory.wf s.mem = true ∧ Memory.wf s.grad = true ∧ Memory.wf s.mailbox = true ∧ ∀ n, (s.ring n).sound (ringSize n)

/-! ### What a command leaves unchanged -/

/-- The pieces of State. -/
inductive Piece where
  | pending | tick | free | draws | outbox | ident | mem | poisoned | grad | panes | trims | masts | parts | lines
  | uses | directory | trackers | streams | openRows | heldReqs | hot | hotSince | hbm | lantern | silent | dict
  | snaps | snapRing | writes | rings | limits | sessions | stagers | commits | commitNum | deferred | accepted
  | plans | holds | holdNum | sent | sentNum | ports | heard | remote | remoteNum | rats | flows | bondSince
  | coreLoads | mailSlots | mailbox | peerMail | resets | grants | domains | power | fw | mgmtRate | mgmtSince
  | i3cAddr | ibien | hellos | carve
deriving DecidableEq, Repr

/-- A piece is the same in two states. -/
def Piece.same (f : Piece) (s t : State) : Prop :=
  match f with
  | .pending => t.pending = s.pending
  | .tick => t.tick = s.tick
  | .free => t.free = s.free
  | .draws => t.draws = s.draws
  | .outbox => t.outbox = s.outbox
  | .ident => t.ident = s.ident
  | .mem => t.mem = s.mem
  | .poisoned => t.poisoned = s.poisoned
  | .grad => t.grad = s.grad
  | .panes => t.panes = s.panes
  | .trims => t.trims = s.trims
  | .masts => t.masts = s.masts
  | .parts => t.parts = s.parts
  | .lines => t.lines = s.lines
  | .uses => t.uses = s.uses
  | .directory => t.directory = s.directory
  | .trackers => t.trackers = s.trackers
  | .streams => t.streams = s.streams
  | .openRows => t.openRows = s.openRows
  | .heldReqs => t.heldReqs = s.heldReqs
  | .hot => t.hot = s.hot
  | .hotSince => t.hotSince = s.hotSince
  | .hbm => t.hbm = s.hbm
  | .lantern => t.lantern = s.lantern
  | .silent => t.silent = s.silent
  | .dict => t.dict = s.dict
  | .snaps => t.snaps = s.snaps
  | .snapRing => t.snapRing = s.snapRing
  | .writes => t.writes = s.writes
  | .rings => t.rings = s.rings
  | .limits => t.limits = s.limits
  | .sessions => t.sessions = s.sessions
  | .stagers => t.stagers = s.stagers
  | .commits => t.commits = s.commits
  | .commitNum => t.commitNum = s.commitNum
  | .deferred => t.deferred = s.deferred
  | .accepted => t.accepted = s.accepted
  | .plans => t.plans = s.plans
  | .holds => t.holds = s.holds
  | .holdNum => t.holdNum = s.holdNum
  | .sent => t.sent = s.sent
  | .sentNum => t.sentNum = s.sentNum
  | .ports => t.ports = s.ports
  | .heard => t.heard = s.heard
  | .remote => t.remote = s.remote
  | .remoteNum => t.remoteNum = s.remoteNum
  | .rats => t.rats = s.rats
  | .flows => t.flows = s.flows
  | .bondSince => t.bondSince = s.bondSince
  | .coreLoads => t.coreLoads = s.coreLoads
  | .mailSlots => t.mailSlots = s.mailSlots
  | .mailbox => t.mailbox = s.mailbox
  | .peerMail => t.peerMail = s.peerMail
  | .resets => t.resets = s.resets
  | .grants => t.grants = s.grants
  | .domains => t.domains = s.domains
  | .power => t.power = s.power
  | .fw => t.fw = s.fw
  | .mgmtRate => t.mgmtRate = s.mgmtRate
  | .mgmtSince => t.mgmtSince = s.mgmtSince
  | .i3cAddr => t.i3cAddr = s.i3cAddr
  | .ibien => t.ibien = s.ibien
  | .hellos => t.hellos = s.hellos
  | .carve => t.carve = s.carve

/-- From `s` to `t` nothing changes but, perhaps, the pieces listed. -/
def changesOnly (fs : List Piece) (s t : State) : Prop := ∀ f, f ∉ fs → f.same s t

/-- From `s` to `t` none of the pieces listed changes. -/
def keeps (fs : List Piece) (s t : State) : Prop := ∀ f, f ∈ fs → f.same s t

/-- No object of the dictionary changes but those listed as index and subindex. -/
def registersBut (ks : List (Nat × Nat)) (s t : State) : Prop := ∀ i j, j < 256 → (i, j) ∉ ks → t.obj i j = s.obj i j

/-- The counter `i:j` counts `n` more, modulo its width. -/
def counts (s t : State) (i j n : Nat) : Prop := t.val i j = (s.val i j + n) % 2 ^ (8 * objLen i j)

/-- No mast changes but `m`. -/
def mastsBut (m : Nat) (s t : State) : Prop := ∀ n, n ≠ m → t.mast n = s.mast n

/-- In a mast nothing changes but thread `t` and the notes of who issued last. -/
def onlyThread (t : Nat) (x y : Mast) : Prop :=
  y = { x with threads := y.threads, last := y.last, recent := y.recent } ∧ ∀ u, u ≠ t → y.thread u = x.thread u

/-- A thread without the note that the line it watches was written (R99). -/
def Thread.calm (th : Thread) : Thread :=
  match th.wait with | .watch a v dl d _ => { th with wait := .watch a v dl d false } | _ => th

/-- A mast without these notes: a request to memory may set one in any mast, when a line that is watched is recalled. -/
def Mast.calm (x : Mast) : Mast := { x with threads := x.threads.map fun e => (e.1, e.2.calm) }

/-- No mast changes but `m`, these notes apart. -/
def calmBut (m : Nat) (s t : State) : Prop := ∀ n, n ≠ m → (t.mast n).calm = (s.mast n).calm

/-- No mast changes, these notes apart. -/
def calmAll (s t : State) : Prop := ∀ n, (t.mast n).calm = (s.mast n).calm

/-- The pieces that a request through a cache or to a home may change, the bytes that it writes apart. -/
def readPieces : List Piece :=
  [.free, .masts, .lines, .uses, .directory, .trackers, .streams, .heldReqs, .hot, .dict, .rings, .limits]

/-- The pieces that a request which may write can change. -/
def writePieces : List Piece := [.mem, .poisoned] ++ readPieces

/-- The pieces that a port which stops carrying traffic, or takes a flit, may change. -/
def portPieces : List Piece := [.ports, .dict, .rings, .limits, .outbox, .sent, .sentNum, .draws, .free]

/-- The pieces that the work of a collective plan may change. -/
def planPieces : List Piece :=
  writePieces ++ portPieces ++ [.grad, .panes, .trims, .parts, .lantern, .silent, .plans, .holds, .holdNum]

/-- The pieces that the loss of a ratline link, with the fences that it can lead to, may change. -/
def linkPieces : List Piece := planPieces ++ [.remote, .rats, .flows, .resets, .domains]

/-- No direction of a ratline changes but in the lane at which its next flit begins and the errors charged to its lanes
(R287, R294). -/
def ratsSteady (s t : State) : Prop :=
  ∀ d side, ({ t.rat d side with phase := 0, errors := [] } : RatDir) = { s.rat d side with phase := 0, errors := [] }

/-- The byte of memory at `a`. -/
def State.byte (s : State) (a : Nat) : Byte := FMap.get s.mem a 0#8

/-- The byte of a scratchpad at `a`. -/
def Mast.byte (x : Mast) (a : Nat) : Byte := FMap.get x.pad a 0#8

/-! ### When a command of a kind can run -/

/-- Thread `t` of mast `m` may issue, and the word at its program counter carries the opcode (R90, R91). -/
def State.issues (s : State) (m t op : Nat) : Bool :=
  decide (m < 3072) && decide (t < 512) && (s.mast m).mayIssue t &&
    opcodeOf ((s.mast m).fetch ((s.mast m).thread t)) == op

/-- The operands that the thread reads (Table 3.3). -/
def State.operands (s : State) (m t : Nat) : Operands :=
  readOperands ((s.mast m).fetch ((s.mast m).thread t)) ((s.mast m).thread t)

/-- The descriptor at the head of engine `e`'s queue of mast `m`, where it names `op` and may start (R107, R108). -/
def State.headOf (s : State) (m e op : Nat) : Option Posted :=
  let x := s.mast m
  match x.queue e with
  | [] => none
  | p :: _ =>
    if m < 3072 && decide (e < 4) && descOp p.desc == op && (x.run e).isNone && x.awake &&
        !(bitOf p.desc 19 && x.earlierPending p) then some p else none

/-- A command goes on. -/
def goesOn (r : Result) : Prop := ∃ s, r = .next s

/-- The mast once the descriptor at the head of engine `e` has left its queue. -/
def State.started (s : State) (m e : Nat) : Mast := (s.mast m).setQueue e ((s.mast m).queue e).tail

/-- Whether a jib descriptor needs sheet entries that are not there yet (R143, R172). -/
def Posted.waitsForSheet (p : Posted) (x : Mast) : Bool :=
  let q := jibOf p
  let (ra, rb, rc) := readsOperands q.op
  ((ra && q.a.kind = 2) || (rb && q.b.kind = 2) || (rc && q.c.kind = 2) || q.rel || q.rwr || q.tsrc) &&
    decide (x.sheet.length < q.shn)

end Sys2Proof.Machine
end

