-- ==== Sys2Proof/Certificates/Slice0/Obligations.lean ====
section
/-! DEFINITION. The statements for the provers, one proposition each; every docstring names the rule of spec/ it follows.
Hypotheses speak of the state before the command and of its operands alone. -/
section
open Sys2Proof Sys2Proof.Machine

/-! ### The step, reset and the whole machine -/

/-- A step runs the command at the front of the queue on the state with the queue's rest, and answers its outcome. -/
def Obligations.StepRunsFront : Prop :=
  ∀ (s : State) (c : Instr) (rest : List Instr),
    Machine.step { s with pending := c :: rest } = Machine.exec c { s with pending := rest }

/-- A state in which nothing waits for a pilot-clock edge: no accepted write, no commit, no deferred value, no grant asked for,
no request of a port, a peer or a core, no plan, no session to push records to, no unit due to post its snapshots, no host
that has asked for Ready. -/
def quietEdge (s : State) : Prop :=
  s.writes = [] ∧ s.commits = [] ∧ s.deferred = [] ∧ s.grants = [] ∧ s.remote = [] ∧ s.peerMail = [] ∧ s.coreLoads = [] ∧
    s.plans = [] ∧ s.sessions = [] ∧ s.snapRing.recs = [] ∧ s.tick < msTicks ∧ s.fw.ready = false

/-- On an empty queue one pilot tick passes, the model's choice (log 5): the counter advances by one, and no accepted write and
no grant asked for waits any longer (R34, R39, R42). Where nothing waits for the edge, nothing else happens but that a
ceiling below 64 is counted in 2100h:03 or 2200h:04 (R439, R440), and no ring gains or loses a record. A package that is Off
does not change. -/
def Obligations.IdleTick : Prop :=
  (∀ s : State, s.pending = [] → s.pkg = pkgOff → Machine.step s = .next s) ∧
  (∀ s : State, s.pending = [] → s.pkg ≠ pkgOff →
    ∃ t, Machine.step s = .next t ∧ t.tick = s.tick + 1 ∧ t.writes = [] ∧ t.grants = [] ∧
      keeps [.pending, .ident, .sessions, .heard, .remoteNum, .mgmtRate, .mgmtSince, .i3cAddr, .ibien, .hellos] s t) ∧
  (∀ s : State, s.pending = [] → s.pkg ≠ pkgOff → quietEdge s →
    ∃ t, Machine.step s = .next t ∧ t.tick = s.tick + 1 ∧ changesOnly [.tick, .dict, .rings] s t ∧
      (∀ n, (t.ring n).recs = (s.ring n).recs ∧ (t.ring n).posted = (s.ring n).posted ∧ (t.ring n).read = (s.ring n).read) ∧
      registersBut [(0x2100, 3), (0x2200, 4)] s t ∧
      (if s.power.cap < 64 then counts s t 0x2100 3 1 else t.obj 0x2100 3 = s.obj 0x2100 3) ∧
      (if s.val 0x2200 5 < 64 then counts s t 0x2200 4 1 else t.obj 0x2200 4 = s.obj 0x2200 4))

/-- What a power reset leaves (R427, R461, Tables 3.10 and 13.2): Standby, no start-up step done, memory with nothing
listed, every mast Dark and not fenced, every port and ratline direction Off, every engine and thread empty, no line in a
cache, no request under way, no write or commit waiting, no session, no plan, no reset in progress, and no command waiting.
The empty queue and the pilot tick 0 are the model's own start (log 6). -/
def Obligations.ResetLeaves : Prop :=
  let s := State.reset
  s.pending = [] ∧ s.tick = 0 ∧ s.pkg = pkgStandby ∧ s.val 0x2500 1 = 0 ∧ s.mem = [] ∧ s.sessions = [] ∧ s.resets = [] ∧
    (∀ m, (s.mast m).power = .dark ∧ (s.mast m).fenced = false ∧ (s.mast m).launch = none) ∧
    (∀ m t, ((s.mast m).thread t).run = .empty ∧ ∀ r, ((s.mast m).thread t).reg r = 0#64) ∧
    (∀ m e, (s.mast m).queue e = [] ∧ (s.mast m).run e = none) ∧
    (∀ p, s.portState p = portOff) ∧ (∀ d side, (s.rat d side).st = ratOff) ∧ (∀ k, (s.plan k).st = 0) ∧
    (∀ d, d < 16 → s.domain d = 0) ∧ (∀ n, (s.ring n).used = 0) ∧
    (∀ g l, s.line g l = none) ∧ (∀ l, s.dirEntry l = {}) ∧ (∀ c, s.tracker c = {}) ∧
    s.heldReqs = [] ∧ s.remote = [] ∧ s.coreLoads = [] ∧ s.peerMail = [] ∧ s.writes = [] ∧ s.commits = [] ∧ s.grants = []

/-- The state after reset is sound: memory, gradient buffers and mailbox in canonical form, every ring within its size. -/
def Obligations.ResetSound : Prop := State.reset.sound

/-- Every step that goes on keeps the state sound: memory, gradient buffers and mailbox stay in canonical form, and no
ring ever holds more records than R36 and R420 give it. -/
def Obligations.StepKeepsSound : Prop :=
  ∀ s t : State, s.sound → Machine.step s = .next t → t.sound

/-- Every command goes on, in every state: nothing that the package is asked for stops it. It acts on everything but the queue,
and it changes nothing of what the fuses say of the package's variant (R1). -/
def Obligations.ExecLeavesQueue : Prop :=
  ∀ (c : Instr) (s : State), ∃ t, Machine.exec c s = .next t ∧ t.pending = s.pending ∧ t.ident = s.ident

/-- The pilot tick changes by no command but a power reset or a loss of power (R37): every command that is none of
POWER_ON, POWER_LOSS and RESETREQ leaves it. -/
def Obligations.TickOnlyByPower : Prop :=
  ∀ (c : Instr) (s t : State), Machine.exec c s = .next t → t.tick = s.tick ∨
    (∃ n, c = .powerOn n) ∨ c = .powerLoss ∨ ∃ v, c = .resetreq v

/-! ### The control core (Tables 3.3 and 3.4) -/

/-- Thread `t` of a mast issued last, before the six issues that came last until then (R90). -/
def issuedLast (t : Nat) (x y : Mast) : Prop := y.last = t ∧ y.recent = (t :: x.recent).take 7

/-- What an operation does that writes register `d` of its thread and moves to `pc`: s0 stays zero, no other register, no
other thread, nothing else of the mast but the notes of who issued, and nothing outside the masts changes. -/
def writesReg (s u : State) (m t d : Nat) (v : Word64) (pc : BitVec 20) : Prop :=
  let th := (s.mast m).thread t
  let th' := (u.mast m).thread t
  th'.reg d = (if d = 0 then 0#64 else v) ∧ (∀ r, r ≠ d → th'.reg r = th.reg r) ∧
    th' = { th with regs := th'.regs, pc := pc } ∧ issuedLast t (s.mast m) (u.mast m) ∧
    onlyThread t (s.mast m) (u.mast m) ∧ mastsBut m s u ∧ changesOnly [.masts] s u

/-- What an operation does that only moves its thread to a thread `th`. -/
def movesTo (s u : State) (m t : Nat) (th : Thread) : Prop :=
  (u.mast m).thread t = th ∧ issuedLast t (s.mast m) (u.mast m) ∧ onlyThread t (s.mast m) (u.mast m) ∧ mastsBut m s u ∧
    changesOnly [.masts] s u

/-- What an operation does that makes a request to memory and moves its thread to `th`: no other thread and no other mast
changes, but that a line that is watched may be noted as written. -/
def asksMemory (fs : List Piece) (s u : State) (m t : Nat) (th : Thread) : Prop :=
  (u.mast m).thread t = th ∧ onlyThread t (s.mast m).calm (u.mast m).calm ∧ calmBut m s u ∧ changesOnly fs s u

/-- The operations d ← f(sa, v) of Table 3.4: the command, its opcode, and f in the arithmetic of the integers. -/
def aluRows : List ((Nat → Nat → Instr) × Nat × (Word64 → Word64 → Word64)) :=
  [(.add, 0x01, fun a v => BitVec.ofNat 64 (a.toNat + v.toNat)),
   (.sub, 0x02, fun a v => BitVec.ofInt 64 (a.toInt - v.toInt)),
   (.and, 0x03, fun a v => BitVec.ofNat 64 (a.toNat &&& v.toNat)),
   (.or, 0x04, fun a v => BitVec.ofNat 64 (a.toNat ||| v.toNat)),
   (.xor, 0x05, fun a v => BitVec.ofNat 64 (a.toNat ^^^ v.toNat)),
   (.shl, 0x06, fun a v => BitVec.ofNat 64 (a.toNat * 2 ^ (v.toNat % 64))),
   (.shr, 0x07, fun a v => BitVec.ofNat 64 (a.toNat / 2 ^ (v.toNat % 64))),
   (.sar, 0x08, fun a v => BitVec.ofInt 64 (a.toInt / 2 ^ (v.toNat % 64))),
   (.mul, 0x09, fun a v => BitVec.ofNat 64 (a.toNat * v.toNat)),
   (.slt, 0x0A, fun a v => if a.toInt < v.toInt then 1#64 else 0#64),
   (.sltu, 0x0B, fun a v => if a.toNat < v.toNat then 1#64 else 0#64),
   (.seq, 0x0C, fun a v => if a.toNat = v.toNat then 1#64 else 0#64),
   (.min, 0x0D, fun a v => BitVec.ofInt 64 (min a.toInt v.toInt)),
   (.max, 0x0E, fun a v => BitVec.ofInt 64 (max a.toInt v.toInt))]

/-- ADD, SUB, AND, OR, XOR, SHL, SHR, SAR, MUL, SLT, SLTU, SEQ, MIN and MAX (Table 3.4): where a thread issues the
operation it goes on, d takes f(sa, sb + IMM), s0 stays zero, the program counter advances by 8, nothing else changes but
the notes of who issued last (R90). -/
def Obligations.AluResults : Prop :=
  ∀ row ∈ aluRows, ∀ (s : State) (m t : Nat), s.issues m t row.2.1 = true →
    ∃ u, Machine.exec (row.1 m t) s = .next u ∧
      writesReg s u m t (s.operands m t).d (row.2.2 (s.operands m t).sa ((s.operands m t).sb + (s.operands m t).imm))
        (((s.mast m).thread t).pc + 8#20)

/-- NOP, BR, BZ, BNZ and JAL (Table 3.4): where the program counter goes; JAL writes pc + 8 to d.
LDS and STS (Table 3.4): the word at sa + IMM, its low three address bits ignored; STS writes its eight bytes and no
other byte of the scratchpad. An address with a bit above 19 set is the host error of R122, item 1, which holds the mast
up, the model's reading of an unpredictable result (log 51); nothing else changes. -/
def Obligations.BranchesAndScratchpad : Prop :=
  (∀ (s : State) (m t : Nat),
      let th := (s.mast m).thread t
      let o := s.operands m t
      let on : Thread := { th with pc := th.pc + 8#20 }
      let away : Thread := { th with pc := th.pc + o.imm.setWidth 20 }
      (s.issues m t 0x00 = true → ∃ u, Machine.exec (.nop m t) s = .next u ∧ movesTo s u m t on) ∧
      (s.issues m t 0x20 = true → ∃ u, Machine.exec (.br m t) s = .next u ∧ movesTo s u m t away) ∧
      (s.issues m t 0x21 = true → ∃ u, Machine.exec (.bz m t) s = .next u ∧
        movesTo s u m t (if o.sa = 0#64 then away else on)) ∧
      (s.issues m t 0x22 = true → ∃ u, Machine.exec (.bnz m t) s = .next u ∧
        movesTo s u m t (if o.sa = 0#64 then on else away)) ∧
      (s.issues m t 0x23 = true → ∃ u, Machine.exec (.jal m t) s = .next u ∧
        writesReg s u m t o.d ((th.pc + 8#20).setWidth 64) ((o.sa + o.imm).setWidth 20))) ∧
  (∀ (s : State) (m t : Nat),
      let x := s.mast m
      let th := x.thread t
      let o := s.operands m t
      let a := (o.sa + o.imm).toNat
      let b := a / 8 * 8
      let stuck := fun (u : State) => u.mast m = { x with wild := some (122, 1) } ∧ mastsBut m s u ∧ changesOnly [.masts] s u
      (s.issues m t 0x10 = true → a < 2 ^ 20 → ∃ u, Machine.exec (.lds m t) s = .next u ∧
        writesReg s u m t o.d (BitVec.ofNat 64 (x.padRead b 8)) (th.pc + 8#20)) ∧
      (s.issues m t 0x11 = true → a < 2 ^ 20 → ∃ u, Machine.exec (.sts m t) s = .next u ∧
        (∀ c, (u.mast m).byte c = if b ≤ c ∧ c < b + 8 then BitVec.ofNat 8 (o.sb.toNat >>> (8 * (c - b))) else x.byte c) ∧
        (u.mast m).thread t = { th with pc := th.pc + 8#20 } ∧ (∀ j, j ≠ t → (u.mast m).thread j = x.thread j) ∧
        u.mast m = { x with pad := (u.mast m).pad, threads := (u.mast m).threads, last := t,
                            recent := (t :: x.recent).take 7 } ∧
        mastsBut m s u ∧ changesOnly [.masts] s u) ∧
      (s.issues m t 0x10 = true → 2 ^ 20 ≤ a → ∃ u, Machine.exec (.lds m t) s = .next u ∧ stuck u) ∧
      (s.issues m t 0x11 = true → 2 ^ 20 ≤ a → ∃ u, Machine.exec (.sts m t) s = .next u ∧ stuck u))

/-- LDM (Table 3.4, R94) and the return of its result: the thread stalls with the word that memory held, or with zero
where the read is refused or cannot be corrected (R188, R199); memory does not change. MEMORY_RESULT_RETURN, once no request
of the thread is under way, writes d and makes the thread Ready; a word that its read found poisoned answers zero (R199).
STM (Table 3.4, R94): its eight bytes are written at sa + IMM rounded down to a multiple of 8, where a window admits
the write and the home is not fenced (R188, R472); else no byte of memory changes. -/
def Obligations.MemoryWords : Prop :=
  (∀ (s : State) (m t : Nat),
      let th := (s.mast m).thread t
      let o := s.operands m t
      let a := wordAddr (o.sa + o.imm)
      let good : Bool := s.admits (s.partOfMast m) a 8 [rightRd] && !s.badRange a 8
      (s.issues m t 0x12 = true → ∃ u, Machine.exec (.ldm m t) s = .next u ∧
        asksMemory readPieces s u m t
          { th with pc := th.pc + 8#20, run := .stalled,
                    wait := .result o.d (if good then BitVec.ofNat 64 (s.load a 8) else 0#64) (if good then some a else none) }) ∧
      (∀ d v addr, th.wait = .result d v addr → s.awaits (threadWho m t) = false →
        ∃ u, Machine.exec (.memoryResultReturn m t) s = .next u ∧
          (u.mast m).thread t = { th.setReg d (if addr.any (fun b => s.badRange b 8) then 0#64 else v) with
                                  run := .ready, wait := .none } ∧
          onlyThread t (s.mast m) (u.mast m) ∧ mastsBut m s u ∧ changesOnly [.masts] s u)) ∧
  (∀ (s : State) (m t : Nat), s.issues m t 0x13 = true →
      let th := (s.mast m).thread t
      let o := s.operands m t
      let a := wordAddr (o.sa + o.imm)
      let good : Bool := s.admits (s.partOfMast m) a 8 [rightWr] && !s.homeFenced a
      ∃ u, Machine.exec (.stm m t) s = .next u ∧
        (∀ b, u.byte b = if good = true ∧ a ≤ b ∧ b < a + 8 then BitVec.ofNat 8 (o.sb.toNat >>> (8 * (b - a))) else s.byte b) ∧
        asksMemory writePieces s u m t { th with pc := th.pc + 8#20 })

/-- AMADD and AMSWAP (Table 3.4, R207): the old word is on its way to d and memory holds old + sb, or sb; a request that
is refused, poisoned or fenced gives zero and changes no byte. -/
def Obligations.AtomicWords : Prop :=
  ∀ (s : State) (m t : Nat) (swap : Bool), s.issues m t (if swap then 0x15 else 0x14) = true →
    let th := (s.mast m).thread t
    let o := s.operands m t
    let a := wordAddr o.sa
    let good : Bool := s.admits (s.partOfMast m) a 8 [rightAt] && !s.badRange a 8
    let old : Word64 := BitVec.ofNat 64 (s.load a 8)
    let new : Nat := if swap then o.sb.toNat else (old + o.sb).toNat
    ∃ u, Machine.exec (if swap then .amswap m t else .amadd m t) s = .next u ∧
      (∀ b, u.byte b = if good = true ∧ a ≤ b ∧ b < a + 8 then BitVec.ofNat 8 (new >>> (8 * (b - a))) else s.byte b) ∧
      asksMemory writePieces s u m t
        { th with pc := th.pc + 8#20, run := .stalled,
                  wait := .result o.d (if good then old else 0#64) (if good then some a else none) }

/-- POST and POST_SLOT_FREE (R108, R161): the descriptor goes to the end of its engine's queue, or the thread stalls with
it while the queue is full or an earlier POST waits for it; the stalled POST that comes first goes on when a slot is free. A
header that breaks R107, or an address that is no multiple of 64, is the host error of R122, item 4, which holds the mast up
(log 51). -/
def Obligations.PostDescriptors : Prop :=
  ∀ (s : State) (m t e : Nat),
    let x := s.mast m
    let th := x.thread t
    let o := s.operands m t
    let a := (o.sa + o.imm).toNat
    let desc := x.padRead a 64
    let la := field desc 147 128
    let p : Posted := { desc := desc, layout := if e = 3 then x.padRead la 64 else 0, thread := t, num := x.posts,
                        compat := s.threadMode m th }
    let room : Bool := decide ((x.queue e).length < queueSize e)
    (s.issues m t 0x30 = true → a < 2 ^ 20 → a % 64 = 0 → headerBad desc = false → engineOf desc = some e →
      (e = 3 → la % 64 = 0) → ∃ u, Machine.exec (.post m t) s = .next u ∧ (u.mast m).posts = x.posts + 1 ∧
        (room = true → x.earlierStalled e x.posts = false →
          (u.mast m).queue e = x.queue e ++ [p] ∧ (u.mast m).thread t = { th with pc := th.pc + 8#20 }) ∧
        (room = false ∨ x.earlierStalled e x.posts = true →
          (u.mast m).queue e = x.queue e ∧
            (u.mast m).thread t = { th with pc := th.pc + 8#20, run := .stalled, wait := .slot p }) ∧
        (∀ k, k ≠ e → (u.mast m).queue k = x.queue k) ∧ (∀ j, j ≠ t → (u.mast m).thread j = x.thread j) ∧
        mastsBut m s u ∧ changesOnly [.masts] s u) ∧
    (s.issues m t 0x30 = true → a < 2 ^ 20 → (a % 64 ≠ 0 ∨ headerBad desc = true) →
      ∃ u, Machine.exec (.post m t) s = .next u ∧ u.mast m = { x with wild := some (122, 4) } ∧ mastsBut m s u ∧
        changesOnly [.masts] s u) ∧
    (∀ q, th.stalledPost = some (e, q) → x.earlierStalled e q.num = false → room = true →
      ∃ u, Machine.exec (.postSlotFree m t) s = .next u ∧ (u.mast m).queue e = x.queue e ++ [q] ∧
        (u.mast m).thread t = { th with run := .ready, wait := .none } ∧
        (∀ k, k ≠ e → (u.mast m).queue k = x.queue k) ∧ (∀ j, j ≠ t → (u.mast m).thread j = x.thread j) ∧
        mastsBut m s u ∧ changesOnly [.masts] s u)

/-- A thread after counter `n` reached `c`: one that waits for it with a target reached takes the counter word in d and is
Ready (R97). -/
def wokenBy (n : Nat) (c : Counter) (th : Thread) : Thread :=
  match th.wait with
  | .counter k d target =>
    if k = n ∧ 0 ≤ (c.val - target).toInt then { th.setReg d (counterWord c) with run := .ready, wait := .none } else th
  | _ => th

/-- WAITC, CINC and CCLR (Table 3.4, R97): WAITC goes on with the counter word where the counter has reached its target,
compared as a signed difference, and stalls otherwise; CINC adds sb[31:0] and CCLR clears counter IMM[5:0] and its ERR
bit, and the threads whose waits this satisfies become Ready. -/
def Obligations.CompletionCounters : Prop :=
  ∀ (s : State) (m t : Nat),
    let x := s.mast m
    let th := x.thread t
    let o := s.operands m t
    let n := o.imm.toNat % 64
    let target : Word32 := o.sb.setWidth 32
    let moved : Thread := { th with pc := th.pc + 8#20 }
    let signals := fun (u : State) (c : Counter) =>
      (u.mast m).counter n = c ∧ (∀ k, k ≠ n → (u.mast m).counter k = x.counter k) ∧ (u.mast m).thread t = moved ∧
        (∀ j, j ≠ t → (u.mast m).thread j = wokenBy n c (x.thread j)) ∧ mastsBut m s u ∧ changesOnly [.masts] s u
    (s.issues m t 0x31 = true → 0 ≤ ((x.counter n).val - target).toInt →
      ∃ u, Machine.exec (.waitc m t) s = .next u ∧ writesReg s u m t o.d (counterWord (x.counter n)) (th.pc + 8#20)) ∧
    (s.issues m t 0x31 = true → ((x.counter n).val - target).toInt < 0 →
      ∃ u, Machine.exec (.waitc m t) s = .next u ∧
        movesTo s u m t { moved with run := .stalled, wait := .counter n o.d target }) ∧
    (s.issues m t 0x34 = true → ∃ u, Machine.exec (.cinc m t) s = .next u ∧
      signals u { val := (x.counter n).val + o.sb.setWidth 32, err := (x.counter n).err }) ∧
    (s.issues m t 0x35 = true → ∃ u, Machine.exec (.cclr m t) s = .next u ∧ signals u {})

/-- WATCH and the ends of its waits (R98 to R100): with an entry free, a word that cannot be read answers 0 at once, a
word that differs answers 1 at once, and one that agrees is watched; with all 16 in use the thread stalls. After the watched
line was written or invalidated WATCH_CHANGE reads the word again: one that differs answers 1, counted in 3800h + d:03, one
that cannot be read answers 0, and one that agrees is watched on. WATCH_TIMEOUT, where the ticks have passed, answers 1 for
a word that differs and 0 else. WATCH_ENTRY_FREE lets a stalled WATCH go on. Memory does not change. -/
def Obligations.Watches : Prop :=
  ∀ (s : State) (m t : Nat), m < 3072 →
    let x := s.mast m
    let th := x.thread t
    let o := s.operands m t
    let readable := fun (a : Nat) => s.admits (s.partOfMast m) a 8 [rightRd] && !s.badRange a 8
    let same := fun (a : Nat) (expect : Word64) => BitVec.ofNat 64 (s.load a 8) == expect
    let woken := fun (moved : Thread) (d : Nat) (v : Word64) => { moved.setReg d v with run := .ready, wait := .none }
    let outcome := fun (u : State) (moved : Thread) (a : Nat) (expect : Word64) (ticks d : Nat) =>
      ∃ hit, asksMemory readPieces s u m t
        (if readable a = false then woken moved d 0#64
         else if same a expect = false then woken moved d 1#64
         else { moved with run := .watching,
                           wait := .watch a expect (if ticks = 0 then none else some (s.tick + ticks)) d hit })
    let moved : Thread := { th with pc := th.pc + 8#20 }
    (s.issues m t 0x32 = true → x.watchers < 16 → ∃ u, Machine.exec (.watch m t) s = .next u ∧
      outcome u moved (wordAddr o.sa) o.sb (o.imm.toNat % 2 ^ 32) o.d) ∧
    (s.issues m t 0x32 = true → 16 ≤ x.watchers → ∃ u, Machine.exec (.watch m t) s = .next u ∧
      movesTo s u m t { moved with run := .stalled, wait := .entry (wordAddr o.sa) o.sb (o.imm.toNat % 2 ^ 32) o.d }) ∧
    (∀ a expect ticks d, th.wait = .entry a expect ticks d → x.watchers < 16 →
      ∃ u, Machine.exec (.watchEntryFree m t) s = .next u ∧ outcome u th a expect ticks d) ∧
    (∀ a expect dl d, th.wait = .watch a expect dl d true → readable a = true → same a expect = false →
      ∃ u, Machine.exec (.watchChange m t) s = .next u ∧ asksMemory readPieces s u m t (woken th d 1#64) ∧
        counts s u (0x3800 + m / 192) 3 1) ∧
    (∀ a expect dl d, th.wait = .watch a expect dl d true → readable a = false →
      ∃ u, Machine.exec (.watchChange m t) s = .next u ∧ asksMemory readPieces s u m t (woken th d 0#64)) ∧
    (∀ a expect dl d, th.wait = .watch a expect dl d true → readable a = true → same a expect = true →
      ∃ u hit, Machine.exec (.watchChange m t) s = .next u ∧
        asksMemory readPieces s u m t { th with wait := .watch a expect dl d hit }) ∧
    (∀ a expect dl d hit, th.wait = .watch a expect (some dl) d hit → dl ≤ s.tick →
      ∃ u, Machine.exec (.watchTimeout m t) s = .next u ∧
        (u.mast m).thread t = woken th d (if s.badRange a 8 = false ∧ same a expect = false then 1#64 else 0#64) ∧
        onlyThread t x (u.mast m) ∧ mastsBut m s u ∧ registersBut [(0x3800 + m / 192, 3)] s u ∧
        changesOnly [.masts, .dict] s u)

/-- FETCHW (R103, R104): where the list can be read, HEAD is below TAIL and no power-down is asked for, the thread takes
HEAD, the word at the list's second half is counted on by one and the mode of the partition is sampled; else d gets
2^63 + TAIL[62:0], no byte changes and the thread has no work item. MEMORY_RESULT_RETURN, once no request of the thread is
under way, gives it the value; a claim whose words its own reads found poisoned is no claim: d gets 2^63, and the thread has
no work item (R199). -/
def Obligations.FetchWork : Prop :=
  (∀ (s : State) (m t : Nat), s.issues m t 0x33 = true →
    let x := s.mast m
    let th := x.thread t
    let o := s.operands m t
    let part := s.partOfMast m
    let a := wordAddr o.sa
    let good : Bool := s.admits part (a + 128) 8 [rightAt] && s.admits part a 8 [rightAt] && !s.badRange a 8 &&
      !s.badRange (a + 128) 8
    let tail := s.load a 8
    let head := s.load (a + 128) 8
    let claims : Bool := good && decide (head < tail) && x.goal.isNone
    let stalled := fun (v : Word64) (item : Option Bool) =>
      ({ th with pc := th.pc + 8#20, run := .stalled, wait := .fetched o.d v a, item := item } : Thread)
    ∃ u, Machine.exec (.fetchw m t) s = .next u ∧
      asksMemory writePieces s u m t (if claims then stalled (BitVec.ofNat 64 head) (some (s.compatOf part))
        else stalled (BitVec.ofNat 64 (2 ^ 63 + (if good then tail % 2 ^ 63 else 0))) none) ∧
      (∀ b, u.byte b = if claims = true ∧ a + 128 ≤ b ∧ b < a + 136 then BitVec.ofNat 8 ((head + 1) >>> (8 * (b - (a + 128))))
        else s.byte b)) ∧
  (∀ (s : State) (m t d : Nat) (v : Word64) (a : Nat), ((s.mast m).thread t).wait = .fetched d v a →
    s.awaits (threadWho m t) = false →
    let th := (s.mast m).thread t
    let lost : Bool := th.item.isSome && (s.badRange a 8 || s.badRange (a + 128) 8)
    ∃ u, Machine.exec (.memoryResultReturn m t) s = .next u ∧
      (u.mast m).thread t = { th.setReg d (if lost then BitVec.ofNat 64 (2 ^ 63) else v) with
                              run := .ready, wait := .none, item := if lost then none else th.item } ∧
      onlyThread t (s.mast m) (u.mast m) ∧ mastsBut m s u ∧
      (lost = false → changesOnly [.masts] s u) ∧ changesOnly [.masts, .mem, .poisoned] s u)

/-- START and HALT (Table 3.4, R104, R118): START makes an Empty or Faulted thread IMM[8:0] Ready at sa with s1 = sb and
answers 0, unless a request for Wick or Dark is pending, else answers 1; HALT makes its own thread Empty.
RDSYS (Table 3.4): thread, mast, die, partition, pilot ticks and arithmetic mode; the mast's cycle counter is an open
value, and so are a partition and a work item that there are none of (log 1, log 32); other selectors read zero. -/
def Obligations.ThreadControl : Prop :=
  (∀ (s : State) (m t : Nat),
      let x := s.mast m
      let th := x.thread t
      let o := s.operands m t
      let j := o.imm.toNat % 512
      let may : Bool := ((x.thread j).run == .empty || (x.thread j).run == .faulted) && x.goal.isNone
      (s.issues m t 0x36 = true → may = true → ∃ u, Machine.exec (.start m t) s = .next u ∧
        ((u.mast m).thread j).run = .ready ∧ ((u.mast m).thread j).pc = o.sa.setWidth 20 ∧
        ((u.mast m).thread j).reg 1 = o.sb ∧ (∀ r, r ≠ 1 → ((u.mast m).thread j).reg r = 0#64) ∧
        (u.mast m).thread t = { th.setReg o.d 0#64 with pc := th.pc + 8#20 } ∧
        (∀ k, k ≠ j → k ≠ t → (u.mast m).thread k = x.thread k) ∧ mastsBut m s u ∧ changesOnly [.masts] s u) ∧
      (s.issues m t 0x36 = true → may = false → ∃ u, Machine.exec (.start m t) s = .next u ∧
        writesReg s u m t o.d 1#64 (th.pc + 8#20)) ∧
      (s.issues m t 0x37 = true → ∃ u, Machine.exec (.halt m t) s = .next u ∧
        movesTo s u m t { th with pc := th.pc + 8#20, run := .empty, item := none })) ∧
  (∀ (s : State) (m t : Nat), s.issues m t 0x38 = true →
      let th := (s.mast m).thread t
      let o := s.operands m t
      let n := o.imm.toNat % 256
      ∃ u v, Machine.exec (.rdsys m t) s = .next u ∧
        ((u.mast m).thread t).reg o.d = (if o.d = 0 then 0#64 else BitVec.ofNat 64 v) ∧
        ((u.mast m).thread t).pc = th.pc + 8#20 ∧ (∀ r, r ≠ o.d → ((u.mast m).thread t).reg r = th.reg r) ∧
        (n = 0 → v = t) ∧ (n = 1 → v = m % 192) ∧ (n = 2 → v = m / 192) ∧
        (∀ p, n = 3 → s.partOfMast m = some p → v = p) ∧ (n = 5 → v = s.tick) ∧
        (∀ c, n = 6 → th.item = some c → v = if c then 1 else 0) ∧ (7 ≤ n → v = 0) ∧
        onlyThread t (s.mast m) (u.mast m) ∧ mastsBut m s u ∧ changesOnly [.masts, .free] s u)

/-- MAST_THREAD_FAULT (R93): a Ready thread at a word whose opcode Table 3.4 does not have becomes Faulted at that word;
3810h with the mast, the thread and the low bits of the program counter goes to the operator ring, where it has room;
3800h + d:04 counts it; no other thread is affected. -/
def Obligations.ThreadFault : Prop :=
  ∀ (s : State) (m t : Nat), m < 3072 → t < 512 → (s.mast m).mayIssue t = true →
    definedOpcode ((s.mast m).fetch ((s.mast m).thread t)) = false →
    ∃ u, Machine.exec (.mastThreadFault m t) s = .next u ∧
      (u.mast m).thread t = { (s.mast m).thread t with run := .faulted, item := none } ∧
      ((s.ring 0).owed = 0 → (s.ring 0).used < 16384 → (u.ring 0).posted = (s.ring 0).posted + 1 ∧
        ∃ r, r ∈ (u.ring 0).recs ∧ r.code = 0x3810 ∧ r.tick = s.tick % 2 ^ 64 ∧
          r.detail = packDetail [(2, m), (2, t), (2, ((s.mast m).thread t).pc.toNat % 2 ^ 16)]) ∧
      counts s u (0x3800 + m / 192) 4 1 ∧ registersBut [(0x3800 + m / 192, 4)] s u ∧
      onlyThread t (s.mast m) (u.mast m) ∧ mastsBut m s u ∧ changesOnly [.masts, .dict, .rings] s u

/-! ### Numbers -/
/-- Widening is exact (R58), where no flush of R60 or R74 applies: a value of a format of Table 2.2 that is no NaN widens
to F32, and an E2M1 value to E4M3, without rounding, for it narrows back to the encoding it came from; a NaN widens to
the canonical NaN of F32. -/
def Obligations.WideningIsExact : Prop :=
  ∀ (code : Nat) (f : FpFormat) (e : Nat) (novf compat : Bool), fpFormatOf code = some f → e < 2 ^ f.width →
    let wide := f32Format.narrow novf true compat (f.decode e)
    let mid := e4m3Format.narrow novf true compat (f.decode e)
    (f.decode e = .nan → wide = ⟨f32Format.canonNan compat, .plain⟩) ∧
    (f.decode e ≠ .nan → wide.note = .plain ∧ f.narrow novf true compat (f32Format.decode wide.bits) = ⟨e, .plain⟩) ∧
    (code = 6 → mid.note = .plain ∧ f.narrow novf true compat (e4m3Format.decode mid.bits) = ⟨e, .plain⟩)

/-- The integer `r` is nearest to the dyadic `d`, and even where two are nearest. -/
def nearestTo (d : Dyad) (r : Int) : Prop :=
  let v : Int := if d.neg then -(d.mag : Int) else d.mag
  let gap := (2 * (r * 2 ^ (-d.exp).toNat - v * 2 ^ d.exp.toNat)).natAbs
  gap ≤ 2 ^ (-d.exp).toNat ∧ (gap = 2 ^ (-d.exp).toNat → r % 2 = 0)

/-- Conversion to I8 and I32 (R61): to the nearest integer, ties to even, held at the bounds of the integer and then
counted as a saturation; a NaN converts to 0 and counts as a NaN, an infinity to the bound of its sign. -/
def Obligations.IntegerConversion : Prop :=
  ∀ (w : Nat) (x : Fp), w = 8 ∨ w = 32 →
    let hi : Int := 2 ^ (w - 1) - 1
    let lo : Int := -(2 ^ (w - 1))
    let word := fun (v : Int) => (v % 2 ^ w).toNat
    (x = .nan → narrowInt w x = ⟨0, .nanZero⟩) ∧
    (∀ neg, x = .inf neg → narrowInt w x = ⟨word (if neg then lo else hi), .saturated⟩) ∧
    (∀ d, x = .fin d → ∃ r, nearestTo d r ∧
      narrowInt w x = (if hi < r then ⟨word hi, .saturated⟩ else if r < lo then ⟨word lo, .saturated⟩ else ⟨word r, .plain⟩))

/-! ### The engines of a mast -/

/-- A mast `y` after counter `n` of `x` took the value `c`: no other counter changes, and the threads whose waits this
satisfies are Ready (R97). -/
def signalled (x y : Mast) (n : Nat) (c : Counter) : Prop :=
  y.counter n = c ∧ (∀ k, k ≠ n → y.counter k = x.counter k) ∧ ∀ j, y.thread j = wokenBy n c (x.thread j)

/-- The completion of descriptor `r` of engine `e` (R96, R108): the engine is idle, the counter CC is one higher and its
ERR bit set where the descriptor met an error; queues and the other engines stay as they are. -/
def completes (x y : Mast) (e : Nat) (r : Running) : Prop :=
  y.run e = none ∧ (∀ k, k ≠ e → y.run k = x.run k) ∧ y.queues = x.queues ∧
    signalled x y (descCc r.post.desc)
      { val := (x.counter (descCc r.post.desc)).val + 1#32, err := (x.counter (descCc r.post.desc)).err || r.err }

/-- The descriptor that leaves the head of engine `e`'s queue stands in execution. -/
def begins (x y : Mast) (e : Nat) (p : Posted) : Prop :=
  (∃ r, y.run e = some r ∧ r.post = p) ∧ y.queue e = (x.queue e).tail ∧ (∀ k, k ≠ e → y.queue k = x.queue k) ∧
    y.threads = x.threads ∧ y.counters = x.counters ∧ y.sheet = x.sheet

/-- What a host error of rule `rule`, item `item`, does that mast `m` meets (R122, R123): it holds the mast up, the model's
reading of an unpredictable result (log 51), and nothing else changes. -/
def holdsUp (s u : State) (m rule item : Nat) : Prop :=
  u.mast m = { s.mast m with wild := some (rule, item) } ∧ mastsBut m s u ∧ changesOnly [.masts] s u

/-- COPY_IN, MESH and LOCAL start (R113 to R116): a descriptor at the head of an idle stream's queue that breaks no rule of
R122 and R258 goes into execution. Memory, panes and gradient buffers do not change, and no other mast does; MESH does not
change the scratchpad either. A row that runs past the scratchpad is the host error of R122, item 1.
COPY_OUT and ADD_OUT start (R113, R115, R234): a descriptor at the head of an idle stream's queue that breaks no rule
of R122 and R258 goes into execution; no scratchpad changes.
LOCAL of one row (R113): the bytes of the source row stand at the destination, and no other byte of the scratchpad
changes. -/
def Obligations.HalyardStarts : Prop :=
  (∀ (s : State) (m k : Nat) (p : Posted), k < 2 →
      let t := transferOf p.desc
      let part := s.partOfMast m
      (s.headOf m k 0x00 = some p → t.bad p.desc true = false → t.padWritesOk = true →
        (t.rows.any fun r => field (addr64 r.1) 63 62 = 1 && s.convertedBad part (addr64 r.1) t.l0) = false →
        ∃ u, Machine.exec (.copyIn m k) s = .next u ∧ begins (s.mast m).calm (u.mast m).calm k p ∧ calmBut m s u ∧
          changesOnly readPieces s u) ∧
      (s.headOf m k 0x00 = some p → t.bad p.desc true = false → t.padWritesOk = false →
        ∃ u, Machine.exec (.copyIn m k) s = .next u ∧ holdsUp s u m 122 1) ∧
      (s.headOf m k 0x02 = some p → t.bad p.desc true = false → t.dmast < 192 → t.padReadsOk = true →
        t.padWritesOk = true → ∃ u, Machine.exec (.mesh m k) s = .next u ∧ begins (s.mast m) (u.mast m) k p ∧
          (u.mast m).pad = (s.mast m).pad ∧ mastsBut m s u ∧ changesOnly [.masts] s u) ∧
      (s.headOf m k 0x03 = some p → t.bad p.desc true = false → t.padReadsOk = true → t.padWritesOk = true →
        ∃ u, Machine.exec (.localCopy m k) s = .next u ∧ begins (s.mast m) (u.mast m) k p ∧ mastsBut m s u ∧
          changesOnly [.masts] s u)) ∧
  (∀ (s : State) (m k : Nat) (p : Posted), k < 2 →
      let t := transferOf p.desc
      let part := s.partOfMast m
      (s.headOf m k 0x01 = some p → t.bad p.desc false = false → t.padReadsOk = true →
        (t.rows.any fun r => field (addr64 r.2) 63 62 = 1 && (s.convertedBad part (addr64 r.2) t.l0 ||
          (match part with
            | some q => let g := s.region q (field (addr64 r.2) 61 56); g.len != 0 && g.vf == 4
            | none => false))) = false →
        ∃ u, Machine.exec (.copyOut m k) s = .next u ∧ begins (s.mast m).calm (u.mast m).calm k p ∧
          (u.mast m).pad = (s.mast m).pad ∧ calmBut m s u ∧
          changesOnly ([.grad, .panes, .lantern] ++ writePieces) s u) ∧
      (s.headOf m k 0x04 = some p → t.bad p.desc false = false → (t.fmt = 0 ∨ t.fmt = 2 ∨ t.fmt = 3) →
        t.padReadsOk = true → ∃ u, Machine.exec (.addOut m k) s = .next u ∧ begins (s.mast m).calm (u.mast m).calm k p ∧
          (u.mast m).pad = (s.mast m).pad ∧ calmBut m s u ∧ changesOnly ([.grad, .panes, .mem] ++ readPieces) s u)) ∧
  (∀ (s : State) (m k : Nat) (p : Posted), k < 2 → s.headOf m k 0x03 = some p →
      let t := transferOf p.desc
      t.n2 = 1 → t.n1 = 1 → t.tr = false → t.bad p.desc true = false → t.padReadsOk = true → t.padWritesOk = true →
      ∃ u, Machine.exec (.localCopy m k) s = .next u ∧
        ∀ b, (u.mast m).byte b = if t.daddr ≤ b ∧ b < t.daddr + t.l0 then (s.mast m).byte (t.saddr + (b - t.daddr))
          else (s.mast m).byte b)

/-- HALYARD_COMPLETE, MESH_ACK and MESH_ARRIVAL (R96, R115, R121): HALYARD_COMPLETE, once none of the stream's requests is
under way, and MESH_ACK complete the descriptor, with ERR where a COPY_IN met poisoned data (R199); an arrival at a Lit mast
of the same partition writes the transfer's bytes there, adds one to RCC where RCE asks for it and notes the arrival; one for
a mast of another partition or of none writes nothing, notes an error, and is counted in 3800h + d:05. -/
def Obligations.HalyardEnds : Prop :=
  ∀ (s : State) (m k : Nat) (r : Running), k < 2 → (s.mast m).run k = some r → (s.mast m).wild = none →
    let t := transferOf r.post.desc
    let dst := 192 * (m / 192) + t.dmast
    (descOp r.post.desc ≠ 2 → s.awaits (streamWho m k) = false → ∃ u, Machine.exec (.halyardComplete m k) s = .next u ∧
      completes (s.mast m) (u.mast m) k { r with err := r.err || s.copyInBad m r } ∧ mastsBut m s u ∧
      changesOnly [.masts] s u) ∧
    (r.arrived = true → ∃ u, Machine.exec (.meshAck m k) s = .next u ∧
      completes (s.mast m) (u.mast m) k r ∧ mastsBut m s u ∧ changesOnly [.masts] s u) ∧
    (descOp r.post.desc = 2 → r.arrived = false → s.partOfMast m ≠ none → s.partOfMast dst = s.partOfMast m →
      (s.mast dst).power = .lit → (s.mast dst).goal = none →
      ∃ u, Machine.exec (.meshArrival m k) s = .next u ∧
        (∀ b, (u.mast dst).byte b = r.bytes.foldl (fun v c => if c.1 = b then c.2 else v) ((s.mast dst).byte b)) ∧
        (∀ n, (u.mast dst).counter n = if t.rce = true ∧ n = t.rcc then
          { val := ((s.mast dst).counter n).val + 1#32, err := ((s.mast dst).counter n).err } else (s.mast dst).counter n) ∧
        (u.mast m).run k = some { r with arrived := true, bytes := [] } ∧
        (∀ n, n ≠ m → n ≠ dst → u.mast n = s.mast n) ∧ changesOnly [.masts] s u) ∧
    (descOp r.post.desc = 2 → r.arrived = false → (s.partOfMast m = none ∨ s.partOfMast dst ≠ s.partOfMast m) →
      ∃ u, Machine.exec (.meshArrival m k) s = .next u ∧
        u.mast m = (s.mast m).setRun k { r with arrived := true, err := true, bytes := [] } ∧
        counts s u (0x3800 + m / 192) 5 1 ∧ registersBut [(0x3800 + m / 192, 5)] s u ∧ mastsBut m s u ∧
        changesOnly [.masts, .dict, .rings] s u)

/-- MATMUL, ACLR, ADAPT and SEND start (R130, R143, R144, R157): with the rows free, a sheet slot where one is needed and
no host error the descriptor goes into execution with its record where SHEET asks for one (SEND always); the scratchpad
does not change; SEND computes nothing; a host error of R157 holds the mast up (log 51), and while a row is held nothing
happens.
MAINSAIL_COMPLETE (R136, R144, R145): the record goes to the end of the sheet queue with SEQ, the count of records
modulo 256, in its low bits; 3840h + d:06 counts the descriptor, and its counter is incremented. -/
def Obligations.MainsailDescriptors : Prop :=
  (∀ (s : State) (m : Nat) (p : Posted), sailReserved p.desc = false →
      let x := s.started m 2
      let q := sailOf p
      let rows := accRows q.arb q.mr
      let inter := if q.um ≠ 0 ∨ q.fin = true then q.interRows else []
      let room := fun (sheet : Bool) => sheet = true → x.sheet.length < 16
      let ok := fun (u : State) (sheet : Bool) => begins (s.mast m) (u.mast m) 2 p ∧
        (∃ r, (u.mast m).run 2 = some r ∧ r.record.isSome = sheet) ∧ (u.mast m).pad = (s.mast m).pad ∧ mastsBut m s u ∧
        registersBut [(0x3840 + m / 192, 1)] s u ∧ changesOnly [.masts, .dict] s u
      (s.headOf m 2 0x00 = some p → x.anyHeld rows = false → room q.sheet → matmulCheck q x = none →
        ∃ u, Machine.exec (.matmul m) s = .next u ∧ ok u q.sheet) ∧
      (∀ f, s.headOf m 2 0x00 = some p → x.anyHeld rows = false → room q.sheet → matmulCheck q x = some f →
        ∃ u, Machine.exec (.matmul m) s = .next u ∧ holdsUp s u m f.1 f.2) ∧
      (s.headOf m 2 0x00 = some p → x.anyHeld rows = true → Machine.exec (.matmul m) s = .next s) ∧
      (s.headOf m 2 0x01 = some p → x.anyHeld rows = false → room q.sheet →
        ∃ u, Machine.exec (.aclr m) s = .next u ∧ ok u q.sheet ∧
          (∀ row col, row ∈ rows → col < 64 → (u.mast m).accAt row col = 0#32 ∧ (u.mast m).rowInfo row = {}) ∧
          (∀ row col, row ∉ rows → col < 64 → (u.mast m).accAt row col = (s.mast m).accAt row col ∧
            (u.mast m).rowInfo row = (s.mast m).rowInfo row)) ∧
      (s.headOf m 2 0x02 = some p → x.anyHeld (rows ++ inter) = false → room q.sheet → adaptCheck q x = none →
        ∃ u, Machine.exec (.adapt m) s = .next u ∧ ok u q.sheet) ∧
      (s.headOf m 2 0x03 = some p → x.anyHeld rows = false → room true →
        ∃ u, Machine.exec (.send m) s = .next u ∧ ok u true ∧ (u.mast m).acc = (s.mast m).acc ∧
          (u.mast m).rows = (s.mast m).rows ∧ (u.mast m).planes = (s.mast m).planes)) ∧
  (∀ (s : State) (m : Nat) (r : Running), (s.mast m).run 2 = some r → (s.mast m).wild = none →
      let x := s.mast m
      let c := 0x3840 + m / 192
      ∃ u, Machine.exec (.mainsailComplete m) s = .next u ∧ completes x (u.mast m) 2 r ∧
        (∀ w, r.record = some w → (u.mast m).sheet = x.sheet ++ [w + x.seq % 256] ∧ (u.mast m).seq = (x.seq + 1) % 256) ∧
        (r.record = none → (u.mast m).sheet = x.sheet ∧ (u.mast m).seq = x.seq) ∧ (u.mast m).acc = x.acc ∧
        counts s u c 6 1 ∧ registersBut [(c, 6), (c, 7), (c, 8), (c, 9)] s u ∧ mastsBut m s u ∧
        changesOnly [.masts, .dict] s u)

/-- The operations of the jib: the command and its OP (Tables 5.4 to 5.6). -/
def jibRows : List ((Nat → Instr) × Nat) :=
  [(.copy, 0x00), (.jibAdd, 0x01), (.jibSub, 0x02), (.jibMul, 0x03), (.fma, 0x04), (.jibMin, 0x05), (.jibMax, 0x06),
   (.mul3, 0x07), (.exp, 0x08), (.log, 0x09), (.recip, 0x0A), (.rsqrt, 0x0B), (.sqrt, 0x0C), (.reluGrad, 0x10),
   (.geluGrad, 0x11), (.siluGrad, 0x12), (.sigmoidGrad, 0x13), (.rsum, 0x20), (.rsumsq, 0x21), (.rmax, 0x22),
   (.rmaxabs, 0x23), (.rmstat, 0x24), (.rmsstat, 0x25), (.norm, 0x28), (.skip, 0x3F)]

/-- Every operation of the jib starts (R159 to R172, R185): COPY, ADD, SUB, MUL, FMA, MIN, MAX, MUL3, EXP, LOG, RECIP,
RSQRT, SQRT, the four gradients, RSUM, RSUMSQ, RMAX, RMAXABS, RMSTAT, RMSSTAT, NORM and SKIP. With its sheet entries there
and no host error the descriptor goes into execution with its two summary words, to release SHN entries at its end where
REL asks for it; accumulator, sheet queue and counters stay as they are and no other mast changes. A host error of R185 holds
the mast up (log 51).
JIB_COMPLETE (R172, R181): where SEN is set the summary words stand in SREG and SREG + 1 of the thread that posted the
descriptor, the released sheet entries are gone, and the counter is incremented. -/
def Obligations.JibDescriptors : Prop :=
  (∀ row ∈ jibRows, ∀ (s : State) (m : Nat) (p : Posted), s.headOf m 3 row.2 = some p → jibReserved p = false →
      p.waitsForSheet (s.started m 3) = false →
      let check := (s.started m 3).jibCheck (jibOf p) ((s.mast m).sheet.take (jibOf p).shn)
      (check = none →
        ∃ u r, Machine.exec (row.1 m) s = .next u ∧ begins (s.mast m).calm (u.mast m).calm 3 p ∧ (u.mast m).run 3 = some r ∧
          r.summary.isSome = true ∧ r.taken = (if (jibOf p).rel then (jibOf p).shn else 0) ∧
          (u.mast m).acc = (s.mast m).acc ∧ calmBut m s u ∧ changesOnly (.lantern :: writePieces) s u) ∧
      (∀ f, check = some f → ∃ u, Machine.exec (row.1 m) s = .next u ∧ holdsUp s u m f.1 f.2)) ∧
  (∀ (s : State) (m : Nat) (r : Running), (s.mast m).run 3 = some r → (s.mast m).wild = none →
      let x := s.mast m
      let q := jibOf r.post
      let cc := descCc r.post.desc
      let c : Counter := { val := (x.counter cc).val + 1#32, err := (x.counter cc).err || r.err }
      let w := r.summary.getD (0, 0)
      let withWords := fun (j : Nat) =>
        if q.sen = true ∧ j = r.post.thread then
          ((x.thread j).setReg q.sreg (BitVec.ofNat 64 w.1)).setReg (q.sreg + 1) (BitVec.ofNat 64 w.2)
        else x.thread j
      ∃ u, Machine.exec (.jibComplete m) s = .next u ∧ (u.mast m).run 3 = none ∧ (u.mast m).counter cc = c ∧
        (∀ k, k ≠ cc → (u.mast m).counter k = x.counter k) ∧ (∀ j, (u.mast m).thread j = wokenBy cc c (withWords j)) ∧
        (u.mast m).sheet = x.sheet.drop r.taken ∧ (u.mast m).acc = x.acc ∧ (q.rwr = false → (u.mast m).pad = x.pad) ∧
        counts s u (0x3850 + m / 192) 5 1 ∧ counts s u (0x3850 + m / 192) 6 r.taken ∧
        registersBut [(0x3850 + m / 192, 5), (0x3850 + m / 192, 6), (0x3850 + m / 192, 7), (0x3850 + m / 192, 8)] s u ∧
        mastsBut m s u ∧ changesOnly [.masts, .dict] s u)

/-! ### Launch and power of a mast -/

/-- LAUNCH_COPY_DONE (R106): once none of the copy's requests is under way, the counters are cleared and the launch is over;
where nothing failed and VALID is set thread 0 is Ready at PC0 with s1 = ARG, otherwise no thread starts.
WICK_WAKE_DONE and DARK_WAKE_DONE (R119): a mast that wakes toward Lit is Lit and launches, counted in 3800h + d:06; out
of Dark it starts with its threads, counters and accumulator empty, out of Wick with its accumulator kept and the operand
cache zero; from Dark toward Wick it launches nothing. -/
def Obligations.MastLaunches : Prop :=
  (∀ (s : State) (m : Nat) (l : Launch), (s.mast m).launch = some l → (s.mast m).wild = none →
      s.awaits (streamWho m 0) = false →
      let x := s.mast m
      let cause := s.launchCause l
      ∃ u, Machine.exec (.launchCopyDone m) s = .next u ∧ (u.mast m).launch = none ∧ (∀ n, (u.mast m).counter n = {}) ∧
        (u.mast m).seq = 0 ∧
        (cause = 0 → l.valid = true → ((u.mast m).thread 0).run = .ready ∧ ((u.mast m).thread 0).pc = BitVec.ofNat 20 l.pc0 ∧
          ((u.mast m).thread 0).reg 1 = BitVec.ofNat 64 l.arg ∧ (∀ r, r ≠ 1 → ((u.mast m).thread 0).reg r = 0#64) ∧
          ∀ j, j ≠ 0 → (u.mast m).thread j = x.thread j) ∧
        (cause ≠ 0 ∨ l.valid = false → (u.mast m).threads = x.threads) ∧ (u.mast m).pad = x.pad ∧ mastsBut m s u ∧
        changesOnly [.masts, .rings] s u) ∧
  (∀ (s : State) (m : Nat), m < 3072 →
      let x := s.mast m
      (x.power = .wakingWick → ∃ u, Machine.exec (.wickWakeDone m) s = .next u ∧ (u.mast m).power = .lit ∧
        (u.mast m).cache = [] ∧ (u.mast m).acc = x.acc ∧ counts s u (0x3800 + m / 192) 6 1 ∧ calmBut m s u ∧
        changesOnly readPieces s u) ∧
      (x.power = .wakingDark → ∃ u, Machine.exec (.darkWakeDone m) s = .next u ∧ (u.mast m).power = .lit ∧
        (u.mast m).threads = [] ∧ (u.mast m).counters = [] ∧ (u.mast m).acc = [] ∧ counts s u (0x3800 + m / 192) 6 1 ∧
        calmBut m s u ∧ changesOnly readPieces s u) ∧
      (x.power = .wakingToWick → ∃ u, Machine.exec (.darkWakeDone m) s = .next u ∧ (u.mast m).power = .wick ∧
        (u.mast m).threads = [] ∧ (u.mast m).pad = [] ∧ (u.mast m).acc = [] ∧ (u.mast m).launch = none ∧ mastsBut m s u ∧
        changesOnly [.masts, .dict] s u))

/-- SHUTTER_ENTRY and SHUTTERED_WAKE (R117): an idle Lit mast goes to Shuttered, counted in 3800h + d:02, and comes back to
Lit when a thread is Ready, mesh traffic arrives or a power request came; nothing but its power state changes.
MAST_POWER_DOWN (R118, Table 3.10, R141): the pending request takes effect. Wick keeps scratchpad, accumulator and row
flags; Dark keeps nothing; threads, counters and queues are empty in both.
GRANT_REQUEST (R39, R42, R432, R468) of a sleeping mast whose 2320h asks for more is noted for the next pilot-clock edge, and
nothing else changes. There, in a Ready package, with the domain up, the mast not fenced and no stop of its partition, the
mast begins to wake and the clock tree of its die runs; refused, nothing changes. -/
def Obligations.MastPowerStates : Prop :=
  (∀ (s : State) (m : Nat),
      let x := s.mast m
      (s.mayShutter m = true → ∃ u, Machine.exec (.shutterEntry m) s = .next u ∧ u.mast m = { x with power := .shuttered } ∧
        counts s u (0x3800 + m / 192) 2 1 ∧ registersBut [(0x3800 + m / 192, 2)] s u ∧ mastsBut m s u ∧
        changesOnly [.masts, .dict] s u) ∧
      (x.power = .shuttered → ((x.threads.any fun e => e.2.run == .ready) = true ∨ s.meshBusy m = true ∨ x.goal.isSome = true) →
        ∃ u, Machine.exec (.shutteredWake m) s = .next u ∧ u.mast m = { x with power := .lit } ∧ mastsBut m s u ∧
          changesOnly [.masts] s u)) ∧
  (∀ (s : State) (m : Nat) (g : MastPower), (s.mast m).goal = some g → s.mayPowerDown m = true →
      let x := s.mast m
      ∃ u, Machine.exec (.mastPowerDown m) s = .next u ∧ (u.mast m).threads = [] ∧ (u.mast m).counters = [] ∧
        (u.mast m).queues = [] ∧ (u.mast m).goal = none ∧ (u.mast m).held = false ∧ (u.mast m).cache = [] ∧
        (g = .wick → (u.mast m).pad = x.pad ∧ (u.mast m).acc = x.acc ∧ (u.mast m).rows = x.rows) ∧
        (g ≠ .wick → (u.mast m).pad = [] ∧ (u.mast m).acc = [] ∧ (u.mast m).rows = []) ∧
        (x.held = false → (u.mast m).power = if g = .wick then .wick else .dark) ∧
        registersBut [(0x2000, 3)] s u ∧ mastsBut m s u ∧ changesOnly [.masts, .dict] s u) ∧
  (∀ (s : State) (m : Nat), m < 3072 → (s.mast m).goal = none →
      (((s.mast m).power = .wick ∧ s.mastRequest m = 0) ∨ ((s.mast m).power = .dark ∧ s.mastRequest m < 2)) →
      let x := s.mast m
      let open' : Bool := s.pkg == pkgReady && !x.fenced && !s.domainDown (m / 192) && !s.stopHolds m
      (m ∉ s.grants → Machine.exec (.grantRequest m) s = .next { s with grants := s.grants ++ [m] }) ∧
      (open' = true → (s.grantMast m).mast m = { x with power := if x.power = .wick then .wakingWick
                                                          else if s.mastRequest m = 0 then .wakingDark else .wakingToWick,
                                                        held := false } ∧
        bitOf ((s.grantMast m).val 0x2000 3) (m / 192) = true ∧ registersBut [(0x2000, 3)] s (s.grantMast m) ∧
        mastsBut m s (s.grantMast m) ∧ changesOnly [.masts, .dict] s (s.grantMast m)) ∧
      (open' = false → s.grantMast m = s))

/-! ### Memory, far caches and the training state -/

/-- DIRECTORY_REQUEST, FILL_ARRIVAL, FORWARDED_READ and INVALIDATE (R202 to R207): the protocol of a line. No byte of
memory and no scratchpad changes in any of them. A cache that evicts a line in E, S or F, or writes one in M back, holds it
no longer; a request to a line in a transaction waits at the end of its queue; a read of a line that no cache holds takes
two tracker entries and is the line's transaction.
The transaction whose data is there ends: an ownership leaves the line in M, a read or prefetch in a state that holds it, F
for a prefetch that no demand asked for, and a fill that was killed leaves nothing; a request served at the home leaves the
caches as they are. With nothing in the queue the line is free again.
A forwarded read leaves an M or E holder S; an invalidated line is gone or, where its fill is on the way, still pending. -/
def Obligations.CoherenceKeepsData : Prop :=
  (∀ (s : State) (g l : Nat) (ask : LineAsk), g < 18 →
      let old := s.dirEntry l
      let st := (s.line g l).map Line.st
      let who := cacheWho g
      let c := s.lineChannel l
      let q : LineReq := { agent := g, ask := ask, who := who, stamp := s.uses, halves := lineHalves l }
      let new := fun (h : Nat) => ({ half := h, who := who, pref := false, read := true, since := s.tick } : Access)
      (∃ u, Machine.exec (.directoryRequest g l ask) s = .next u ∧ calmAll s u ∧ changesOnly readPieces s u) ∧
      ((∀ e, e ∈ s.heldReqs → ¬(e.1 = l ∧ e.2.agent = g)) →
        (ask = .evict ∧ (st = some .e ∨ st = some .s ∨ st = some .f) ∨ ask = .writeback ∧ st = some .m) →
        ∃ u, Machine.exec (.directoryRequest g l ask) s = .next u ∧ u.line g l = none) ∧
      ((∀ e, e ∈ s.heldReqs → ¬(e.1 = l ∧ e.2.agent = g) ∧ e.2.who ≠ who) → ask ≠ .evict → ask ≠ .writeback →
        ask ≠ .prefetch → old.busy.isSome = true →
        ∃ u, Machine.exec (.directoryRequest g l ask) s = .next u ∧
          u.dirEntry l = { old with waiting := old.waiting ++ [q] }) ∧
      ((∀ e, e ∈ s.heldReqs → ¬(e.1 = l ∧ e.2.agent = g) ∧ e.2.who ≠ who) → ask = .read → old = {} →
        s.refusal c who 2 = none →
        ∃ u, Machine.exec (.directoryRequest g l ask) s = .next u ∧ u.dirEntry l = { old with busy := some q } ∧
          (u.tracker c).order = (s.tracker c).order ++ [new (2 * l), new (2 * l + 1)])) ∧
  (∀ (s : State) (g l : Nat) (q : LineReq), (s.dirEntry l).busy = some q → q.agent = g → s.fillReady l q = true →
      s.remote = [] →
      let x := s.dirEntry l
      let pending := fun (y : Line) => ∃ p k d, y.st = .pending p k d
      let killed := fun (y : Line) => ∃ p d, y.st = .pending p true d
      let free := fun (u : State) => x.waiting = [] → (u.dirEntry l).busy = none ∧ (u.dirEntry l).waiting = []
      ∃ u, Machine.exec (.fillArrival g l) s = .next u ∧ calmAll s u ∧ changesOnly readPieces s u ∧
        (q.ask = .own ∨ q.ask = .ownWhole → x.waiting = [] → free u ∧ ∃ y, u.line g l = some y ∧ y.st = .m) ∧
        (∀ y, q.ask = .read ∨ q.ask = .prefetch → x.waiting = [] → s.line g l = some y → pending y → ¬killed y →
          y.own = false → free u ∧ bitOf (u.dirEntry l).presence g = true ∧
            ∃ z, u.line g l = some z ∧ (z.st = .e ∨ z.st = .s ∨ z.st = .f) ∧
              (y.st = .pending true false false → z.st = .f)) ∧
        (∀ y p, q.ask = .read ∨ q.ask = .prefetch → x.waiting = [] → s.line g l = some y → y.st = .pending p true false →
          free u ∧ u.line g l = none) ∧
        (∀ op, q.ask = .atHome op → x.waiting = [] → free u ∧ u.lines = s.lines)) ∧
  (∀ (s : State) (g l : Nat),
      (∃ u, Machine.exec (.forwardedRead g l) s = .next u ∧
        (∀ x, s.line g l = some x → (x.st = .m ∨ x.st = .e) → u.line g l = some { x with st := .s } ∧
          (u.dirEntry l).owner = none) ∧
        (∀ x, s.line g l = some x → x.st ≠ .m → x.st ≠ .e → u = s) ∧ (s.line g l = none → u = s) ∧
        changesOnly [.directory, .lines] s u) ∧
      (∃ u, Machine.exec (.invalidate g l) s = .next u ∧
        (u.line g l = none ∨ ∃ x a b c, u.line g l = some x ∧ x.st = .pending a b c) ∧
        (g < 16 → counts s u (0x3200 + g) 4 1) ∧ registersBut [(0x3200 + g, 4), (0x3280 + g, 4)] s u ∧ calmAll s u ∧
        changesOnly [.masts, .directory, .lines, .dict] s u))

/-- MEM_ACCESS_COMPLETE and TRACKER_GRANT_TIMEOUT (R198, R199, R209 to R212): the access that the pseudo-channel's scheduler
picks ends, its entry is free and granted on, counted in 3100h + d:05. Of a half that was read up to three wrong symbols are
corrected, counted in 3000h + d:01, and four or five leave it poisoned, counted in :02; up to five change no byte of memory.
An entry whose grant was not used in 5 pilot ticks passes to the next requester.
PATROL_SCRUB, HBM_TEMP_SAMPLE and HOT_WINDOW_END (R200, R201, R218): the scrub advances by one granule half and begins
anew after the last, counted in 3000h + d:07; a stack throttles at the threshold of 3000h + d:08, stops 5 °C below it and
keeps its state in between; a window's end leaves every channel of the die at count zero. The last two run once their 25,000
ticks have passed. -/
def Obligations.MemoryDeviceEvents : Prop :=
  (∀ (s : State) (c wrong : Nat) (a : Access), c < 2048 → s.nextAccess c = some a → s.val 0x2410 (c / 128 + 1) ≠ 5 →
      s.remote = [] →
      let d := c / 128
      let left : Tracker := { s.tracker c with order := (s.tracker c).order.erase a }
      ∃ u, Machine.exec (.memAccessComplete c wrong) s = .next u ∧ u.tracker c = left.grantNext (s.val 0x3180 1) s.tick ∧
        (∀ k, k ≠ c → u.tracker k = s.tracker k) ∧ counts s u (0x3100 + d) 5 1 ∧
        (a.read = true → 1 ≤ wrong → wrong ≤ 3 → counts s u (0x3000 + d) 1 1) ∧
        (a.read = true → 4 ≤ wrong → wrong ≤ 5 → a.half ∈ u.poisoned ∧ counts s u (0x3000 + d) 2 1) ∧
        (a.read = false ∨ wrong ≤ 3 → u.poisoned = s.poisoned) ∧ (a.read = false ∨ wrong ≤ 5 → u.mem = s.mem) ∧
        registersBut [(0x3100 + d, 1), (0x3100 + d, 5), (0x3000 + d, 1), (0x3000 + d, 2)] s u ∧
        changesOnly [.trackers, .openRows, .mem, .poisoned, .dict, .rings, .free] s u) ∧
  (∀ (s : State) (c : Nat) (w : Waiter) (r : List Waiter), (s.tracker c).granted = w :: r → w.since + 5 ≤ s.tick →
      ∃ u, Machine.exec (.trackerGrantTimeout c) s = .next u ∧
        u.tracker c = ({ s.tracker c with granted := r } : Tracker).grantNext (s.val 0x3180 1) s.tick ∧
        (∀ k, k ≠ c → u.tracker k = s.tracker k) ∧ changesOnly [.trackers] s u) ∧
  (∀ (s : State) (k d temp wrong : Nat),
      let x := FMap.get s.hbm k {}
      let limit := s.val (0x3000 + k / 2) 8
      (k < 32 → ∃ u, Machine.exec (.patrolScrub k wrong) s = .next u ∧
        (FMap.get u.hbm k {}).scrub = (if x.scrub + 1 < s.stackHalves then x.scrub + 1 else 0) ∧
        (s.stackHalves ≤ x.scrub + 1 → counts s u (0x3000 + k / 2) 7 1) ∧
        (wrong ≤ 5 → u.mem = s.mem) ∧ (wrong ≤ 3 → u.poisoned = s.poisoned) ∧
        (∀ j, j ≠ k → FMap.get u.hbm j {} = FMap.get s.hbm j {}) ∧
        registersBut [(0x3000 + k / 2, 1), (0x3000 + k / 2, 2), (0x3000 + k / 2, 7)] s u ∧
        changesOnly [.hbm, .mem, .poisoned, .dict, .rings, .free] s u) ∧
      (k < 32 → x.since + msTicks ≤ s.tick → ∃ u, Machine.exec (.hbmTempSample k temp) s = .next u ∧
        (FMap.get u.hbm k {}).temp = temp ∧ (FMap.get u.hbm k {}).since = s.tick ∧
        (FMap.get u.hbm k {}).throttle = (if limit ≤ temp then true else if temp + 5 ≤ limit then false else x.throttle) ∧
        (∀ j, j ≠ k → FMap.get u.hbm j {} = FMap.get s.hbm j {}) ∧
        registersBut [(0x3000 + k / 2, 4 + k % 2), (0x3000 + k / 2, 6)] s u ∧ changesOnly [.hbm, .dict, .rings] s u) ∧
      (d < 16 → FMap.get s.hotSince d 0 + msTicks ≤ s.tick → ∃ u, Machine.exec (.hotWindowEnd d) s = .next u ∧
        (∀ c, c / 128 = d → (FMap.get u.hot c {}).count = 0) ∧ FMap.get u.hotSince d 0 = s.tick ∧
        registersBut [(0x3300 + d, 1), (0x3300 + d, 2), (0x3300 + d, 3), (0x3300 + d, 4)] s u ∧
        changesOnly [.hot, .hotSince, .dict, .rings] s u))

/-- PANE_DRAIN_END (R240, R241): a drained pane is Empty and its bytes are zero; starts that it holds stay.
LANTERN_FLUSH (R254): no count of the die is left outside memory, and those of other dies stay as they are.
HELD_DRAIN_START (R240): the oldest held start of a pane that does not drain leaves the pane's list; one whose phase is over
does nothing else; one whose phase is Active drains: the pane of the phase is Draining for it, the bytes that it drains are
zero and are counted in 3600h + d:02, and, within the package while another die's values are still to come, nothing else
follows. -/
def Obligations.TrainingEvents : Prop :=
  ∀ (s : State) (d p k : Nat), d < 16 → p < 16 → k < 2 →
    let b := (s.paneSpan p d k).1
    let n := (s.paneSpan p d k).2
    let y := s.pane p d k
    (y.draining = true → ∃ u, Machine.exec (.paneDrainEnd d p k) s = .next u ∧
      u.pane p d k = { y with st := .empty } ∧
      (∀ a, FMap.get u.grad a 0#8 = if gradKey d b ≤ a ∧ a < gradKey d (b + n) then 0#8 else FMap.get s.grad a 0#8) ∧
      (∀ q e j, q < 16 → e < 16 → j < 2 → (q, e, j) ≠ (p, d, k) → u.pane q e j = s.pane q e j) ∧
      changesOnly [.grad, .panes] s u) ∧
    (∃ u, Machine.exec (.lanternFlush d) s = .next u ∧
      (∀ key, FMap.get u.lantern key 0 = if key / 83886080 = d then 0 else FMap.get s.lantern key 0) ∧ calmAll s u ∧
      changesOnly (.lantern :: writePieces) s u) ∧
    (∀ slot i rest, y.held = (slot, i) :: rest → y.draining = false →
      let popped := s.setPane p d k { y with held := rest }
      let h := s.head slot
      let x := s.phase slot i
      let from' := (s.paneSpan h.part d x.pane).1
      ((s.plan slot).st ≠ 3 ∨ (s.plan slot).phase ≠ i → Machine.exec (.heldDrainStart d p k) s = .next popped) ∧
      (∃ u, Machine.exec (.heldDrainStart d p k) s = .next u ∧ changesOnly planPieces s u) ∧
      ((s.plan slot).st = 3 → (s.plan slot).phase = i → x.axis = 0 →
        (popped.drainPane slot i d h x).insideReady slot x (maskDies x.mask) = false →
        ∃ u, Machine.exec (.heldDrainStart d p k) s = .next u ∧ (u.pane h.part d x.pane).st = .draining slot i ∧
          (∀ a, FMap.get u.grad a 0#8 = if gradKey d from' ≤ a ∧ a < gradKey d (from' + 4 * x.count) then 0#8
            else FMap.get s.grad a 0#8) ∧ counts s u (0x3600 + d) 2 x.count ∧ calmAll s u ∧
          changesOnly ([.grad, .panes, .lantern, .plans] ++ writePieces) s u))

/-- TRIM_CHECK, TRIM_HELD_RECHECK and TRIM_UPDATE_COMPLETE (R246, R272, R279): the next entry of a die runs where no reference
holds its target slot, which is marked as being written, and is held otherwise, counted in 3600h + d:09; one that meets a
host error of R279 is held up where it is, the model's reading of an unpredictable result (log 51). A held entry is checked
again once the references are gone. An update that ends leaves its entry Idle, the slot that it wrote current and the update
counted in 6350h + d:03 and 6300h + g:0E; where no chunk waits and no phase is Active nothing else follows. -/
def Obligations.TrimEvents : Prop :=
  ∀ (s : State) (d p e : Nat),
    let x := s.trim p e
    let shard := trimRecord x.words
    let a := shard + 8 * s.targetSlot shard
    let place := s.trimAddr p e + 56
    (s.nextCheck d = some (p, e) → s.trimsRunning d < 4 → s.trimHostError p e x = none →
      ∃ u, Machine.exec (.trimCheck d) s = .next u ∧
        (s.load a 8 % 2 ^ 32 = 0 → u.trim p e = { x with st := .running, slot := s.targetSlot shard } ∧
          u.load a 8 = s.load a 8 + 2 ^ 31 ∧ ∀ b, (b < a ∨ a + 8 ≤ b) → u.byte b = s.byte b) ∧
        (s.load a 8 % 2 ^ 32 ≠ 0 → u.trim p e = { x with st := .held } ∧ u.mem = s.mem ∧
          (d < 16 → counts s u (0x3600 + d) 9 1)) ∧ calmAll s u ∧
        changesOnly (.trims :: writePieces) s u) ∧
    (∀ item, s.nextCheck d = some (p, e) → s.trimsRunning d < 4 → s.trimHostError p e x = some item →
      ∃ u, Machine.exec (.trimCheck d) s = .next u ∧ u.trim p e = { x with wild := some item } ∧ changesOnly [.trims] s u) ∧
    (x.st = .held → s.load a 8 % 2 ^ 31 = 0 → ∃ u, Machine.exec (.trimHeldRecheck p e) s = .next u ∧
      u.trim p e = { x with st := .checking } ∧ changesOnly [.trims] s u) ∧
    (x.st = .running → ∃ u, Machine.exec (.trimUpdateComplete p e) s = .next u ∧ changesOnly planPieces s u ∧
      (s.holds = [] → (∀ k, (s.plan k).st ≠ 3) → (place + 4 ≤ shard + 16 ∨ shard + 24 ≤ place) → x.slot < 2 →
        u.trim p e = {} ∧ u.load (shard + 16) 8 = x.slot ∧ counts s u (0x6350 + trimDie x.words) 3 1 ∧
        counts s u (0x6300 + trimGroup x.words) 0xE 1 ∧ calmAll s u ∧ changesOnly (.trims :: writePieces) s u))

/-! ### The vertical bond and the ratlines -/

/-- BOND_BEAT_RECEIVE (R283, R284): a beat of the sender, new or the next of a replay, whose CRC and sideband word pass is
handed on, and the halves of the data group are charged for its failed copies. One that fails is counted in 4900h + d:02, and
where the CRC failed in :01, and is awaited again. New beats that come while a replay is awaited are kept for it and reach
nobody.
BOND_WINDOW_END (R284), once 25,000,000 ticks have passed: no error is charged any more on any mast of the die. -/
def Obligations.BondEvents : Prop :=
  (∀ (s : State) (m flips : Nat) (beat : Option Nat) (upward bad : Bool), m < 3072 → (s.mast m).bonded = true →
      let x := s.mast m
      let g := x.bond.dir upward
      let c := 0x4900 + m / 192
      let kept := match beat with | some b => (b % 2 ^ 1024 :: g.held).take 8 | none => g.held
      let sent := kept.getD (g.back - 1) 0
      let failed : Bool := crc16 (sent ^^^ flips % 2 ^ 1024) 128 != crc16 sent 128
      let only := fun (u : State) => u.mast m = { x with bond := (u.mast m).bond } ∧
        (u.mast m).bond.dir (!upward) = x.bond.dir (!upward) ∧ ((u.mast m).bond.dir upward).held = kept ∧ mastsBut m s u
      ((beat.isSome = true ↔ g.back = 0) → failed = false → bad = false →
        ∃ u, Machine.exec (.bondBeatReceive m upward beat flips bad) s = .next u ∧ only u ∧
          u.outbox = ⟨.bond, m, if upward then 1 else 0, ⟨128, sent⟩⟩ :: s.outbox ∧
          ((u.mast m).bond.dir upward).back = g.back - 1 ∧
          (u.mast m).bond.lowErr = (g.wrong.foldl Bond.charge x.bond).lowErr ∧
          (u.mast m).bond.upErr = (g.wrong.foldl Bond.charge x.bond).upErr ∧ changesOnly [.masts, .outbox] s u) ∧
      ((beat.isSome = true ↔ g.back = 0) → failed = true ∨ bad = true →
        ∃ u, Machine.exec (.bondBeatReceive m upward beat flips bad) s = .next u ∧ only u ∧
          ((u.mast m).bond.dir upward).back = max g.back 1 ∧ (u.mast m).bond.lowErr = x.bond.lowErr ∧
          (u.mast m).bond.upErr = x.bond.upErr ∧ (failed = true → counts s u c 1 1) ∧
          (failed = false → u.obj c 1 = s.obj c 1) ∧ counts s u c 2 1 ∧ counts s u 0x7170 1 1 ∧
          registersBut [(c, 1), (c, 2), (0x7170, 1)] s u ∧ changesOnly [.masts, .dict] s u) ∧
      (beat.isSome = true → 1 ≤ g.back → g.back < 8 →
        ∃ u, Machine.exec (.bondBeatReceive m upward beat flips bad) s = .next u ∧ only u ∧
          ((u.mast m).bond.dir upward).back = g.back + 1 ∧ changesOnly [.masts] s u)) ∧
  (∀ (s : State) (d : Nat), d < 16 → FMap.get s.bondSince d 0 + 25000000 ≤ s.tick →
      ∃ u, Machine.exec (.bondWindowEnd d) s = .next u ∧ FMap.get u.bondSince d 0 = s.tick ∧
        (∀ n, n / 192 = d → (u.mast n).bond.lowErr = 0 ∧ (u.mast n).bond.upErr = 0 ∧ (u.mast n).bond.sideErr = 0) ∧
        (∀ n, n / 192 ≠ d → u.mast n = s.mast n) ∧
        changesOnly [.masts, .trackers, .heldReqs, .dict, .rings, .bondSince] s u)

/-- RATLINE_NAK, RATLINE_CREDIT, RATLINE_RETRY_TIMEOUT, RATLINE_IDLE and RATLINE_CONTROL_RESEND (R290 to R293, R303): a NAK
sets up the replay of every held flit from the number that it names; a timeout after 2 µs sets up the replay of all that is
held; CREDIT brings the totals freed to the sender, and an idle flit acknowledges what its sender has received in order; a
control word that was not answered is sent again. No direction changes its state, width or map. -/
def Obligations.RatlineRetry : Prop :=
  ∀ (s : State) (d side e : Nat), d < 16 → neighbourDie d side = some e →
    let f := s.flow d side
    let b := s.flow e (oppositeSide side)
    (∀ n rest, f.naks = n :: rest → (s.rat d side).carries = true →
      ∃ u, Machine.exec (.ratlineNak d side) s = .next u ∧ (u.flow d side).naks = rest ∧
        (u.flow d side).held = f.held.filter (fun q => decide (n ≤ q.1)) ∧ (u.flow d side).replay = (u.flow d side).held ∧
        changesOnly [.flows] s u) ∧
    ((s.rat d side).carries = true → ∃ u, Machine.exec (.ratlineCredit d side) s = .next u ∧
      (u.flow d side).known = f.freed ∧ (u.flow d side).held = f.held.filter (fun q => decide (f.next ≤ q.1)) ∧
      u.outbox.length = s.outbox.length + 2 ∧ ratsSteady s u ∧ changesOnly [.flows, .rats, .outbox] s u) ∧
    ((s.rat d side).carries = true → f.held ≠ [] → f.moved + 50 ≤ s.tick →
      ∃ u, Machine.exec (.ratlineRetryTimeout d side) s = .next u ∧
        u.flow d side = { f with moved := s.tick, replay := f.held } ∧ counts s u 0x7170 1 1 ∧
        registersBut [(0x7170, 1)] s u ∧ changesOnly [.flows, .dict] s u) ∧
    ((s.rat d side).carries = true → ∃ u, Machine.exec (.ratlineIdle d side) s = .next u ∧
      (u.flow e (oppositeSide side)).held = b.held.filter (fun q => decide (b.next ≤ q.1)) ∧
      u.outbox.length = s.outbox.length + 1 ∧ ratsSteady s u ∧ changesOnly [.flows, .rats, .outbox] s u) ∧
    (1 ≤ f.asked → f.asked ≤ 3 → ∃ u, Machine.exec (.ratlineControlResend d side) s = .next u ∧
      u.outbox.length = s.outbox.length + 1 ∧ ratsSteady s u ∧ changesOnly [.rats, .outbox] s u)

/-- RATLINE_DATA_FLIT (R289, R291, R292, R303): a new flit, against credit and while fewer than 256 are unacknowledged, is
held by its sender until it is acknowledged; arriving whole and in order it is handed on, and its receiver expects the next;
one whose CRC fails is discarded, counted in 4800h + d:0D + side, and one NAK asks for what is expected. The next flit of a
replay is counted in 4800h + d:11 + side, and is handed on where it is the one expected. -/
def Obligations.RatlineDataFlits : Prop :=
  ∀ (s : State) (d side e flips : Nat), d < 16 → neighbourDie d side = some e →
    let f := s.flow d side
    let back := s.flow e (oppositeSide side)
    let word := fun (n : Nat) (b : RatBody) => ratFlit n (back.next + 511) (back.next != 0) b ^^^ flips % 2 ^ 512
    let handed := fun (u : State) (b : RatBody) =>
      u.outbox = ⟨.ratline, 4 * d + side, 0, ⟨b.fill, b.body % 2 ^ (8 * b.fill)⟩⟩ :: s.outbox
    let bad := fun (u : State) => (u.flow d side).next = f.next ∧ (u.flow d side).nak = true ∧
      (u.flow d side).naks = (if f.nak then f.naks else f.naks ++ [f.next]) ∧ counts s u (0x4800 + d) (0x0D + side) 1
    let good := fun (u : State) (b : RatBody) =>
      (u.flow d side).next = f.next + 1 ∧ (u.flow d side).nak = false ∧ handed u b
    (∀ b, f.replay = [] → s.val 0x4830 (linkOf d side + 1) ≠ 1 → (s.rat d side).live = true → f.held.length < 256 →
      f.credit b = true → b.vc < 15 →
      ∃ u, Machine.exec (.ratlineDataFlit d side (some b) flips) s = .next u ∧ (u.flow d side).sent = f.sent + 1 ∧
        (u.flow d side).held = f.held ++ [(f.sent, b)] ∧ (ratCrcOk (word f.sent b) = false → bad u) ∧
        (flips = 0 → f.sent = f.next → good u b) ∧ ratsSteady s u ∧
        changesOnly [.flows, .rats, .dict, .outbox] s u) ∧
    (∀ n b rest, f.replay = (n, b) :: rest → (s.rat d side).carries = true →
      ∃ u, Machine.exec (.ratlineDataFlit d side none flips) s = .next u ∧ (u.flow d side).sent = f.sent ∧
        (u.flow d side).replay = rest ∧ counts s u (0x4800 + d) (0x11 + side) 1 ∧
        (ratCrcOk (word n b) = false → bad u) ∧ (flips = 0 → n = f.next → good u b) ∧
        (flips = 0 → n < f.next → (u.flow d side).next = f.next ∧ u.outbox = s.outbox) ∧ ratsSteady s u ∧
        changesOnly [.flows, .rats, .dict, .outbox] s u)

/-- RATLINE_ELECTRICAL_DONE, RATLINE_WIDTH, RATLINE_MAP_TIMEOUT, RATLINE_TRAINING_FRAMES_SEEN and
RATLINE_MAP_EXCHANGE_DONE (R298 to R301): with at least 16 healthy lanes a direction goes on to map exchange, where the word
of a transmitter of the same generation, less the lanes that it has retired, is noted. Too few lanes, a word of another
generation, or 100 µs without an agreement fail the training, counted in 4800h + d:15h + side: it begins again, and after the
third failure in a row the link is Down. Training frames on a Live direction bring it back to map exchange with its retired
lanes kept; where two words agree on a width the direction is Live with it.
RATLINE_LANE_WINDOW_END, RATLINE_RETIRE, RATLINE_SWITCH and RATLINE_LINK_OFF (R294 to R297, R305): after 25,000,000 ticks
the errors charged are cleared; where no lane reached the threshold of 4820h:01 nothing else happens, a lane of a Live
direction that did gives way to the lowest spare, and with no spare the direction trains again without it. The sender takes
up the retirement, and a spare that locks takes the place of the lane, which both ends retire; one that does not lock brings
the direction back to map exchange while 16 lanes are left. A drained link that 4830h disables carries nothing any more. -/
def Obligations.RatlineStates : Prop :=
  (∀ (s : State) (d side e bad : Nat) (w : WidthWord), d < 16 → neighbourDie d side = some e →
        let x := s.rat d side
        let tested := { x with bad := bad % 2 ^ 34 }
        let again := fun (u : State) => (u.rat d side).st = ratElectrical ∧ (u.rat d side).fails = x.fails + 1 ∧
          counts s u (0x4800 + d) (0x15 + side) 1 ∧ registersBut [(0x4800 + d, 0x15 + side)] s u ∧ changesOnly [.rats, .dict] s u
        let down := fun (u : State) => (u.rat d side).st = ratDown ∧ (u.rat e (oppositeSide side)).st = ratDown ∧
          changesOnly linkPieces s u
        let fails := fun (c : Instr) => (x.fails < 2 → ∃ u, Machine.exec c s = .next u ∧ again u) ∧
          (2 ≤ x.fails → (s.rat e (oppositeSide side)).st ≠ ratDown → ∃ u, Machine.exec c s = .next u ∧ down u)
        (x.st = ratElectrical → 16 ≤ popCount tested.healthy 34 →
          ∃ u, Machine.exec (.ratlineElectricalDone d side bad) s = .next u ∧ (u.rat d side).st = ratMapping ∧
            (u.rat d side).bad = bad % 2 ^ 34 ∧ changesOnly [.rats, .flows] s u) ∧
        (x.st = ratElectrical → popCount tested.healthy 34 < 16 → fails (.ratlineElectricalDone d side bad)) ∧
        (x.st = ratMapping → w.gen = 2 → ∃ u, Machine.exec (.ratlineWidth d side w) s = .next u ∧
          (u.flow d side).claimed = some (x.drives w) ∧ changesOnly [.flows] s u) ∧
        (x.st = ratMapping → w.gen ≠ 2 → fails (.ratlineWidth d side w)) ∧
        (x.st = ratMapping → x.since + 2500 ≤ s.tick → fails (.ratlineMapTimeout d side)) ∧
        (x.live = true → ∃ u, Machine.exec (.ratlineTrainingFramesSeen d side) s = .next u ∧
          (u.rat d side).st = ratMapping ∧ (u.rat d side).retR = x.retR ∧ (u.rat d side).retT = x.retT ∧
          changesOnly [.rats, .flows] s u) ∧
        (x.st = ratMapping → (s.flow d side).claimed = some w → (settleWords x.word w).2 ≠ 0 →
          ∃ u, Machine.exec (.ratlineMapExchangeDone d side) s = .next u ∧ (u.rat d side).st = ratLive ∧
            (u.rat d side).width = (settleWords x.word w).2 ∧ (u.rat d side).agreed = (settleWords x.word w).1 ∧
            (u.rat d side).fails = 0 ∧ (u.flow d side).asked = 0 ∧ changesOnly [.rats, .flows, .dict, .rings] s u)) ∧
  (∀ (s : State) (d side e lane sp : Nat), d < 16 → neighbourDie d side = some e →
      let x := s.rat d side
      let f := s.flow d side
      let worn := (lanesIn x.map).filter fun n => decide (s.val 0x4820 1 ≤ FMap.get x.errors n 0)
      let due := x.window + 25000000 ≤ s.tick
      let left := fun (gone : List Nat) => popCount (without (without x.agreed (x.retR ||| laneMask gone)) x.bad) 34
      (due → worn = [] → ∃ u, Machine.exec (.ratlineLaneWindowEnd d side) s = .next u ∧
        u.rat d side = { x with errors := [], window := s.tick } ∧ changesOnly [.rats] s u) ∧
      (∀ rest, due → worn = lane :: rest → x.st = ratLive → x.spare = some sp →
        ∃ u, Machine.exec (.ratlineLaneWindowEnd d side) s = .next u ∧ (u.rat d side).st = ratSwitching ∧
          (u.flow d side).swap = some (lane, sp) ∧ (u.flow d side).asked = 1 ∧ (u.flow d side).waiting = rest ∧
          counts s u 0x7170 2 1 ∧ changesOnly [.rats, .flows, .dict, .outbox] s u) ∧
      (due → worn ≠ [] → x.st = ratLive → x.spare = none → 16 ≤ left worn →
        ∃ u, Machine.exec (.ratlineLaneWindowEnd d side) s = .next u ∧ (u.rat d side).st = ratMapping ∧
          (u.rat d side).retR = x.retR ||| laneMask worn ∧ counts s u 0x7170 3 1 ∧
          changesOnly [.rats, .flows, .dict] s u) ∧
      (f.asked = 1 → f.swap = some (lane, sp) → f.swapSeq ≤ f.sent → ∃ u, Machine.exec (.ratlineRetire d side) s = .next u ∧
        (u.rat d side).retT = setBit x.retT lane true ∧ (u.flow d side).asked = 3 ∧
        changesOnly [.rats, .flows, .outbox] s u) ∧
      (f.asked = 3 → f.swap = some (lane, sp) → f.waiting = [] →
        ∃ u, Machine.exec (.ratlineSwitch d side true) s = .next u ∧ (u.rat d side).st = ratLive ∧
          (u.rat d side).map = setBit (setBit x.map lane false) sp true ∧ (u.rat d side).retR = setBit x.retR lane true ∧
          (u.flow d side).asked = 0 ∧ (u.flow d side).swap = none ∧ changesOnly [.rats, .flows, .rings] s u) ∧
      (f.asked = 3 → f.swap = some (lane, sp) → 16 ≤ left (lane :: (f.waiting ++ [sp])) →
        ∃ u, Machine.exec (.ratlineSwitch d side false) s = .next u ∧ (u.rat d side).st = ratMapping ∧
          (u.rat d side).retR = x.retR ||| laneMask (lane :: (f.waiting ++ [sp])) ∧
          changesOnly [.rats, .flows, .dict] s u)) ∧
  (∀ (s : State) (l : Nat), l < 24 → s.val 0x4830 (l + 1) = 1 →
      (∀ n, n ∈ linkDirs l → (s.flow n.1 n.2).held = [] ∧ (s.rat n.1 n.2).st ≠ ratPending) →
      (∃ n, n ∈ linkDirs l ∧ (s.rat n.1 n.2).st ≠ ratOff ∧ (s.rat n.1 n.2).st ≠ ratDown) → s.resetting 4 (l + 8) = false →
      ∃ u, Machine.exec (.ratlineLinkOff l) s = .next u ∧
        (∀ n, n ∈ linkDirs l → (u.rat n.1 n.2).st = ratOff ∨ (u.rat n.1 n.2).st = ratDown) ∧
        changesOnly linkPieces s u)

/-! ### External ports -/

/-- STAY_PRESENCE_DETECTED, STAY_RATE_ALTERNATE and STAY_ELECTRICAL_DONE (R319, R321, R323, R334): presence leads to
electrical training; a rate that does not lock within 50 ms gives way to the other, a port that had returned for its higher
rate comes back to the lower one; where that has been tried the training has failed, and the third failure in a row takes
the port Down. With lanes agreed and a link latency of at most 600 ns the port goes on to step 3, with a longer one it is quarantined
with cause 12, with no width it is Down. -/
def Obligations.StayTraining : Prop :=
  ∀ (s : State) (p healthy ns : Nat) (w : WidthWord), p < 7 →
    let x := s.port p
    let own := s.portWord p healthy
    let settled := (settlePort p own { w with gen := own.gen }).2
    let late := x.link.st = portElectrical ∧ x.since + 1250000 ≤ s.tick
    let next := fun (l : PortLink) => ∃ u, Machine.exec (.stayRateAlternate p) s = .next u ∧
      u.port p = { x with link := l, since := s.tick } ∧ (∀ q, q ≠ p → u.port q = s.port q) ∧ changesOnly [.ports] s u
    (x.link.st = portPresence → ∃ u, Machine.exec (.stayPresenceDetected p) s = .next u ∧
      u.port p = { x with link := { x.link with st := portElectrical, slow := false, trials := 0, again := 0 },
                          since := s.tick } ∧
      (∀ q, q ≠ p → u.port q = s.port q) ∧ changesOnly [.ports] s u) ∧
    (late → x.link.trials < 3 → next { x.link with trials := x.link.trials + 1,
                                                   slow := if x.link.again = 0 then !x.link.slow else x.link.slow }) ∧
    (late → 3 ≤ x.link.trials → x.link.again = 1 → next { x.link with again := 2, slow := true, trials := 0 }) ∧
    (late → 3 ≤ x.link.trials → x.link.again ≠ 1 → x.link.fails < 2 →
      next { x.link with fails := x.link.fails + 1, trials := 0, slow := x.link.again == 2 }) ∧
    (late → 3 ≤ x.link.trials → x.link.again ≠ 1 → 2 ≤ x.link.fails →
      ∃ u, Machine.exec (.stayRateAlternate p) s = .next u ∧ u.portState p = portDown ∧ changesOnly portPieces s u) ∧
    (x.link.st = portElectrical → ∃ u, Machine.exec (.stayElectricalDone p healthy ns w) s = .next u ∧
      u.portState p = (if settled = 0 then portDown else if 600 < (ns + 1) / 2 then portQuarantined else portCapability) ∧
      (settled ≠ 0 → (u.port p).link.width = settled ∧ (u.port p).link.latency = (ns + 1) / 2) ∧
      (settled ≠ 0 → 600 < (ns + 1) / 2 → (u.port p).link.cause = 12) ∧ changesOnly portPieces s u)

/-- CAPABILITY, IDENTITY and KEYING (R316, R321 to R327): the steps of the agreement. Once this side's word is acknowledged
too, no common generation quarantines the port with cause 1, and so does no common rate, the model's choice (log 36); a
common one leads to step 4, or once back to step 2 where both could run faster. A chain that is not accepted quarantines with
cause 2, a signature that fails with cause 3, key material that fails with cause 4; a good identity brings a generation-2
partner to keying, a generation-1 partner to the checks of steps 6 and 7, and so do keys that are agreed. A renewal of the keys
of a Live port takes the new one for its own direction and asks for a KEYSWITCH. -/
def Obligations.StayAgreement : Prop :=
  ∀ (s : State) (p : Nat) (c : CapabilityMsg) (i : IdentityMsg) (k : KeyingMsg), p < 7 →
    let x := s.port p
    let gen := min (capGmax (capabilityWord p)) (capGmax c.word)
    let rates := capRates (capabilityWord p) &&& capRates c.word
    let common := decide (capGmin (capabilityWord p) ≤ gen) && decide (capGmin c.word ≤ gen) && decide (rates % 4 ≠ 0)
    let faster : Bool := bitOf rates 1 && x.link.rate == 200 && x.link.again == 0
    let unsent : Bool := (x.tx.held.any fun q => headKind q.2.head == 2) || x.tx.queue.any fun q => headKind q.head == 2
    let z := Config.x448Shared x.keys.secret k.key.bits
    let good := Config.ed448Verify x.peer.leaf (Octets.append x.peer.transcript k.key) k.sig.bits && decide (z % 2 ^ 448 ≠ 0)
    let tr := s.transcript p (identityOf (Config.chainLeaf i.chain)) i.chain
    let signed := Config.ed448Verify (Config.chainLeaf i.chain) tr i.sig.bits
    let judged := fun (u : State) => u.portState p = portQuarantined ∨ u.portState p = portLive
    (x.link.st = portCapability → ∃ u, Machine.exec (.capability p c) s = .next u ∧
      (u.port p).peer.word = c.word ∧ (unsent = true → u.portState p = portCapability) ∧
      (unsent = false → common = false → u.portState p = portQuarantined ∧ (u.port p).link.cause = 1) ∧
      (unsent = false → common = true → faster = true →
        u.portState p = portElectrical ∧ (u.port p).link.again = 1) ∧
      (unsent = false → common = true → faster = false →
        u.portState p = portIdentity ∧ (u.port p).link.gen = gen) ∧ changesOnly portPieces s u) ∧
    (x.link.st = portIdentity → ∃ u, Machine.exec (.identity p i) s = .next u ∧
      (s.chainOnPort p i.chain = false → u.portState p = portQuarantined ∧ (u.port p).link.cause = 2) ∧
      (s.chainOnPort p i.chain = true → signed = false → u.portState p = portQuarantined ∧ (u.port p).link.cause = 3) ∧
      (s.chainOnPort p i.chain = true → signed = true → x.link.gen ≠ 1 → u.portState p = portKeying) ∧
      (s.chainOnPort p i.chain = true → signed = true → x.link.gen = 1 → judged u) ∧ changesOnly portPieces s u) ∧
    (x.link.st = portKeying → k.epoch = 0 → ∃ u, Machine.exec (.keying p k) s = .next u ∧
      (good = false → u.portState p = portQuarantined ∧ (u.port p).link.cause = 4) ∧
      (good = true → judged u ∧ (u.port p).keys.out = (s.linkKeys p z).1 ∧ (u.port p).keys.inn = (s.linkKeys p z).2) ∧
      changesOnly portPieces s u) ∧
    (x.link.st = portLive → x.tagged = true → x.keys.asked = true → k.epoch = x.keys.epoch → good = true →
      ∃ u, Machine.exec (.keying p k) s = .next u ∧ u.portState p = portLive ∧ (u.port p).keys.out = (s.linkKeys p z).1 ∧
        (u.port p).keys.oldOut = x.keys.out ∧ (u.port p).keys.nextInn = (s.linkKeys p z).2 ∧ bitOf (u.port p).ask 2 = true ∧
        (∀ q, q ≠ p → u.port q = s.port q) ∧ changesOnly [.ports, .outbox] s u)

/-- The control and idle flits: the command and its kind (Table 10.5). -/
def controlRows : List ((Nat → StayFlit → Instr) × Nat) :=
  [(.idle, 0), (.nak, 1), (.credit, 2), (.width, 3), (.switch, 4), (.keyswitch, 5)]

/-- IDLE, NAK, CREDIT, WIDTH, SWITCH and KEYSWITCH (R312 to R318, R334): a flit whose CRC fails is counted in 4010h + p:0C, one
whose tag fails in :0E; one on the reserved VC is policed, in quarantine discarded uncounted; one whose count does not
advance changes nothing; any other is accepted, and its count is the last accepted. IDLE only acknowledges. A NAK replays the
held flits from the one named, counted in :0D, unless the oldest was replayed 16 times; CREDIT's totals are the sender's; WIDTH
with the link's generation takes a Live port to Retrain; SWITCH answers this side's own; KEYSWITCH takes up the partner's
new key. -/
def Obligations.StayControls : Prop :=
  (∀ row ∈ controlRows, ∀ (s : State) (p : Nat) (f : StayFlit), p < 7 →
      let x := s.port p
      let n := field f.body 127 64
      let tagOk := !x.tagged || x.keysIn.any (fun key => stayTag key n f == f.tag)
      x.carries = true → f.typ = (if row.2 = 0 then 1 else 2) → f.body % 256 = row.2 →
      ∃ u, Machine.exec (row.1 p f) s = .next u ∧
        (stayCrcOk x.gen1 f = false → counts s u (0x4010 + p) 0xC 1 ∧ registersBut [(0x4010 + p, 0xC)] s u ∧
          changesOnly [.dict] s u) ∧
        (stayCrcOk x.gen1 f = true → tagOk = false → counts s u (0x4010 + p) 0xE 1 ∧
          registersBut [(0x4010 + p, 0xE)] s u ∧ (u.port p).rx.tagFail = x.rx.tagFail + 1 ∧
          changesOnly [.dict, .ports, .rings, .limits] s u) ∧
        (stayCrcOk x.gen1 f = true → tagOk = true → 14 < f.vc → x.link.st = portQuarantined → u = s) ∧
        (stayCrcOk x.gen1 f = true → tagOk = true → 14 < f.vc → x.link.st ≠ portQuarantined →
          counts s u (0x4010 + p) 0xF 1 ∧ changesOnly [.dict, .rings, .limits] s u) ∧
        (stayCrcOk x.gen1 f = true → tagOk = true → f.vc ≤ 14 → x.rx.any = true → n ≤ x.rx.ctl → u = s) ∧
        (stayCrcOk x.gen1 f = true → tagOk = true → f.vc ≤ 14 → (x.rx.any = false ∨ x.rx.ctl < n) →
          (u.port p).rx.ctl = n ∧ (u.port p).rx.any = true) ∧
        changesOnly portPieces s u) ∧
  (∀ (s : State) (p : Nat) (f : StayFlit), p < 7 →
      let x := s.port p
      let n := field f.body 127 64
      let c := f.body / 2 ^ 128
      let accepted := fun (kind : Nat) => x.carries = true ∧ f.typ = (if kind = 0 then 1 else 2) ∧ f.body % 256 = kind ∧
        stayCrcOk x.gen1 f = true ∧ (x.tagged = false ∨ ∃ key, key ∈ x.keysIn ∧ stayTag key n f = f.tag) ∧ f.vc ≤ 14 ∧
        (x.rx.any = false ∨ x.rx.ctl < n)
      let taken : Port := { x with rx := { x.rx with ctl := n, any := true } }
      (accepted 0 → f.ackv = false → ∃ u, Machine.exec (.idle p f) s = .next u ∧ u.port p = taken ∧
        (∀ q, q ≠ p → u.port q = s.port q) ∧ changesOnly [.ports] s u) ∧
      (∀ m q, accepted 0 → f.ackv = true → (x.tx.held.find? fun q => q.1 % 4096 = f.ack % 4096) = some (m, q) →
        x.tx.queue = [] → x.link.st ≠ portCapability → ∃ u, Machine.exec (.idle p f) s = .next u ∧
          (u.port p).tx.held = x.tx.held.filter (fun q => decide (m < q.1)) ∧ changesOnly [.ports, .sent] s u) ∧
      (∀ m q, accepted 1 → f.ackv = false → (x.tx.held.find? fun q => q.1 % 4096 = c % 4096) = some (m, q) →
        x.tx.tries < 16 → ∃ u, Machine.exec (.nak p f) s = .next u ∧ (u.port p).tx.held = x.tx.held ∧
          u.portState p = x.link.st ∧
          counts s u (0x4010 + p) 0xD (x.tx.held.filter fun q =>
            decide (m ≤ q.1) && (decide (portRetrain ≤ x.link.st) || stateAllows x.link.st q.2)).length ∧
          registersBut [(0x4010 + p, 0xD)] s u ∧ changesOnly [.ports, .outbox, .dict] s u) ∧
      (accepted 2 → ∃ u, Machine.exec (.credit p f) s = .next u ∧
        ∀ i, i < 60 → FMap.get (u.port p).tx.credit i 0 = field c (16 * i + 15) (16 * i)) ∧
      (accepted 3 → x.link.st = portLive → (widthWordOf c).gen = x.link.gen → ∃ u, Machine.exec (.width p f) s = .next u ∧
        u.portState p = portRetrain ∧ (u.port p).claim = some (widthWordOf c) ∧ bitOf (u.port p).ask 0 = true) ∧
      (accepted 4 → bitOf x.ask 1 = true → ∃ u, Machine.exec (.switch p f) s = .next u ∧ bitOf (u.port p).ask 1 = false ∧
        (f.ackv = false → u.portState p = x.link.st ∧ changesOnly [.ports] s u)) ∧
      (accepted 5 → x.keys.nextInn.len ≠ 0 → ∃ u, Machine.exec (.keyswitch p f) s = .next u ∧
        (u.port p).keys.inn = x.keys.nextInn ∧ (u.port p).keys.switchInn = c % 2 ^ 64 ∧ bitOf (u.port p).ask 2 = false))

/-- STAY_CONTROL_RESEND, STAY_RETRY_TIMEOUT, STAY_KEY_REFRESH and STAY_CREDIT_STARVED (R290, R316, R317, R332): every
unanswered control word goes out again; 4 µs without an acknowledgement replay what is held, and after 16 replays of the
oldest flit the port trains again from step 2 with its retry buffer kept, unless it is in quarantine or shutting down, where
it goes on replaying, the model's choice (log 61); a key that is due is renewed under the next epoch; a channel that has a
flit waiting and had no credit for 1 ms is noted anew.
STAY_FEC_WINDOW_END, STAY_RETRAIN_DONE, STAY_TAG_WINDOW_END, STAY_SHUTDOWN_END and STAY_PARTNER_LOST (R331, R333 to R335,
R346): the counts of a window of 25,000,000 ticks are added to 4010h + p:0A and :0B, and the lanes of a Live port that
reached the threshold are retired and it retrains, or is Down; a retrained port is Live with the width agreed and asks for
SWITCH, or Down where none is; too many tag failures in a window quarantine with cause 11; a drained port is Off, and comes
back where an enable was held; a lost partner leaves the port waiting for presence. -/
def Obligations.StayUpkeep : Prop :=
  (∀ (s : State) (p vc : Nat), p < 7 →
      let x := s.port p
      let since := FMap.get x.rx.wait vc 0
      let late := x.carries = true ∧ x.tx.held ≠ [] ∧ x.tx.moved + 100 ≤ s.tick
      let goesOn' := x.tx.tries < 16 ∨ x.link.st = portQuarantined ∨ portDown ≤ x.link.st
      (∃ u, Machine.exec (.stayControlResend p) s = .next u ∧
        u.port p = { x with tx := { x.tx with ctl := x.tx.ctl + popCount x.ask 3 } } ∧
        u.outbox.length = s.outbox.length + popCount x.ask 3 ∧ changesOnly [.ports, .outbox] s u) ∧
      (late → goesOn' → ∃ u, Machine.exec (.stayRetryTimeout p) s = .next u ∧
        u.port p = { x with tx := { x.tx with moved := s.tick, tries := x.tx.tries + 1 } } ∧ counts s u 0x7170 1 1 ∧
        counts s u (0x4010 + p) 0xD (x.tx.held.filter fun q =>
          decide (portRetrain ≤ x.link.st) || stateAllows x.link.st q.2).length ∧
        registersBut [(0x7170, 1), (0x4010 + p, 0xD)] s u ∧ changesOnly [.ports, .outbox, .dict] s u) ∧
      (late → ¬goesOn' → ∃ u, Machine.exec (.stayRetryTimeout p) s = .next u ∧ u.portState p = portElectrical ∧
        (u.port p).tx.held = x.tx.held ∧ (u.port p).link.keep = true ∧ (u.port p).link.kept = x.peer.digest ∧
        changesOnly portPieces s u) ∧
      (x.link.st = portLive → x.tagged = true → x.keys.asked = false →
        (x.keys.flits + 2 ^ 40 ≤ x.tx.next + x.rx.next ∨ x.keys.keyed + 2160000000000 ≤ s.tick) →
        ∃ u, Machine.exec (.stayKeyRefresh p) s = .next u ∧ (u.port p).keys.asked = true ∧
          (u.port p).keys.epoch = x.keys.epoch + 1 ∧ u.portState p = portLive ∧ changesOnly [.ports, .draws, .outbox] s u) ∧
      (vc ∈ s.starvedVcs p → since ≠ 0 → since + msTicks ≤ s.tick + 1 →
        ∃ u, Machine.exec (.stayCreditStarved p vc) s = .next u ∧ FMap.get (u.port p).rx.wait vc 0 = s.tick + 1 ∧
          changesOnly [.ports, .rings, .limits] s u)) ∧
  (∀ (s : State) (p corrected : Nat) (words : List Nat) (w : WidthWord), p < 7 →
      let x := s.port p
      let settled := (settlePort p (s.portWord p (portLanes p)) (x.claim.getD w)).2
      let worn := (lanesIn (portLanes p)).filter fun l => bitOf x.link.map l && decide (s.val 0x4020 1 ≤ words.getD l 0)
      let new := without (laneMask worn) (s.deadLanes p)
      let total := words.foldl (· + ·) 0
      let counted := fun (u : State) => counts s u (0x4010 + p) 0xA corrected ∧ counts s u (0x4010 + p) 0xB total
      (x.carries = true → x.fecAt + 25000000 ≤ s.tick → new = 0 →
        ∃ u, Machine.exec (.stayFecWindowEnd p words corrected) s = .next u ∧ u.port p = { x with fecAt := s.tick } ∧
          counted u ∧ registersBut [(0x4010 + p, 0xA), (0x4010 + p, 0xB)] s u ∧ changesOnly [.ports, .dict] s u) ∧
      (x.link.st = portLive → x.fecAt + 25000000 ≤ s.tick → new ≠ 0 →
        ∃ u, Machine.exec (.stayFecWindowEnd p words corrected) s = .next u ∧ counted u ∧
          (u.portState p = portRetrain ∨ u.portState p = portDown) ∧ (u.port p).link.retired = x.link.retired ||| new ∧
          changesOnly portPieces s u) ∧
      (x.link.st = portRetrain → ∃ u, Machine.exec (.stayRetrainDone p w) s = .next u ∧
        u.portState p = (if settled = 0 then portDown else portLive) ∧
        (settled ≠ 0 → (u.port p).link.width = settled ∧ bitOf (u.port p).ask 0 = false ∧ bitOf (u.port p).ask 1 = true) ∧
        changesOnly portPieces s u) ∧
      (x.carries = true → x.tagAt + 25000000 ≤ s.tick → ∃ u, Machine.exec (.stayTagWindowEnd p) s = .next u ∧
        (u.port p).rx.tagFail = 0 ∧ (u.port p).tagAt = s.tick ∧
        (s.val 0x4020 2 ≤ x.rx.tagFail → x.link.st ≠ portQuarantined →
          u.portState p = portQuarantined ∧ (u.port p).link.cause = 11) ∧
        (x.rx.tagFail < s.val 0x4020 2 → u.portState p = x.link.st ∧ changesOnly [.ports] s u) ∧
        changesOnly portPieces s u) ∧
      ((x.tx.held = [] ∨ x.since + msTicks ≤ s.tick) → s.resetting 4 (p + 1) = false →
        (x.link.st = portClosing → ∃ u, Machine.exec (.stayShutdownEnd p) s = .next u ∧ u.portState p = portOff ∧
          changesOnly portPieces s u) ∧
        (x.link.st = portPending → s.hasAxis p = true → s.val (0x4010 + p) 1 = 1 → (s.pkg = pkgReady ∨ s.pkg = pkgBooting) →
          ∃ u, Machine.exec (.stayShutdownEnd p) s = .next u ∧ u.portState p = portPresence ∧
            changesOnly portPieces s u)) ∧
      (1 ≤ x.link.st → x.link.st ≤ portRetrain → ∃ u, Machine.exec (.stayPartnerLost p) s = .next u ∧
        u.portState p = portPresence ∧ (x.link.st ≠ portPresence → counts s u (0x4010 + p) 0x11 1) ∧
        changesOnly portPieces s u))

/-- STAY_DATA_FLIT (R312, R315, R317): a flit whose CRC fails is counted in 4010h + p:0C, one whose tag fails under the number
nearest to the one expected in :0E; the number expected stays, and a replay is asked for. One of the reserved TYPE is
discarded. A data flit in order is accepted, and the next number is expected; one that came before changes neither, and one
that runs ahead asks for a replay. A message of one flit that the bowsprit may carry is handed on. Memory does not change. -/
def Obligations.StayDataFlits : Prop :=
  ∀ (s : State) (p : Nat) (f : StayFlit), p < 7 → (s.port p).carries = true → f.typ ≠ 1 → f.typ ≠ 2 →
    let x := s.port p
    let num := flitNumber x.rx.next (f.seq % 4096)
    let tagOk := !x.tagged || stayTag (x.keyIn num) num f == f.tag
    let same := fun (u : State) => (u.port p).rx.next = x.rx.next
    let asks := fun (u : State) => same u ∧ (u.port p).rx.naked = true
    let good := stayCrcOk x.gen1 f = true ∧ tagOk = true ∧ f.typ = 0
    let whole : Octets := ⟨f.fill, f.body % 2 ^ (8 * f.fill)⟩
    ∃ u, Machine.exec (.stayDataFlit p f) s = .next u ∧
      (stayCrcOk x.gen1 f = false → asks u ∧ counts s u (0x4010 + p) 0xC 1 ∧ changesOnly [.dict, .ports, .outbox] s u) ∧
      (stayCrcOk x.gen1 f = true → tagOk = false → asks u ∧ counts s u (0x4010 + p) 0xE 1 ∧
        changesOnly [.dict, .ports, .outbox, .rings, .limits] s u) ∧
      (stayCrcOk x.gen1 f = true → tagOk = true → f.typ ≠ 0 → same u ∧ changesOnly [.dict, .rings, .limits] s u) ∧
      (good → f.seq % 4096 = x.rx.next % 4096 → (u.port p).rx.next = x.rx.next + 1 ∧ (u.port p).rx.naked = false) ∧
      (good → x.rx.next < num → asks u) ∧ (good → num < x.rx.next → same u) ∧
      (good → f.seq % 4096 = x.rx.next % 4096 → p = 6 → x.link.st = portLive → f.vc ≤ 14 → f.ackv = false →
        4 * f.vc + f.cls ∉ x.rx.cut → s.policeRule 6 f = 0 → FMap.get x.rx.left (4 * f.vc + f.cls) 0 = 0 →
        field f.body 63 32 ≤ f.fill → messageOk 6 f.vc whole = true → ⟨.stayMessage, 6, f.vc, whole⟩ ∈ u.outbox) ∧
      changesOnly portPieces s u

/-- DISCOVERY_SEND, DISCOVERY and DISCOVERY_STALE (R338): each second a Live or quarantined port announces the package;
what a partner announces is recorded with the package's own tick; a partner not heard for 3 s is marked stale. -/
def Obligations.Discovery : Prop :=
  ∀ (s : State) (p entry : Nat) (msg : DiscoveryMsg) (e : Nat × Heard),
    let st := s.portState p
    (p < 7 → (st = portLive ∨ st = portQuarantined) →
      ((s.port p).heard = 0 ∨ (s.port p).heard + 25000000 ≤ s.tick + 1) →
      ∃ u, Machine.exec (.discoverySend p) s = .next u ∧ (u.port p).heard = s.tick + 1 ∧ u.portState p = st ∧
        changesOnly [.ports, .outbox] s u) ∧
    (p < 7 → (st = portLive ∨ st = portQuarantined) → ∃ u i h, Machine.exec (.discovery p msg) s = .next u ∧
      (i, h) ∈ u.heard ∧ h.port = p ∧ h.digest = msg.digest ∧ h.coord = msg.coord ∧ h.sizes = msg.sizes ∧
      h.word = msg.word ∧ h.tick = s.tick ∧ h.stale = false ∧ changesOnly [.heard] s u) ∧
    ((s.heard.find? fun y => y.1 == entry) = some e → e.2.stale = false → e.2.tick + 75000000 ≤ s.tick →
      ∃ u, Machine.exec (.discoveryStale entry) s = .next u ∧ (entry, { e.2 with stale := true }) ∈ u.heard ∧
        changesOnly [.heard] s u)

/-- POSTED_WRITE, READ_REQ and WRITE_REQ (R336, R348, R349, R354) that come in by a port on a channel that its entry permits,
where no other request waits: one not formed as R354 asks is policed, and so is a posted write that does not come by the
bowsprit on VC 10 to 13 or that no window with PEER admits; a read or write that none admits is answered with status 1. In
none of these a byte changes. One that a window admits begins: a write stores its bytes, where no die pair is fenced, and no
other; a read changes no byte, and holds the bytes for its answer. FILL_ARRIVAL of the last line that a posted write waits
for ends it.
READ_RESP and WRITE_ACK (R354): the requester's access completes with the status of the message and, for a read, its
data; nothing else changes. A message on a channel that the entry does not permit is policed and reaches nobody. -/
def Obligations.RemoteMemory : Prop :=
  (∀ (s : State) (p : Nat) (m : RemoteMsg), p < 7 → s.receives p = true → s.remote = [] →
      let e := (s.port p).peer.entry
      let policed := fun (u : State) => counts s u (0x4010 + p) 0xF 1 ∧ changesOnly [.dict, .rings, .limits] s u
      let refused := fun (u : State) => changesOnly [.dict, .rings, .limits, .ports, .outbox] s u
      let begun := fun (u : State) (kind : Nat) => calmAll s u ∧
        changesOnly ([.mem, .poisoned, .remote, .remoteNum, .ports, .outbox] ++ readPieces) s u ∧
        (u.remote = [] ∨ ∃ r, u.remote = [r] ∧ r.kind = kind ∧ r.msg = m ∧ r.under = true)
      let stored := fun (u : State) => (∀ b, (b < m.addr ∨ m.addr + m.len ≤ b) → u.byte b = s.byte b) ∧
        (s.val 0x7180 1 = 0 → ∀ i, i < m.len → u.byte (m.addr + i) = BitVec.ofNat 8 (m.data >>> (8 * i)))
      let formed := p = 6 ∧ 10 ≤ m.vc ∧ m.vc ≤ 13 ∧ remoteFits m = true
      let wr := s.remotePart p m rightWr
      let rd := s.remotePart p m rightRd
      (permVc e m.vc = true → ∃ u, Machine.exec (.postedWrite p m) s = .next u ∧
        (¬formed ∨ wr = none → policed u) ∧ (formed → wr.isSome = true → begun u 0 ∧ stored u)) ∧
      (permVc e 14 = true → ∃ u, Machine.exec (.readReq p m) s = .next u ∧ u.mem = s.mem ∧
        (remoteFits m = false → policed u) ∧ (remoteFits m = true → rd = none → refused u) ∧
        (remoteFits m = true → rd.isSome = true → begun u 1 ∧
          (s.badRange m.addr m.len = false → ∀ r, r ∈ u.remote → r.val = s.load m.addr m.len))) ∧
      (permVc e 14 = true → ∃ u, Machine.exec (.writeReq p m) s = .next u ∧
        (remoteFits m = false → policed u) ∧ (remoteFits m = true → wr = none → refused u) ∧
        (remoteFits m = true → wr.isSome = true → begun u 2 ∧ stored u)) ∧
      (permVc e 14 = true →
        Machine.exec (.readResp p m) s = .next { s with outbox := ⟨.coreFault, m.tid, m.status, ⟨m.len, m.data⟩⟩ :: s.outbox } ∧
        Machine.exec (.writeAck p m) s = .next { s with outbox := ⟨.coreFault, m.tid, m.status, ⟨0, 0⟩⟩ :: s.outbox }) ∧
      (permVc e 14 = false → ∃ u, policed u ∧ Machine.exec (.readReq p m) s = .next u ∧
        Machine.exec (.writeReq p m) s = .next u ∧ Machine.exec (.readResp p m) s = .next u ∧
        Machine.exec (.writeAck p m) s = .next u)) ∧
  (∀ (s : State) (g l : Nat) (q : LineReq) (r : Remote), (s.dirEntry l).busy = some q → q.agent = g →
      s.fillReady l q = true → s.remote = [r] → r.kind = 0 → r.under = true →
      (s.fill l q).awaits (portWho r.port r.id) = false →
      ∃ u, Machine.exec (.fillArrival g l) s = .next u ∧ u.remote = [] ∧ changesOnly (.remote :: readPieces) s u)

/-- DICT_REQUEST, CHUNK, BACKUP_REQUEST, BACKUP_RELEASE and CHUNK_HOLD_EXPIRY (R33, R336, R349, R368, R383, R385, R399): a
dictionary request joins the peer mailbox, or is answered busy where that is full. The bowsprit takes no plan message, and
one that comes there is policed. A chunk of an unknown plan is held, one of a package that does not contribute is counted in
50D0h:07 and one of an earlier step in 50D0h:03, and neither changes a byte of memory. A request or release that finds no work of
a standby backup, or work that was asked for or freed already, changes nothing; else the work is asked for, or freed. A chunk
of an unknown plan that was held for 1 s is gone. -/
def Obligations.PortMessages : Prop :=
  ∀ (s : State) (p src tid n : Nat) (dg : Octets) (c : Chunk) (b : BackupMsg) (e : Nat × HeldChunk), p < 7 →
    s.receives p = true →
    let policed := fun (u : State) => p = 6 → counts s u (0x4010 + 6) 0xF 1 ∧ changesOnly [.dict, .rings, .limits] s u
    let q : PeerRequest := { port := p, src := src, tid := tid, dg := dg }
    let allowed := permVc (s.port p).peer.entry 0 = true
    let slot := s.slotOf c.planId
    (allowed → s.peerMail.length < 64 →
      Machine.exec (.dictRequest p src tid dg) s = .next { s with peerMail := s.peerMail ++ [q] }) ∧
    (allowed → 64 ≤ s.peerMail.length → ∃ u, Machine.exec (.dictRequest p src tid dg) s = .next u ∧
      changesOnly [.ports, .outbox] s u) ∧
    (¬allowed → ∃ u, Machine.exec (.dictRequest p src tid dg) s = .next u ∧ counts s u (0x4010 + p) 0xF 1 ∧
      changesOnly [.dict, .rings, .limits] s u) ∧
    (∃ u, Machine.exec (.chunk p src c) s = .next u ∧ policed u ∧ changesOnly planPieces s u ∧
      (p ≠ 6 → slot = none → (∃ h, (s.holdNum + 1, h) ∈ u.holds ∧ h.port = p ∧ h.src = src ∧ h.c = c ∧ h.since = s.tick) ∧
        changesOnly [.holds, .holdNum] s u) ∧
      (∀ k, p ≠ 6 → slot = some k →
        s.mayContribute (s.head k) (s.members (s.head k) (s.phase k c.phase)) src c = false →
        counts s u 0x50D0 7 1 ∧ changesOnly [.dict, .rings, .ports, .outbox] s u) ∧
      (∀ k, p ≠ 6 → slot = some k →
        s.mayContribute (s.head k) (s.members (s.head k) (s.phase k c.phase)) src c = true →
        stepDiff c.step (s.plan k).step < 0 → counts s u 0x50D0 3 1 ∧
        changesOnly [.dict, .rings, .ports, .outbox] s u)) ∧
    (∃ u, Machine.exec (.backupRequest p src b) s = .next u ∧ policed u ∧ changesOnly planPieces s u ∧
      (p ≠ 6 → s.backupWork b = none → u = s) ∧
      (∀ k f, p ≠ 6 → s.backupWork b = some (k, f) →
        if (s.plan k).asked || (s.plan k).freed then u = s else (u.plan k).asked = true)) ∧
    (∃ u, Machine.exec (.backupRelease p src b) s = .next u ∧ policed u ∧ changesOnly planPieces s u ∧
      (p ≠ 6 → s.backupWork b = none → u = s) ∧
      (∀ k f, p ≠ 6 → s.backupWork b = some (k, f) →
        if (s.plan k).asked || (s.plan k).freed then u = s else (u.plan k).freed = true)) ∧
    ((s.holds.find? fun y => y.1 = n) = some e → s.slotOf e.2.c.planId = none → e.2.since + 25000000 ≤ s.tick →
      ∃ u, Machine.exec (.chunkHoldExpiry n) s = .next u ∧ (∀ y, y ∈ u.holds ↔ y ∈ s.holds ∧ y.1 ≠ n) ∧
        counts s u 0x50D0 3 1 ∧ changesOnly [.holds, .dict, .ports, .rings, .outbox] s u)

/-! ### Collective plans -/

/-- PHASE_TRIGGER (R373, R374): an armed phase whose trigger fires is Active from this tick, at the same phase and step. A
plan that a deferred value holds at phase 0, and one with a split table that is the host error of R362, stay as they are
(log 51).
PHASE_COMPLETE (R374): a phase that is done gives way to the next, which is armed, or ends the step, whose number counts on by
one.
DEADLINE_MISSED (R383): a phase past its deadline is noted once, counted in 50D0h:01, and goes on. -/
def Obligations.PlanPhases : Prop :=
  (∀ (s : State) (k : Nat), k < 64 → (s.plan k).st = 2 → s.triggered k = true →
      let y := s.plan k
      let x := s.phase k y.phase
      (s.badSplit x = false → ¬(s.awaited k = true ∧ y.phase = 0) → ∃ u, Machine.exec (.phaseTrigger k) s = .next u ∧
        (u.plan k).st = 3 ∧ (u.plan k).phase = y.phase ∧ (u.plan k).step = y.step ∧ (u.plan k).fired = s.tick ∧
        (u.plan k).missed = false ∧ changesOnly planPieces s u) ∧
      (s.badSplit x = true → Machine.exec (.phaseTrigger k) s = .next s) ∧
      (s.awaited k = true → y.phase = 0 → Machine.exec (.phaseTrigger k) s = .next s)) ∧
  (∀ (s : State) (k : Nat), k < 64 → (s.plan k).st = 3 →
      let y := s.plan k
      let h := s.head k
      let x := s.phase k y.phase
      (s.phaseDone k = true → ∃ u, Machine.exec (.phaseComplete k) s = .next u ∧
        (y.phase + 1 < h.nph → (u.plan k).st = 2 ∧ (u.plan k).phase = y.phase + 1 ∧ (u.plan k).step = y.step) ∧
        (h.nph ≤ y.phase + 1 → ((u.plan k).st = 1 ∨ (u.plan k).st = 2) ∧ (u.plan k).phase = 0 ∧
          (u.plan k).step = (y.step + 1) % 2 ^ 32) ∧
        changesOnly planPieces s u) ∧
      (x.deadline ≠ 0 → y.missed = false → y.fired + x.deadline ≤ s.tick →
        ∃ u, Machine.exec (.deadlineMissed k) s = .next u ∧ u.plan k = { y with missed := true } ∧
          counts s u 0x50D0 1 1 ∧ registersBut [(0x50D0, 1), (0x5000 + k, 3), (0x5000 + k, 4)] s u ∧
          (∀ j, j ≠ k → u.plan j = s.plan j) ∧ changesOnly [.plans, .dict, .rings, .ports, .outbox] s u))

/-- PLAN_ABORT_DONE (R373, R376): an aborted plan whose drains have ended is Idle, or armed again at phase 0, at the same step.
DEFERRED_FLIP (R412, R414): each deferred value that no slot holds back any more is no longer deferred, and each commit that
has passed its checks flips, unless a reset holds it. -/
def Obligations.PlanAborts : Prop :=
  ∀ (s : State) (k : Nat),
    (k < 64 → ((s.plan k).st = 4 ∨ (s.plan k).st = 5) →
      (s.panes.any fun e => match e.2.st with | .draining j _ => j == k | _ => false) = false →
      ∃ u, Machine.exec (.planAbortDone k) s = .next u ∧ ((u.plan k).st = 1 ∨ (u.plan k).st = 2) ∧ (u.plan k).phase = 0 ∧
        (u.plan k).step = (s.plan k).step ∧ changesOnly (.resets :: planPieces) s u) ∧
    ((s.deferred.any fun d => !s.held d.key) = true ∨ (s.resetHolds = false ∧ s.passed ≠ []) →
      ∃ u, Machine.exec .deferredFlip s = .next u ∧
        (s.resetHolds = true ∨ s.passed = [] → u.deferred = s.deferred.filter (fun d => s.held d.key) ∧
          u.commits = s.commits) ∧
        (s.resetHolds = false → ∀ c, c ∈ u.commits ↔ c ∈ s.commits ∧ ∀ q, q ∈ s.passed → c.num ≠ q.num) ∧
        keeps [.pending, .tick, .ident, .streams, .openRows, .hotSince, .hbm, .snaps, .snapRing, .writes, .sessions,
          .commitNum, .heard, .remote, .remoteNum, .flows, .bondSince, .mailSlots, .mailbox, .peerMail, .resets, .grants,
          .power, .fw, .mgmtRate, .mgmtSince, .i3cAddr, .ibien, .hellos, .carve] s u)

/-! ### Choan, the dictionary and commits -/

/-- HELLO, DISCOVER, SESSION_INIT and SESSION_CONFIRM (R394 to R397): an unclaimed package announces itself once a second.
DISCOVER is answered to its sender. SESSION_INIT is answered BUSY where all eight sessions stand; else it opens the first free
one, not confirmed, where the client's chain is accepted, a claimed package knows its identity, and the shared secret is not
zero; no other session changes. SESSION_CONFIRM: a wrong tag, or no session, is counted in 1040h:03 and changes no session; a
right signature confirms the session, counted in 1040h:01, and a wrong one ends it; the repeat of one answered is answered
with the same bytes. -/
def Obligations.SessionSetup : Prop :=
  ∀ (s : State) (a seq n : Nat) (nonce key chain sig : Octets) (env : Envelope), s.choanUp = true →
    let leaf := Config.chainLeaf chain
    let secret := ((s.draw 256).2.draw 448).1
    let opens : Bool := s.clientChain chain && (!s.claimed || s.claims (identityOf leaf)) &&
      Config.x448Shared secret key.bits % 2 ^ 448 != 0
    let refused := fun (u : State) => counts s u 0x1040 3 1 ∧ registersBut [(0x1040, 3)] s u ∧
      changesOnly [.dict, .rings, .limits] s u
    (s.claimed = false → (s.hellos = 0 ∨ s.hellos + 25000000 ≤ s.tick + 1) →
      ∃ u, Machine.exec .hello s = .next u ∧ u.hellos = s.tick + 1 ∧ (∃ d, (⟨.notice, 0, 0, d⟩ : Output) ∈ u.outbox) ∧
        changesOnly [.hellos, .free, .outbox] s u) ∧
    (∃ u, Machine.exec (.discover a seq) s = .next u ∧ (∃ d, u.outbox = ⟨.reply, a, 3, d⟩ :: s.outbox) ∧
      changesOnly [.outbox] s u) ∧
    (((List.range 8).find? fun i => (s.session (i + 1)).isNone) = none →
      Machine.exec (.sessionInit a seq nonce key chain) s = .next (s.refuseSession a seq 1)) ∧
    (((List.range 8).find? fun i => (s.session (i + 1)).isNone) = some n →
      ∃ u, Machine.exec (.sessionInit a seq nonce key chain) s = .next u ∧
        (if opens = true then (∃ x, u.session (n + 1) = some x ∧ x.confirmed = false ∧ x.leaf = leaf ∧
            x.ident = identityOf leaf ∧ x.address = a ∧ x.last = s.tick) ∧ u.stager n = {}
          else u.sessions = s.sessions) ∧
        (∀ k, k ≠ n + 1 → u.session k = s.session k) ∧ changesOnly [.sessions, .stagers, .draws, .outbox] s u) ∧
    (s.session env.session = none → ∃ u, Machine.exec (.sessionConfirm env sig) s = .next u ∧ refused u) ∧
    (∀ x, s.session env.session = some x → tagRight x env 6 0 sig = false →
      ∃ u, Machine.exec (.sessionConfirm env sig) s = .next u ∧ refused u) ∧
    (∀ x, s.session env.session = some x → tagRight x env 6 0 sig = true → x.confirmed = false →
      ∃ u, Machine.exec (.sessionConfirm env sig) s = .next u ∧
        (if Config.ed448Verify x.leaf x.transcript sig.bits = true then
          (∃ y, u.session env.session = some y ∧ y.confirmed = true ∧ y.leaf = x.leaf) ∧ counts s u 0x1040 1 1
        else u.session env.session = none ∧ u.stager (env.session - 1) = {}) ∧
        (∀ k, k ≠ env.session → u.session k = s.session k) ∧ registersBut [(0x1040, 1)] s u ∧
        changesOnly [.sessions, .stagers, .dict, .outbox] s u) ∧
    (∀ x d, s.session env.session = some x → tagRight x env 6 0 sig = true → x.confirmed = true →
      (x.replies.find? fun e => e.1 == env.seq) = some (env.seq, d) →
      Machine.exec (.sessionConfirm env sig) s = .next (s.emit .reply env.session 7 d))

/-- The requests within a session, with the envelope, type, flags and body under which their tag is made (Table 12.2). -/
def choanForm : Instr → Option (Envelope × Nat × Nat × Octets)
  | .claim env => some (env, 0x08, 0, ⟨0, 0⟩)
  | .close env => some (env, 0x0A, 0, ⟨0, 0⟩)
  | .read env i j staged => some (env, 0x10, if staged then 1 else 0, objBody i j)
  | .write env i j v => some (env, 0x12, 0, Octets.append (objBody i j) v)
  | .readSeg env i j off len staged =>
    some (env, 0x14, if staged then 1 else 0, Octets.append (objBody i j) (Octets.append (msb 4 off) (msb 2 len)))
  | .writeSeg env i j off data fin =>
    some (env, 0x16, if fin then 2 else 0, Octets.append (objBody i j) (Octets.append (msb 4 off) data))
  | .list env first n => some (env, 0x18, 0, Octets.append (msb 2 first) (msb 2 n))
  | .describe env i j => some (env, 0x1A, 0, objBody i j)
  | .eventRead env r n => some (env, 0x20, 0, Octets.append (msb 4 r) ⟨1, n % 256⟩)
  | .eventAck env r => some (env, 0x22, 0, msb 4 r)
  | .subscribe env on => some (env, 0x24, 0, ⟨1, if on then 1 else 0⟩)
  | _ => none

/-- What a request that is acted upon answers and leaves: `s` before it, `r` its reply, `u` after it; `x` its session, `i` and
`j` and the value within the bounds of their fields. -/
def choanActs (s u : State) (x : Session) (r : Reply) : Instr → Prop
  | .claim _ => r.status = (if s.claimed then 4 else 0) ∧
      (s.claimed = false → u.obj 0x1030 1 = ⟨16, x.ident % 2 ^ 128⟩)
  | .close env => r.status = 0 ∧ u.session env.session = none ∧ u.stager (env.session - 1) = {}
  | .read env i j staged => i < 65536 → j < 256 →
      r = (s.readRequest (.operator (env.session - 1)) i j 0 1024 staged).1
  | .write env i j v => i < 65536 → j < 256 → v.bits < 2 ^ (8 * v.len) → r = (s.writeRequest (.operator (env.session - 1)) i j v).1 ∧
      u.dict = (s.writeRequest (.operator (env.session - 1)) i j v).2.dict ∧
      u.writes = (s.writeRequest (.operator (env.session - 1)) i j v).2.writes
  | .readSeg env i j off len staged => i < 65536 → j < 256 → off < 2 ^ 32 → len < 65536 →
      r = (s.readRequest (.operator (env.session - 1)) i j off len staged).1
  | .writeSeg env i j off data fin => i < 65536 → j < 256 → off < 2 ^ 32 → data.bits < 2 ^ (8 * data.len) →
      r = (s.writeSegment (.operator (env.session - 1)) i j off data fin).1 ∧
      u.dict = (s.writeSegment (.operator (env.session - 1)) i j off data fin).2.dict ∧
      u.writes = (s.writeSegment (.operator (env.session - 1)) i j off data fin).2.writes
  | .list _ first n => first < 65536 → n < 65536 → r = listRequest first n
  | .describe env i j => i < 65536 → j < 256 → r = (s.describeRequest (.operator (env.session - 1)) i j).1
  | .eventRead _ _ n => n < 256 → r.status = if n = 0 ∨ 16 < n then 7 else 0
  | .eventAck _ rseq => if s.claims x.ident = true
      then r.status = 0 ∧ u.ring 0 = (s.ring 0).advance ((rseq + 1) % 2 ^ 32) else r.status = 4 ∧ u.rings = s.rings
  | .subscribe env on => r.status = 0 ∧ ∃ y, u.session env.session = some y ∧ y.subscribed = on
  | _ => True

/-- CLAIM, CLOSE, READ, WRITE, READ_SEG, WRITE_SEG, LIST, DESCRIBE, EVENT_READ, EVENT_ACK and SUBSCRIBE (R394 to R396, R423): every
request goes on wherever the responder runs. A wrong tag, or a session that is not there, is counted in 1040h:03 and
changes no session and no setting; a SEQ already answered gets the same answer again and is not acted upon; a SEQ 64 or
more behind the highest is dropped. Any other is answered, and its answer is kept with its session while that stands: with
ACCESS where the package is not claimed and the request is not one of those that R396 lets through, else as `choanActs` says;
one of the dictionary is answered as the dictionary answers the operator. -/
def Obligations.SessionRequests : Prop :=
  ∀ (c : Instr) (env : Envelope) (type flags : Nat) (body : Octets) (s : State),
    choanForm c = some (env, type, flags, body) → s.choanUp = true →
    let refused := fun (u : State) => counts s u 0x1040 3 1 ∧ registersBut [(0x1040, 3)] s u ∧
      changesOnly [.dict, .rings, .limits] s u
    let known := fun (x : Session) => s.session env.session = some x ∧ x.confirmed = true ∧
      tagRight x env type flags body = true
    let t := fun (x : Session) =>
      ({ s with sessions := FMap.put s.sessions (env.session - 1) { x with last := s.tick } } : State)
    let free : Bool := type == 8 || type == 0x0A || type == 0x18 || type == 0x1A ||
      (type == 0x10 && 0x1000 ≤ bodyNum body 0 2 && bodyNum body 0 2 ≤ 0x10FF)
    ∃ u, Machine.exec c s = .next u ∧
      (s.session env.session = none → refused u) ∧
      (∀ x, s.session env.session = some x → (x.confirmed = false ∨ tagRight x env type flags body = false) → refused u) ∧
      (∀ x n d, known x → (x.replies.find? fun e => e.1 == env.seq) = some (n, d) →
        u.outbox = ⟨.reply, env.session, type + 1, d⟩ :: s.outbox ∧ changesOnly [.sessions, .outbox] s u) ∧
      (∀ x, known x → (x.replies.find? fun e => e.1 == env.seq) = none → x.seen = true → env.seq + 64 ≤ x.top →
        changesOnly [.sessions] s u) ∧
      (∀ x, known x → (x.replies.find? fun e => e.1 == env.seq) = none → (x.seen = false ∨ x.top < env.seq + 64) →
        ∃ r : Reply, let d := choanDatagram (type + 1) 4 env.session env.seq r.bytes x.keyOut
          u.outbox.head? = some ⟨.reply, env.session, type + 1, d⟩ ∧
          (∀ y, u.session env.session = some y → y.replies.head? = some (env.seq, d) ∧ y.top = max x.top env.seq ∧
            y.seen = true ∧ y.last = s.tick) ∧
          (s.claimed = false → free = false → r.status = 4 ∧ changesOnly [.sessions, .outbox] s u) ∧
          ((s.claimed = true ∨ free = true) → choanActs (t x) u x r c))

/-- CLAIM (R396): on an unclaimed package a fresh claim puts the client's identity digest into 1030h:01; on a claimed one it
changes no setting. -/
def Obligations.ClaimTakesPackage : Prop :=
  ∀ (s : State) (env : Envelope) (x : Session), s.choanUp = true → s.session env.session = some x → x.confirmed = true →
    tagRight x env 8 0 ⟨0, 0⟩ = true → (x.replies.find? fun e => e.1 == env.seq) = none → x.seen = false →
    ∃ u, Machine.exec (.claim env) s = .next u ∧
      (s.claimed = false → u.obj 0x1030 1 = ⟨16, x.ident % 2 ^ 128⟩ ∧ registersBut [(0x1030, 1)] s u ∧
        changesOnly [.dict, .rings, .outbox, .sessions] s u) ∧
      (s.claimed = true → changesOnly [.outbox, .sessions] s u)

/-- SESSION_TIMEOUT (R395), EVENT_RING_OVERFLOW (R36), SNAPSHOT_POST (R38) and RDIDX_WRITE (R422): a session silent for
60 s is closed with its staging set; a ring that dropped records and has room gets its overflow record and owes none. Units
under an index that has counters, whose last posting is 25,000 ticks back, or that have posted none yet (the model's choice,
log 33), post what they hold: each posting is put behind those in the snapshot ring, or counted as dropped. The owner of a
host ring moves its read position; for any other context the access is blocked. -/
def Obligations.RingsAndSessions : Prop :=
  ∀ (s : State) (n idx core c v : Nat) (x : Session),
    let g := s.ring n
    (s.session n = some x → x.last + 1500000000 ≤ s.tick → ∃ u, Machine.exec (.sessionTimeout n) s = .next u ∧
      u.session n = none ∧ u.stager (n - 1) = {} ∧ (∀ k, k ≠ n → u.session k = s.session k) ∧
      (∀ k, k ≠ n - 1 → u.stager k = s.stager k) ∧ changesOnly [.sessions, .stagers] s u) ∧
    (n < 17 → g.owed ≠ 0 → g.used < ringSize n → ∃ u, Machine.exec (.eventRingOverflow n) s = .next u ∧
        (u.ring n).owed = 0 ∧ (u.ring n).posted = g.posted + 1 ∧ (u.ring n).read = g.read ∧ (u.ring n).drops = g.drops ∧
        (u.ring n).recs.length = g.recs.length + 1 ∧
        (∃ r, r ∈ (u.ring n).recs ∧ r.code = 0x1A10 ∧ r.tick = s.tick % 2 ^ 64 ∧ r.detail = packDetail [(4, g.owed)]) ∧
        (∀ k, k ≠ n → u.ring k = s.ring k) ∧ changesOnly [.rings] s u) ∧
    (snapshotSubs idx ≠ [] → (s.snapshotDue idx = true ∨ (s.snapRing.last.find? fun e => e.1 == idx) = none) →
      ∃ u more, Machine.exec (.snapshotPost idx) s = .next u ∧ FMap.get u.snapRing.last idx 0 = s.tick ∧
        u.snapRing.recs = s.snapRing.recs ++ more ∧
        more.length + u.snapRing.drops = s.snapRing.drops + (snapshotSubs idx).length ∧
        (∀ e, e ∈ more → e.2.2 = s.tick ∧ ∃ sub, sub ∈ snapshotSubs idx ∧ e.1 = objKey idx sub ∧
          (s.openObject idx sub = false → e.2.1 = (s.present idx sub).1)) ∧ changesOnly [.snapRing, .free] s u) ∧
    (n < 16 → core < 16 → s.pkg ≠ pkgOff → s.pkg ≠ pkgShutdown → s.contextOfCore core = some c →
      ∃ u, Machine.exec (.rdidxWrite core n v) s = .next u ∧
        (ctxOwns (s.context c) n = true → u.ring (n + 1) = (s.ring (n + 1)).advance (v % 2 ^ 32) ∧
          (∀ k, k ≠ n + 1 → u.ring k = s.ring k) ∧ changesOnly [.rings] s u) ∧
        (ctxOwns (s.context c) n = false → counts s u (0x3200 + coreDie core) 6 1 ∧
          registersBut [(0x3200 + coreDie core, 6)] s u ∧ changesOnly [.outbox, .dict, .rings, .limits] s u))

/-- MAILBOX_ALLOC, MAILBOX_SUBMIT and MAILBOX_FREE (R398): ALLOC hands out the lowest free slot; a request in a slot of the
context's own is answered while the firmware runs, with its STATE word 2, and one that is no request is counted in 1040h:02;
FREE gives the slot back. A slot of another context is blocked, and no slot changes.
LAMPLIGHTER_ACCESS (R464, R472): outside what the context may reach, an access fault that changes neither memory nor the
mailbox; within a mailbox slot of its own, the slot's bytes. A store that a window or the slice of the context admits writes
its bytes and no other; a load changes no byte, and gives the data at once or keeps it for when its lines come; where the home
is on a fenced die pair either is an access fault in the carve-out, and elsewhere an uncorrectable data error. -/
def Obligations.CoreAccesses : Prop :=
  ∀ (s : State) (core c k addr len data : Nat) (store : Bool), core < 16 → s.pkg ≠ pkgOff → s.pkg ≠ pkgShutdown →
    s.contextOfCore core = some c →
    let blocked := fun (u : State) => counts s u (0x3200 + coreDie core) 6 1 ∧
      registersBut [(0x3200 + coreDie core, 6)] s u ∧ changesOnly [.dict, .rings, .limits, .outbox] s u
    let line := 0 < len ∧ len ≤ 64 ∧ addr / 128 = (addr + len - 1) / 128
    let slot := (addr - mailBase) / 2048
    let mem := addr < mailBase ∧ s.coreAdmits c addr len store = true ∧ s.homeFenced addr = false
    let load : CoreLoad := { core := core, addr := addr, len := len, val := s.load addr len }
    (∃ u, Machine.exec (.mailboxAlloc core) s = .next u ∧
      (∀ i, ((List.range 64).find? fun j => (s.mailOwner j).isNone) = some i → u.mailOwner i = some c ∧
        (∀ j, j ≠ i → u.mailOwner j = s.mailOwner j) ∧ u.outbox = ⟨.coreFault, core, coreData, ⟨8, i⟩⟩ :: s.outbox) ∧
      (((List.range 64).find? fun j => (s.mailOwner j).isNone) = none → u.mailSlots = s.mailSlots ∧
        u.outbox = ⟨.coreFault, core, coreData, ⟨8, 0xFFFFFFFF⟩⟩ :: s.outbox) ∧ changesOnly [.mailSlots, .outbox] s u) ∧
    (s.mailOwner k = none → Machine.exec (.mailboxSubmit core k) s = .next s ∧
      Machine.exec (.mailboxFree core k) s = .next s) ∧
    (∀ o, s.mailOwner k = some o → o ≠ c → (∃ u, Machine.exec (.mailboxSubmit core k) s = .next u ∧ blocked u) ∧
      (∃ u, Machine.exec (.mailboxFree core k) s = .next u ∧ blocked u)) ∧
    (s.mailOwner k = some c →
      (∃ u, Machine.exec (.mailboxFree core k) s = .next u ∧ u.mailOwner k = none ∧
        (∀ j, j ≠ k → u.mailOwner j = s.mailOwner j) ∧ changesOnly [.mailSlots] s u) ∧
      (s.choanUp = false → Machine.exec (.mailboxSubmit core k) s = .next s) ∧
      (s.choanUp = true → datagram (s.mailRequest k) = none → ∃ u, Machine.exec (.mailboxSubmit core k) s = .next u ∧
        counts s u 0x1040 2 1 ∧ registersBut [(0x1040, 2)] s u ∧ changesOnly [.dict] s u) ∧
      (∀ type flags body, s.choanUp = true → datagram (s.mailRequest k) = some (type, flags, body) →
        (hostTypes.contains type = false → ∃ u, Machine.exec (.mailboxSubmit core k) s = .next u ∧
          FMap.readLE u.mailbox (2048 * k) 8 = 2 ∧ changesOnly [.mailbox] s u) ∧
        (∀ r t, hostTypes.contains type = true → s.dictionary (.host c) type flags body = some (r, t) →
          Machine.exec (.mailboxSubmit core k) s = .next (t.mailReply k (choanHead (type + 1) 4 0 0 r.bytes))))) ∧
    (line → addr < mailBase → s.coreAdmits c addr len store = false →
      ∃ u, Machine.exec (.lamplighterAccess core store addr len data) s = .next u ∧ blocked u) ∧
    (line → mailBase ≤ addr → addr - mailBase + len ≤ 0x20000 →
      (s.mailOwner slot ≠ some c → ∃ u, Machine.exec (.lamplighterAccess core store addr len data) s = .next u ∧
        blocked u) ∧
      (s.mailOwner slot = some c →
        Machine.exec (.lamplighterAccess core true addr len data) s =
          .next { s with mailbox := FMap.writeLE s.mailbox (addr - mailBase) len data } ∧
        Machine.exec (.lamplighterAccess core false addr len data) s =
          .next (s.emit .coreFault core coreData ⟨len, FMap.readLE s.mailbox (addr - mailBase) len % 2 ^ (8 * len)⟩))) ∧
    (line → addr < mailBase → s.coreAdmits c addr len store = true → s.homeFenced addr = true →
      ∃ u v, Machine.exec (.lamplighterAccess core store addr len data) s = .next u ∧ u.outbox =
        ⟨.coreFault, core, if addr < s.carve * 2 ^ 30 then coreBlocked else coreError, v⟩ :: s.outbox ∧
        changesOnly [.outbox, .free] s u) ∧
    (line → mem → store = true → ∃ u, Machine.exec (.lamplighterAccess core true addr len data) s = .next u ∧ calmAll s u ∧
      (∀ b, (b < addr ∨ addr + len ≤ b) → u.byte b = s.byte b) ∧
      (∀ i, i < len → u.byte (addr + i) = BitVec.ofNat 8 (data >>> (8 * i))) ∧ changesOnly writePieces s u) ∧
    (line → mem → store = false → ∃ u, Machine.exec (.lamplighterAccess core false addr len data) s = .next u ∧
      calmAll s u ∧ changesOnly ([.coreLoads, .outbox] ++ readPieces) s u ∧
      ((u.coreLoads = s.coreLoads ++ [load] ∧ u.outbox = s.outbox) ∨
        (u.coreLoads = s.coreLoads ∧ ∃ out v, u.outbox = ⟨.coreFault, core, out, ⟨len, v⟩⟩ :: s.outbox ∧
          (if s.badRange addr len = true then out = coreError else out = coreData ∧ v = s.load addr len))))

/-- The register writes with a command of their own: the requester, the object and the value written. -/
def writeForm : Instr → Option (Who × Nat × Nat × Octets)
  | .commitRequest w v => some (w, 0x1F00, 1, asObj 0x1F00 1 v)
  | .stagingDiscard w v => some (w, 0x1F00, 2, asObj 0x1F00 2 v)
  | .planAbort w k v => some (w, 0x50C0, k + 1, asObj 0x50C0 (k + 1) v)
  | .mastPowerRequest w m v => some (w, 0x2320 + m / 192, m % 192 + 1, asObj (0x2320 + m / 192) (m % 192 + 1) v)
  | .powerCapWrite w v => some (w, 0x2100, 1, asObj 0x2100 1 v)
  | .hostReady w v => some (w, 0x2500, 3, asObj 0x2500 3 v)
  | .packageReset w v => some (w, 0x2600, 1, asObj 0x2600 1 v)
  | .partitionReset w p v => some (w, 0x2610, p + 1, asObj 0x2610 (p + 1) v)
  | .domainReset w d v => some (w, 0x2620, d + 1, asObj 0x2620 (d + 1) v)
  | .portReset w j v => some (w, 0x2630, j, asObj 0x2630 j v)
  | .partitionStop w p v => some (w, 0x7160, p + 1, asObj 0x7160 (p + 1) v)
  | .firmwareImageWrite w k o => if k < 2 then some (w, 0x7010, k + 1, o) else none
  | .svnRaise w k v => if k < 2 then some (w, 0x7010, k + 4, asObj 0x7010 (k + 4) v) else none
  | .attestationNonce w o => some (w, 0x7070, 1, o)
  | .debugToken w o => some (w, 0x7080, 2, o)
  | .debugRelock w v => some (w, 0x7080, 3, asObj 0x7080 3 v)
  | .registerWrite w i j v => if i < 0x100 then none else some (w, i, j, v)
  | _ => none

/-- COMMIT_REQUEST, STAGING_DISCARD, PLAN_ABORT, MAST_POWER_REQUEST, POWER_CAP_WRITE, HOST_READY, PACKAGE_RESET,
PARTITION_RESET, DOMAIN_RESET, PORT_RESET, PARTITION_STOP, FIRMWARE_IMAGE_WRITE, SVN_RAISE, ATTESTATION_NONCE, DEBUG_TOKEN,
DEBUG_RELOCK and REGISTER_WRITE (R222, R402): a write to a powered package is answered with a status, the first check that
fails decides it, and a write that a check refuses changes nothing: no such object or no access 2 to 4 or 0Bh, a host where
only the operator may write 4, read-only 5, an owner that does not match 9, a wrong length 6, and but for a staged object a
reserved field 8 or a wrong value 7. A peer never writes.
REGISTER_WRITE below index 100h (Table 15.6): of the I3C target only IBIEN may be written; the rest ignores the write. -/
def Obligations.RegisterChecks : Prop :=
  (∀ (c : Instr) (who : Who) (i j : Nat) (v : Octets) (s : State), writeForm c = some (who, i, j, v) → s.pkg ≠ pkgOff →
      let peer : Prop := ∃ p, who = .peer p
      let found := (s.findObject who i j).2
      let may := fun (r : ObjRow) => ¬peer ∧ found = some r ∧ mayWrite who i = true
      ∃ u st, Machine.exec c s = .next u ∧ u.outbox.head? = some ⟨.status, whoTag who, st, ⟨0, 0⟩⟩ ∧
        let refused := fun (n : Nat) => st = n ∧ u = s.emit .status (whoTag who) n ⟨0, 0⟩
        (peer → refused 4) ∧
        (¬peer → found = none → refused (s.findObject who i j).1) ∧
        (∀ r, ¬peer → found = some r → mayWrite who i = false → refused 4) ∧
        (∀ r, may r →
          (r.access = 1 → refused 5) ∧
          (r.access ≠ 1 → s.ownerOk who i j = false → refused 9) ∧
          (r.access ≠ 1 → s.ownerOk who i j = true → lengthOk r i j v = false → refused 6) ∧
          (r.access ≠ 1 → r.access ≠ 3 → s.ownerOk who i j = true → lengthOk r i j v = true → s.valueStatus r i j v ≠ 0 →
            refused (s.valueStatus r i j v)))) ∧
  (∀ (s : State) (who : Who) (i j : Nat) (v : Octets), i < 0x100 → s.pkg ≠ pkgOff →
      Machine.exec (.registerWrite who i j v) s = .next (if i = 0x0C then { s with ibien := v.bits % 4 } else s))

/-- The effects of register writes that pass the checks of R402, asked for by an operator: REGISTER_WRITE stages the value of
an RWS object (R406); COMMIT_REQUEST sends the staging set to the gate, or is answered BUSY while a commit of it is in checks
(R407); STAGING_DISCARD empties it (R411); ATTESTATION_NONCE is kept with its report (R460); PACKAGE_RESET, PARTITION_RESET,
DOMAIN_RESET and PORT_RESET begin their resets (R448, R449); PLAN_ABORT, MAST_POWER_REQUEST and POWER_CAP_WRITE are accepted,
and each becomes live on the next pilot-clock edge (R34): the abort of a plan that runs begins (R376), the mast has its
request (R118), the cap is the one in force (R436); a request for a fenced mast is refused with RANGE (R285). HOST_READY is
noted for the edge that enters Ready (R446). FIRMWARE_IMAGE_WRITE, SVN_RAISE, DEBUG_TOKEN and DEBUG_RELOCK act as R455, R456
and R462 say. -/
def Obligations.AcceptedWrites : Prop :=
  ∀ (s : State) (n : Nat), s.pkg ≠ pkgOff →
    let i := n % 8
    let x := s.stager i
    let w := Who.operator n
    let ok := fun (t : State) => t.emit .status n 0 ⟨0, 0⟩
    let live := fun (t : State) (a b v : Nat) => ({ t with writes := t.writes ++ [(a, b, v)] } : State)
    (∀ idx sub v r, 0x100 ≤ idx → (s.findObject w idx sub).2 = some r → r.access = 3 → lengthOk r idx sub v = true →
      s.inChecks i = false → (x.set.filter fun e => e.1 != objKey idx sub).length < 4096 →
      (x.set.filter fun e => e.1 != objKey idx sub).foldl (fun k e => k + e.2.len) v.len ≤ 2 ^ 21 →
      Machine.exec (.registerWrite w idx sub v) s =
        .next (ok (s.setStager i { x with set := FMap.put x.set (objKey idx sub) v }))) ∧
    (∀ token, s.inChecks i = false → x.set ≠ [] → ∃ u, Machine.exec (.commitRequest w token) s = .next u ∧
      u.commits = s.commits ++ [{ stager := i, num := s.commitNum + 1, token := token % 2 ^ 32, since := s.tick,
                                  set := x.set, expect := x.expect }] ∧
      (u.stager i).set = x.set ∧ (u.stager i).records.head?.map (·.status) = some 1 ∧
      changesOnly [.stagers, .commits, .commitNum, .outbox] s u) ∧
    (∀ token, s.inChecks i = true → Machine.exec (.commitRequest w token) s = .next (s.emit .status n 1 ⟨0, 0⟩)) ∧
    (s.inChecks i = false → Machine.exec (.stagingDiscard w 1) s = .next (ok (s.setStager i { x with set := [] }))) ∧
    (∀ o : Octets, o.len = 32 → ∃ u, Machine.exec (.attestationNonce w o) s = .next u ∧
      u.stager i = { x with nonce := some o, report := s.report o } ∧ changesOnly [.stagers, .outbox] s u) ∧
    (s.running = true → s.resets = [] → ∃ u, Machine.exec (.packageReset w 1) s = .next u ∧ u.pkg = pkgBooting ∧
      u.val 0x2500 1 = 2 ∧ u.mem = [] ∧ u.ports = [] ∧ u.plans = [] ∧ (∀ m, (u.mast m).power = .dark) ∧
      u.resets = [{ kind := 1, scope := 0, since := s.tick }] ∧ keeps [.pending, .tick, .free, .ident, .writes, .limits,
        .sessions, .stagers, .commits, .commitNum, .deferred, .accepted, .holdNum, .sentNum, .heard, .remoteNum, .mgmtRate,
        .mgmtSince, .i3cAddr, .ibien, .hellos] s u) ∧
    (∀ p, p < 16 → s.partExists p = true → s.val 0x7180 1 = 0 → s.resets = [] →
      ∃ u, Machine.exec (.partitionReset w p 1) s = .next u ∧ (u.part p).st = .resetting ∧ u.val 0x7102 (p + 1) = 3 ∧
        u.resets = [{ kind := 2, scope := p, since := s.tick }] ∧ changesOnly (.resets :: planPieces) s u) ∧
    (∀ d, d < 16 → s.resets = [] → ∃ u, Machine.exec (.domainReset w d 1) s = .next u ∧ u.domain d = 5 ∧
      u.resets = [{ kind := 3, scope := d, before := s.domain d, since := s.tick }] ∧ u.plans = s.plans ∧
      changesOnly linkPieces s u) ∧
    (∀ j, 1 ≤ j → j ≤ 31 → s.resets = [] → ∃ u, Machine.exec (.portReset w j 1) s = .next u ∧
      u.resets = [{ kind := 4, scope := j, since := s.tick }] ∧
      changesOnly [.outbox, .masts, .dict, .rings, .sent, .sentNum, .ports, .remote, .rats, .flows, .resets] s u) ∧
    (∀ k, k < 64 → Machine.exec (.planAbort w k 1) s = .next (ok (live s 0x50C0 (k + 1) 1)) ∧
      (((s.plan k).st = 2 ∨ (s.plan k).st = 3) → s.resets = [] →
        let u := s.liveWrite (0x50C0, k + 1, 1)
        (u.plan k).st = 4 ∧ (u.plan k).step = (s.plan k).step ∧
          u.resets = [{ kind := 5, scope := k, since := s.tick }] ∧ changesOnly (.resets :: planPieces) s u)) ∧
    (∀ m v, m < 3072 → v ≤ 2 →
      ((s.mast m).fenced = true → Machine.exec (.mastPowerRequest w m v) s = .next (s.emit .status n 7 ⟨0, 0⟩)) ∧
      ((s.mast m).fenced = false → Machine.exec (.mastPowerRequest w m v) s =
          .next (ok (live s (0x2320 + m / 192) (m % 192 + 1) v)) ∧
        let u := s.liveWrite (0x2320 + m / 192, m % 192 + 1, v)
        u.mastRequest m = v ∧
          (v = 2 → (s.mast m).power ≠ .dark → (u.mast m).goal = some .dark ∧ (u.mast m).held = false) ∧
          (v = 1 → (s.mast m).power = .lit → (u.mast m).goal = some .wick ∧ (u.mast m).held = false) ∧
          (v = 0 → (s.mast m).goal.isSome = true → (s.mast m).held = false → (u.mast m).held = true) ∧ mastsBut m s u ∧
          registersBut [(0x2320 + m / 192, m % 192 + 1)] s u ∧ changesOnly [.masts, .dict, .rings, .grants] s u)) ∧
    (∀ watts, 2800 ≤ watts → watts ≤ 5600 → watts % 50 = 0 →
      Machine.exec (.powerCapWrite w watts) s = .next (ok (live s 0x2100 1 watts)) ∧
      let u := s.liveWrite (0x2100, 1, watts)
      u.val 0x2100 1 = watts ∧ (s.running = true → u.power.edge = s.tick) ∧ (s.running = false → u.power = s.power) ∧
        changesOnly [.power, .dict, .rings, .limits] s u) ∧
    (∀ c, Machine.exec (.hostReady (.host c) 1) s =
      .next ({ s with fw := { s.fw with ready := true } }.emit .status (0x100 + c) 0 ⟨0, 0⟩)) ∧
    (∀ k image, k < 2 → image.len ≤ 2 ^ 20 → ∃ u, Machine.exec (.firmwareImageWrite w k image) s = .next u ∧
      (if s.imageFault k image ≠ 0 then u.val 0x7010 3 = 2 ∧ registersBut [(0x7010, 3)] s u ∧ changesOnly [.dict, .outbox] s u
       else u.val 0x7010 3 = 1 ∧ u.bank k (s.idleBank k) = { image := image } ∧ registersBut [(0x7000, 2), (0x7010, 3)] s u ∧
        changesOnly [.fw, .dict, .rings, .outbox] s u)) ∧
    (∀ k v, k < 2 → v = s.val 0x7000 (5 + k) → v < 65536 → s.val 0x7000 (3 + k) < v → FMap.get s.fw.raises k 0 < 64 →
      ∃ u, Machine.exec (.svnRaise w k v) s = .next u ∧ u.val 0x7000 (3 + k) = v ∧
        FMap.get u.fw.raises k 0 = FMap.get s.fw.raises k 0 + 1 ∧ registersBut [(0x7000, 3 + k)] s u ∧
        changesOnly [.fw, .dict, .rings, .outbox] s u) ∧
    (∀ t : Octets, t.len ≤ 2 ^ 20 → s.running = true → s.resets = [] → ∃ u, Machine.exec (.debugToken w t) s = .next u ∧
      (if s.tokenGood t = true then u.pkg = pkgBooting ∧ u.fw.opening.isSome = true ∧ u.resets.length = 1 ∧
          keeps [.tick, .sessions, .stagers, .commits, .ident] s u
        else registersBut [(0x7080, 1)] s u ∧ changesOnly [.draws, .dict, .outbox] s u)) ∧
    ((s.val 0x7080 4 = 0 → Machine.exec (.debugRelock w 1) s = .next (ok s)) ∧
      (s.val 0x7080 4 ≠ 0 → s.resets = [] → ∃ u, Machine.exec (.debugRelock w 1) s = .next u ∧ u.val 0x7080 4 = 0 ∧
        u.pkg = pkgBooting ∧ u.resets.length = 1 ∧ keeps [.tick, .sessions, .stagers, .commits, .ident] s u))

/-- PARTITION_STOP (R468) of a partition that exists, by an operator: the partition is Stopped, its masts are Dark with no
thread, and 7102h reports it; one that does not exist is refused with RANGE. -/
def Obligations.PartitionStops : Prop :=
  ∀ (s : State) (n p : Nat), p < 16 → s.pkg ≠ pkgOff →
    (s.partExists p = false → Machine.exec (.partitionStop (.operator n) p 1) s = .next (s.emit .status n 7 ⟨0, 0⟩)) ∧
    (s.partExists p = true → ∃ u, Machine.exec (.partitionStop (.operator n) p 1) s = .next u ∧ (u.part p).st = .stopped ∧
      ((s.part p).st = .stopped → u = s.emit .status n 0 ⟨0, 0⟩) ∧
      ((s.part p).st ≠ .stopped → u.val 0x7102 (p + 1) = 2 ∧
        ∀ m, m < 3072 → bitOf (s.val (0x7120 + p) 1) m = true → (u.mast m).power = .dark ∧ (u.mast m).threads = []) ∧
      changesOnly (.resets :: planPieces) s u)

/-- COMMIT_CHECKS_DONE (R408 to R411): the oldest commit in checks is judged on the settings as the commits that have passed
leave them. One that a check refuses is REFUSED with the check's code and the object, leaves the waiting commits, and changes
no setting but, after admission, the verdicts of 5080h; one that passes waits for the edge on which it flips, with its
verdicts noted. -/
def Obligations.CommitChecks : Prop :=
  ∀ (s : State) (q : CommitReq), (s.commits.find? fun c => !c.passed) = some q →
    let verdict := s.judgeCommit s.judgedView (s.judgedView.withValues q.set) q
    ∃ u, Machine.exec .commitChecksDone s = .next u ∧
      (∀ r, verdict = some r → (∀ c, c ∈ u.commits ↔ c ∈ s.commits ∧ c.num ≠ q.num) ∧
        (∀ i x, (s.stager i).records.find? (fun y => y.num == q.num) = some x →
          ∃ y, (u.stager i).records.find? (fun y => y.num == q.num) = some y ∧ y.status = 2 ∧ y.code = r.code ∧
            y.index = keyIdx r.key ∧ y.sub = keySub r.key) ∧
        (r.code ≠ 6 → u.dict = s.dict) ∧ (∀ i j, (i < 0x5080 ∨ 0x50BF < i) → j < 256 → u.obj i j = s.obj i j) ∧
        changesOnly [.commits, .stagers, .dict, .rings] s u) ∧
      (verdict = none → u.commits = s.commits.map (fun c => if c.num = q.num then { c with passed := true } else c) ∧
        (∀ i j, (i < 0x5080 ∨ 0x50BF < i) → j < 256 → u.obj i j = s.obj i j) ∧ changesOnly [.commits, .dict] s u)

/-! ### Power, start-up, resets and security -/

/-- POWER_ON, POWER_LOSS and RESETREQ (R427, R428, R489): the supply brings the package to Standby with its counter at the
ticks elapsed; a loss of power leaves it Off with memory, ports, plans, sessions and masts empty; 5Ah written to RESETREQ is
a power reset, any other value nothing. -/
def Obligations.PowerResets : Prop :=
  ∀ (s : State) (n v : Nat),
    let empty := fun (u : State) => u.mem = [] ∧ u.masts = [] ∧ u.ports = [] ∧ u.rats = [] ∧ u.plans = [] ∧
      u.sessions = [] ∧ u.stagers = [] ∧ u.commits = [] ∧ u.writes = [] ∧ u.grants = [] ∧ u.rings = [] ∧ u.resets = []
    (s.pkg = pkgOff → ∃ u, Machine.exec (.powerOn n) s = .next u ∧ u.pkg = pkgStandby ∧ u.tick = n ∧
      registersBut [(0x2000, 1), (0x7080, 1), (0x3400, 17)] s u ∧ changesOnly [.tick, .draws, .dict, .parts, .carve] s u) ∧
    (s.pkg ≠ pkgOff → ∃ u, Machine.exec .powerLoss s = .next u ∧ u.pkg = pkgOff ∧ empty u ∧
      keeps [.pending, .ident, .outbox, .free, .draws] s u) ∧
    (s.pkg ≠ pkgOff → ∃ u, Machine.exec (.resetreq 0x5A) s = .next u ∧ u.pkg = pkgStandby ∧ u.tick = 0 ∧ empty u ∧
      keeps [.pending, .ident, .outbox, .free] s u) ∧
    (s.pkg ≠ pkgOff → v ≠ 0x5A → Machine.exec (.resetreq v) s = .next s)

/-- POWER_SAMPLE and CAP_EVALUATE (R436 to R438): a sample, 25 ticks after the last, joins the last 25; on an exact multiple of
625 ticks from the last edge on which a cap took effect the cap ceiling moves as R437 says, and the gate ceiling is the lower
of the two ceilings. A new cap runs such an evaluation on its own edge.
THERMAL_THROTTLE and THERMAL_WINDOW_END (R440): a sensor at the threshold of 2200h:01 brings the thermal ceiling to 32 at
the most; a window's end, at a multiple of 25,000 ticks and once in a tick, halves it while a sensor stays there, doubles it
up to 64 where every reading was more than 3 °C below, else leaves it. -/
def Obligations.IssueCeilings : Prop :=
  (∀ (s : State) (watts mv : Nat),
      let evaluated := fun (u : State) (cap : Nat) =>
        (u.power.cap, u.power.above) = capStep cap s.power.cap s.power.above s.power.mean.1 s.power.mean.2 ∧
          u.power.edge = s.tick ∧ u.val 0x2100 2 = min u.power.cap (s.val 0x2200 5) % 256 ∧
          u.power.samples = s.power.samples ∧ changesOnly [.power, .dict, .rings, .limits] s u
      (s.pkg ≠ pkgOff → s.power.sampled + 25 ≤ s.tick → ∃ u, Machine.exec (.powerSample watts mv) s = .next u ∧
        u.power = { s.power with samples := (watts :: s.power.samples).take 25, sampled := s.tick } ∧
        u.val 0x2000 6 = mv % 2 ^ 32 ∧ registersBut [(0x2000, 6)] s u ∧ changesOnly [.power, .dict] s u) ∧
      (s.running = true → s.power.edge < s.tick → (s.tick - s.power.edge) % 625 = 0 →
        ∃ u, Machine.exec .capEvaluate s = .next u ∧ evaluated u (s.val 0x2100 1) ∧
          registersBut [(0x2000, 7), (0x2100, 4), (0x2100, 2)] s u) ∧
      (s.running = true → 2800 ≤ watts → watts ≤ 5600 →
        evaluated (s.liveWrite (0x2100, 1, watts)) watts ∧
          registersBut [(0x2000, 7), (0x2100, 1), (0x2100, 4), (0x2100, 2)] s (s.liveWrite (0x2100, 1, watts)))) ∧
  (∀ (s : State) (sensor reading : Nat) (rs : List (Nat × Nat)),
      let t := s.val 0x2200 1
      let g := s.val 0x2200 5
      (sensor < 384 → s.pkg ≠ pkgOff → t ≤ reading →
        ∃ u, Machine.exec (.thermalThrottle sensor reading) s = .next u ∧ u.val 0x2200 5 = min 32 g ∧
          u.val 0x2100 2 = min s.power.cap (min 32 g) % 256 ∧ FMap.get u.power.readings sensor 0 = reading ∧
          registersBut [(0x2200, 2), (0x2200, 3), (0x2200, 5), (0x2100, 2)] s u ∧
          changesOnly [.power, .dict, .rings, .outbox] s u) ∧
      (s.tick % 25000 = 0 → s.power.window < s.tick → s.pkg ≠ pkgOff →
        ∃ u, Machine.exec (.thermalWindowEnd rs) s = .next u ∧ u.power.window = s.tick ∧
          let hot := (u.power.readings.any fun e => decide (t ≤ e.2)) = true
          let cool := ((s.power.readings ++ rs).all fun e => decide (e.2 + 3 < t)) = true
          u.val 0x2200 5 = (if hot then max 1 (g / 2) % 256 else if cool then min 64 (2 * g) else g) ∧
          registersBut [(0x2200, 2), (0x2200, 3), (0x2200, 5), (0x2100, 2)] s u ∧ changesOnly [.power, .dict, .rings] s u))

/-- THERMAL_SHUTDOWN, INPUT_UNDERVOLTAGE and INPUT_OVERVOLTAGE (R441, R442): the protective shutdown, the first of a package in
any state but Off and Shutdown, the others of a package whose fast domains run. The package is in Shutdown, every fast clock
and rail is off, and memory, ports, ratlines and masts are lost; resets in progress are gone. -/
def Obligations.ProtectiveShutdown : Prop :=
  ∀ (s : State) (sensor reading mv : Nat),
    let down := fun (u : State) => u.pkg = pkgShutdown ∧ u.val 0x2000 3 = 0 ∧ u.val 0x2000 4 = 0 ∧ u.val 0x2000 5 = 0 ∧
      u.mem = [] ∧ u.ports = [] ∧ u.rats = [] ∧ u.plans = [] ∧ u.lines = [] ∧ u.resets = [] ∧
      (∀ m, (u.mast m).power = .dark) ∧
      keeps [.pending, .tick, .free, .draws, .ident, .parts, .snaps, .snapRing, .writes, .limits, .sessions, .stagers,
        .commits, .commitNum, .deferred, .accepted, .holdNum, .sentNum, .heard, .remoteNum, .domains, .fw, .mgmtRate,
        .mgmtSince, .i3cAddr, .ibien, .hellos, .carve] s u
    (sensor < 384 → s.pkg ≠ pkgOff → s.pkg ≠ pkgShutdown → 105 ≤ reading → ∃ u, Machine.exec (.thermalShutdown sensor reading) s = .next u ∧ down u) ∧
    (s.running = true → mv < 40000 → ∃ u, Machine.exec (.inputUndervoltage mv) s = .next u ∧ down u ∧ u.power = s.power) ∧
    (s.running = true → 60000 < mv → ∃ u, Machine.exec (.inputOvervoltage mv) s = .next u ∧ down u ∧ u.power = s.power)

/-- DOMAIN_FORCE_DARK, DOMAIN_OFF, DOMAIN_ON and DOMAIN_RESET_TIMEOUT (R443, R469): after 1 ms every mast that is still up is
Dark; with all Dark the domain is Off, or waits to come back where an enable was held; a waking domain of a Ready package
is On; a domain reset that is not complete after 5 ms fences the die pair. -/
def Obligations.DomainEvents : Prop :=
  ∀ (s : State) (d : Nat) (r : Reset), d < 16 →
    ((s.domain d = 1 ∨ s.domain d = 4) → s.awake d ≠ [] → (FMap.get s.domains d (0, 0)).1 + 25000 ≤ s.tick →
      ∃ u, Machine.exec (.domainForceDark d) s = .next u ∧ (∀ m, m ∈ s.awake d → (u.mast m).power = .dark) ∧
        (∀ m, m ∉ s.awake d → u.mast m = s.mast m) ∧ u.domain d = s.domain d ∧
        changesOnly [.masts, .trackers, .heldReqs, .dict, .domains] s u) ∧
    ((s.domain d = 1 ∨ s.domain d = 4) → s.awake d = [] → ∃ u, Machine.exec (.domainOff d) s = .next u ∧
      u.domain d = (if s.domain d = 4 then 3 else 2) ∧ calmAll s u ∧
      changesOnly [.masts, .lines, .directory, .trackers, .heldReqs, .hot, .dict, .rings, .limits, .domains] s u) ∧
    (s.domain d = 3 → s.pkg = pkgReady → ∃ u, Machine.exec (.domainOn d) s = .next u ∧ u.domain d = 0 ∧
      (∀ m, m / 192 ≠ d → u.mast m = s.mast m) ∧ changesOnly [.masts, .dict, .rings] s u) ∧
    ((s.resets.find? fun q => q.kind == 3 && q.scope == d) = some r → r.since + 125000 ≤ s.tick →
      ∃ u, Machine.exec (.domainResetTimeout d) s = .next u ∧ u.dieFenced d = true ∧ changesOnly linkPieces s u)

/-- STARTUP_STEP (R445 to R447): the steps in their order. Step 1 ends; step 2 runs a pilot bank or stops in recovery;
step 3 runs a loader bank and switches the fast rails on, or stops in Standby, as it does where the input is out of range;
step 4 zeroes the lamplighter carve-out, or fences a mast that failed its bond test, or stops; step 5 ends once every port has
settled or 1 s has passed.
Ready is entered on the pilot-clock edge on which step 5 has ended and the host has written 1 to 2500h:03 (R446): step 6 and the
tick are reported. -/
def Obligations.StartUp : Prop :=
  (∀ (s : State) (fails : Bool) (cause : Nat), s.pkg = (if s.val 0x2500 1 < 2 then pkgStandby else pkgBooting) →
      s.val 0x2500 2 = 0 → s.fw.recovery = false →
      let only := fun (u : State) =>
        changesOnly [.outbox, .mem, .poisoned, .masts, .trackers, .heldReqs, .dict, .rings, .ports, .rats, .power, .fw] s u
      (s.val 0x2500 1 = 0 → ∃ u, Machine.exec (.startupStep false cause) s = .next u ∧ u.val 0x2500 1 = 1 ∧
        registersBut [(0x2500, 1)] s u ∧ changesOnly [.dict, .rings] s u) ∧
      (s.val 0x2500 1 = 1 → ∃ u, Machine.exec (.startupStep fails cause) s = .next u ∧
        (fails = true ∨ s.bankToRun 0 = none →
          u.fw.recovery = true ∧ u.val 0x2500 1 = 1 ∧ u.val 0x2500 2 = 2 * 256 + cause % 256) ∧
        (∀ b, fails = false → s.bankToRun 0 = some b → u.pkg = pkgBooting ∧ u.val 0x2500 1 = 2 ∧ u.power.cap = 64 ∧
          u.fw.serviced = s.tick) ∧ only u) ∧
      (s.val 0x2500 1 = 2 → s.inputOk = false → ∃ u, Machine.exec (.startupStep fails cause) s = .next u ∧
        u.pkg = pkgStandby ∧ u.val 0x2500 1 = 2 ∧ only u) ∧
      (s.val 0x2500 1 = 2 → s.inputOk = true → ∃ u, Machine.exec (.startupStep fails cause) s = .next u ∧
        (fails = true ∨ s.bankToRun 1 = none → u.pkg = pkgStandby ∧ u.val 0x2500 2 = 3 * 256 + cause % 256) ∧
        (∀ b, fails = false → s.bankToRun 1 = some b → u.val 0x2500 1 = 3 ∧ u.fw.loader = b ∧ u.val 0x2000 4 = 0xFFFF ∧
          u.val 0x2000 5 = 3) ∧ only u) ∧
      (s.val 0x2500 1 = 3 → ∃ u, Machine.exec (.startupStep false 0) s = .next u ∧ u.val 0x2500 1 = 4 ∧
        u.fw.bringUp = s.tick ∧ (∀ a, u.byte a = if a < s.carve * 2 ^ 30 then 0#8 else s.byte a) ∧ only u) ∧
      (s.val 0x2500 1 = 3 → 0 < cause → cause ≤ 3072 → ∃ u, Machine.exec (.startupStep false cause) s = .next u ∧
        (u.mast (cause - 1)).fenced = true ∧ u.val 0x2500 1 = 3 ∧ mastsBut (cause - 1) s u ∧ only u) ∧
      (s.val 0x2500 1 = 3 → ∃ u, Machine.exec (.startupStep true cause) s = .next u ∧
        u.val 0x2500 1 = 3 ∧ u.val 0x2500 2 = 4 * 256 + cause % 256 ∧ registersBut [(0x2500, 2)] s u ∧
        changesOnly [.dict, .rings] s u) ∧
      (s.val 0x2500 1 = 4 → (s.portsSettled = true ∨ s.fw.bringUp + 25000000 ≤ s.tick) →
        ∃ u, Machine.exec (.startupStep false cause) s = .next u ∧ u.val 0x2500 1 = 5 ∧ registersBut [(0x2500, 1)] s u ∧
          changesOnly [.dict, .rings] s u)) ∧
  (∀ s : State, s.pending = [] → quietEdge { s with fw := { s.fw with ready := false } } → s.fw.ready = true →
      s.pkg = pkgBooting → s.val 0x2500 1 = 5 → ∃ u, Machine.step s = .next u ∧ u.pkg = pkgReady ∧ u.val 0x2500 1 = 6 ∧
        u.val 0x2500 4 = (s.tick + 1) % 2 ^ 64 ∧ changesOnly [.tick, .outbox, .masts, .dict, .rings] s u)

/-- RESET_COMPLETE (R448 to R450): a reset that has run to its end is no longer in progress. Where no value and no commit waits
for it, it is counted in 2640h, and its partition is Live again, or its domain in the state it was in. -/
def Obligations.ResetCompletes : Prop :=
  ∀ (s : State) (kind scope : Nat) (r : Reset), (s.resets.find? fun q => q.kind == kind && q.scope == scope) = some r →
    s.resetEnds r = true →
    ∃ u, Machine.exec (.resetComplete kind scope) s = .next u ∧
      (∀ q, q ∈ u.resets ↔ q ∈ s.resets ∧ ¬(q.kind = kind ∧ q.scope = scope)) ∧
      (s.deferred = [] → s.passed = [] → counts s u 0x2640 kind 1 ∧ (kind = 2 → (u.part scope).st = .live) ∧
        (kind = 3 → scope < 16 → u.domain scope = r.before % 256) ∧ changesOnly [.dict, .rings, .parts, .resets, .fw] s u) ∧
      keeps [.pending, .tick, .ident, .streams, .openRows, .hotSince, .hbm, .snaps, .snapRing, .writes, .sessions, .commitNum,
        .heard, .remote, .remoteNum, .flows, .bondSince, .mailSlots, .mailbox, .peerMail, .grants, .power, .mgmtRate,
        .mgmtSince, .i3cAddr, .ibien, .hellos, .carve] s u

/-- RECOVERY_IMAGE, DEBUG_LIFE_EXPIRY and PILOT_RESTARTED (R43, R455, R457, R462): in recovery a valid pilot image goes to bank A,
and start-up resumes after step 1, or, in a package that had booted, the firmware runs; an invalid one changes nothing. Open
debug scopes close when their life ends, with a package reset. Firmware that has not serviced its watchdog for 25,000 ticks
restarts: the commit in checks is refused, the host mailbox and the peer mailbox are empty, and a bank runs, or the ROM is in
recovery. -/
def Obligations.FirmwareEvents : Prop :=
  ∀ (s : State) (image : Octets) (t : Nat),
    (s.fw.recovery = true → ∃ u, Machine.exec (.recoveryImage image) s = .next u ∧
      (if s.imageFault 0 image ≠ 0 then u = s else u.fw.recovery = false ∧ u.bank 0 0 = { image := image } ∧
        (s.val 0x2500 1 < 2 → u.val 0x2500 1 = 1 ∧ u.val 0x2500 2 = 0 ∧
          registersBut [(0x7000, 2), (0x2500, 1), (0x2500, 2)] s u) ∧
        (2 ≤ s.val 0x2500 1 → u.val 0x2500 5 = 0 ∧ u.fw.serviced = s.tick ∧
          registersBut [(0x7000, 2), (0x1010, 2), (0x7000, 5), (0x2500, 5)] s u)) ∧ changesOnly [.fw, .dict, .rings] s u) ∧
    (s.fw.life = some t → t ≤ s.tick → s.resets = [] → ∃ u, Machine.exec .debugLifeExpiry s = .next u ∧ u.val 0x7080 4 = 0 ∧
      u.fw.life = none ∧ u.pkg = pkgBooting ∧ u.resets.length = 1 ∧
      keeps [.pending, .tick, .free, .outbox, .ident, .writes, .limits, .sessions, .stagers, .commits, .commitNum, .deferred,
        .accepted, .holdNum, .sentNum, .heard, .remoteNum, .mgmtRate, .mgmtSince, .i3cAddr, .ibien, .hellos] s u) ∧
    (s.choanUp = true → s.fw.serviced + 25000 ≤ s.tick → ∃ u, Machine.exec .pilotRestarted s = .next u ∧
      u.mailSlots = [] ∧ u.peerMail = [] ∧
      (∀ q, (s.commits.find? fun c => !c.passed) = some q → ∀ c, c ∈ u.commits ↔ c ∈ s.commits ∧ c.num ≠ q.num) ∧
      (if s.bankToRun 0 = none then u.fw.recovery = true else u.fw.serviced = s.tick ∧ u.fw.recovery = false) ∧
      changesOnly [.outbox, .dict, .rings, .stagers, .commits, .ports, .mailSlots, .mailbox, .peerMail, .fw] s u)

/-- MGMT_LINK_ATTEMPT and DYNAMIC_ADDRESS (R487, R488): a link that forms reports its rate, 25 or 10 Gbit/s; after 2 s without
one the port tries the other rate; an assigned address is the one in use. -/
def Obligations.ManagementPort : Prop :=
  ∀ (s : State) (a : Nat), s.pkg ≠ pkgOff →
    (s.val 0x1020 9 = 0 → ∃ u, Machine.exec (.mgmtLinkAttempt true) s = .next u ∧ u.val 0x1020 9 = s.mgmtRate % 256 ∧
      registersBut [(0x1020, 9)] s u ∧ changesOnly [.dict] s u) ∧
    (s.val 0x1020 9 = 0 → s.mgmtSince + 50000000 ≤ s.tick → Machine.exec (.mgmtLinkAttempt false) s =
      .next { s with mgmtRate := if s.mgmtRate = 25 then 10 else 25, mgmtSince := s.tick }) ∧
    (a < 128 → Machine.exec (.dynamicAddress a) s = .next { s with i3cAddr := a })

end
end

