-- ==== Sys2Proof/Laws/Maps.lean ====
section
/-! SUPPORT. What the sparse maps do: reading after writing, reading elsewhere, and the canonical form. The laws of `get`
need no canonical form; those of `wf` say that every write keeps it. -/
namespace Sys2Proof.Machine
variable {α : Type}

/-! ### Reading after writing -/

@[simp] theorem FMap.get_nil (k : Nat) (d : α) : FMap.get ([] : FMap α) k d = d := rfl

@[simp] theorem FMap.get_put_same (m : FMap α) (k : Nat) (v d : α) : FMap.get (FMap.put m k v) k d = v := by
  induction m with
  | nil => simp [FMap.put, FMap.get]
  | cons e r ih =>
    simp only [FMap.put]
    split
    · simp [FMap.get]
    · split
      · simp [FMap.get]
      · next h => simp [FMap.get, Ne.symm h, ih]

theorem FMap.get_put_other (m : FMap α) {k j : Nat} (v d : α) (h : j ≠ k) :
    FMap.get (FMap.put m k v) j d = FMap.get m j d := by
  induction m with
  | nil => simp [FMap.put, FMap.get, h.symm]
  | cons e r ih =>
    simp only [FMap.put]
    split
    · simp [FMap.get, h.symm]
    · split
      · next hk => subst hk; simp [FMap.get, h.symm]
      · simp [FMap.get, ih]

@[simp] theorem FMap.get_erase_same (m : FMap α) (k : Nat) (d : α) : FMap.get (FMap.erase m k) k d = d := by
  induction m with
  | nil => rfl
  | cons e r ih =>
    simp only [FMap.erase]
    split
    · exact ih
    · next h => simp [FMap.get, h, ih]

theorem FMap.get_erase_other (m : FMap α) {k j : Nat} (d : α) (h : j ≠ k) :
    FMap.get (FMap.erase m k) j d = FMap.get m j d := by
  induction m with
  | nil => rfl
  | cons e r ih =>
    simp only [FMap.erase]
    split
    · next hk => subst hk; simp [FMap.get, h.symm, ih]
    · simp [FMap.get, ih]

@[simp] theorem FMap.get_set_same [DecidableEq α] (m : FMap α) (k : Nat) (d v : α) :
    FMap.get (FMap.set m k d v) k d = v := by
  simp only [FMap.set]
  split
  · next h => simp [h]
  · simp

theorem FMap.get_set_other [DecidableEq α] (m : FMap α) {k j : Nat} (d v d' : α) (h : j ≠ k) :
    FMap.get (FMap.set m k d v) j d' = FMap.get m j d' := by
  simp only [FMap.set]
  split
  · exact FMap.get_erase_other m d' h
  · exact FMap.get_put_other m v d' h

/-- Reading after writing, in one equation. -/
theorem FMap.get_set [DecidableEq α] (m : FMap α) (k j : Nat) (d v : α) :
    FMap.get (FMap.set m k d v) j d = if j = k then v else FMap.get m j d := by
  split
  · next h => subst h; exact FMap.get_set_same ..
  · next h => exact FMap.get_set_other m d v d h

theorem FMap.get_clearRange (m : FMap α) (lo hi k : Nat) (d : α) :
    FMap.get (FMap.clearRange m lo hi) k d = if lo ≤ k ∧ k < hi then d else FMap.get m k d := by
  induction m with
  | nil => simp [FMap.clearRange]
  | cons e r ih =>
    have step : FMap.clearRange (e :: r) lo hi =
        if lo ≤ e.1 ∧ e.1 < hi then FMap.clearRange r lo hi else e :: FMap.clearRange r lo hi := by
      by_cases h : lo ≤ e.1 ∧ e.1 < hi
      · simp [FMap.clearRange, h.1, h.2]
      · rw [if_neg h]
        have : (!(decide (lo ≤ e.1) && decide (e.1 < hi))) = true := by
          rw [← Bool.decide_and, decide_eq_false h]; rfl
        simp only [FMap.clearRange, List.filter_cons, this, if_true]
    rw [step]
    by_cases hk : e.1 = k
    · subst hk
      by_cases hr : lo ≤ e.1 ∧ e.1 < hi
      · rw [if_pos hr, ih, if_pos hr, if_pos hr]
      · simp [FMap.get, hr]
    · by_cases hr : lo ≤ e.1 ∧ e.1 < hi
      · rw [if_pos hr, ih]; simp [FMap.get, hk]
      · rw [if_neg hr]; simp [FMap.get, hk, ih]

/-! ### The canonical form -/

theorem FMap.wfFrom_mono [DecidableEq α] {d : α} {a b : Nat} {m : FMap α} (h : FMap.wfFrom d b m = true) (hab : a ≤ b) :
    FMap.wfFrom d a m = true := by
  cases m with
  | nil => rfl
  | cons e r => simp_all [FMap.wfFrom]; omega

theorem FMap.wfFrom_put [DecidableEq α] {d : α} {lo k : Nat} {m : FMap α} {v : α} (h : FMap.wfFrom d lo m = true)
    (hk : lo ≤ k) (hv : v ≠ d) : FMap.wfFrom d lo (FMap.put m k v) = true := by
  induction m generalizing lo with
  | nil => simp [FMap.put, FMap.wfFrom, hk, hv]
  | cons e r ih =>
    simp only [FMap.wfFrom, Bool.and_eq_true, decide_eq_true_eq] at h
    simp only [FMap.put]
    split
    · next hlt => simp [FMap.wfFrom, hk, hv, h]; omega
    · split
      · next he => subst he; simp [FMap.wfFrom, hk, hv, h]
      · simp only [FMap.wfFrom, Bool.and_eq_true, decide_eq_true_eq]
        exact ⟨h.1, ih h.2 (by omega)⟩

theorem FMap.wfFrom_erase [DecidableEq α] {d : α} {lo k : Nat} {m : FMap α} (h : FMap.wfFrom d lo m = true) :
    FMap.wfFrom d lo (FMap.erase m k) = true := by
  induction m generalizing lo with
  | nil => rfl
  | cons e r ih =>
    simp only [FMap.wfFrom, Bool.and_eq_true, decide_eq_true_eq] at h
    simp only [FMap.erase]
    split
    · exact FMap.wfFrom_mono (ih h.2) (by omega)
    · simp only [FMap.wfFrom, Bool.and_eq_true, decide_eq_true_eq]
      exact ⟨h.1, ih h.2⟩

theorem FMap.wf_set [DecidableEq α] {d : α} {m : FMap α} (h : FMap.wf d m = true) (k : Nat) (v : α) :
    FMap.wf d (FMap.set m k d v) = true := by
  simp only [FMap.set]
  split
  · exact FMap.wfFrom_erase h
  · next hv => exact FMap.wfFrom_put h (Nat.zero_le k) hv

theorem FMap.wfFrom_filter [DecidableEq α] {d : α} {lo : Nat} {m : FMap α} (p : Nat × α → Bool)
    (h : FMap.wfFrom d lo m = true) : FMap.wfFrom d lo (m.filter p) = true := by
  induction m generalizing lo with
  | nil => rfl
  | cons e r ih =>
    simp only [FMap.wfFrom, Bool.and_eq_true, decide_eq_true_eq] at h
    simp only [List.filter_cons]
    split
    · simp only [FMap.wfFrom, Bool.and_eq_true, decide_eq_true_eq]
      exact ⟨h.1, ih h.2⟩
    · exact FMap.wfFrom_mono (ih h.2) (by omega)

theorem FMap.wf_clearRange [DecidableEq α] {d : α} {m : FMap α} (h : FMap.wf d m = true) (lo hi : Nat) :
    FMap.wf d (FMap.clearRange m lo hi) = true := FMap.wfFrom_filter _ h

theorem FMap.wf_writeLE {m : FMap Byte} (h : FMap.wf 0#8 m = true) (a n v : Nat) :
    FMap.wf 0#8 (FMap.writeLE m a n v) = true := by
  induction n generalizing m a v with
  | zero => exact h
  | succ n ih => exact ih (FMap.wf_set h a _) (a + 1) (v / 256)

/-! ### Bytes -/

/-- What stands in memory after a write of `n` bytes: byte `b - a` of the value inside, what stood there outside. -/
theorem FMap.get_writeLE (m : FMap Byte) (a n v b : Nat) :
    FMap.get (FMap.writeLE m a n v) b 0#8 =
      if a ≤ b ∧ b < a + n then BitVec.ofNat 8 (v / 256 ^ (b - a)) else FMap.get m b 0#8 := by
  induction n generalizing m a v with
  | zero => simp [FMap.writeLE]
  | succ n ih =>
    simp only [FMap.writeLE, ih, FMap.get_set]
    by_cases hb : b = a
    · subst hb
      simp
    · by_cases hr : a + 1 ≤ b ∧ b < a + 1 + n
      · have h2 : a ≤ b ∧ b < a + (n + 1) := by omega
        rw [if_pos hr, if_pos h2, Nat.div_div_eq_div_mul, ← Nat.pow_succ']
        congr 3
        omega
      · have h2 : ¬ (a ≤ b ∧ b < a + (n + 1)) := by omega
        rw [if_neg hr, if_neg h2, if_neg hb]

theorem FMap.readLE_congr {m m' : FMap Byte} {a n : Nat}
    (h : ∀ b, a ≤ b → b < a + n → FMap.get m' b 0#8 = FMap.get m b 0#8) : FMap.readLE m' a n = FMap.readLE m a n := by
  induction n generalizing a with
  | zero => rfl
  | succ n ih =>
    simp only [FMap.readLE]
    rw [h a (Nat.le_refl a) (by omega), ih fun b hb hb' => h b (by omega) (by omega)]

/-- Reading back what was written. -/
theorem FMap.readLE_writeLE (m : FMap Byte) (a n v : Nat) : FMap.readLE (FMap.writeLE m a n v) a n = v % 256 ^ n := by
  induction n generalizing m a v with
  | zero => simp [FMap.readLE, Nat.mod_one]
  | succ n ih =>
    simp only [FMap.readLE]
    rw [FMap.get_writeLE]
    simp only [FMap.writeLE]
    rw [ih, if_pos (by omega)]
    simp only [Nat.sub_self, Nat.pow_zero, Nat.div_one, BitVec.toNat_ofNat]
    have hp : (256 : Nat) ^ (n + 1) = 256 * 256 ^ n := Nat.pow_succ'
    rw [hp, Nat.mod_mul]

/-- A write leaves a range that it does not meet. -/
theorem FMap.readLE_writeLE_other (m : FMap Byte) {a n v b k : Nat} (h : b + k ≤ a ∨ a + n ≤ b) :
    FMap.readLE (FMap.writeLE m a n v) b k = FMap.readLE m b k := by
  refine FMap.readLE_congr fun c hc hc' => ?_
  rw [FMap.get_writeLE, if_neg (by omega)]

end Sys2Proof.Machine
end

