-- ==== Sys2Proof/Laws/State.lean ====
section
/-! SUPPORT. What each update of the state leaves as it was, one lemma per update and field, and what each accessor reads
after the update of its own piece. -/
namespace Sys2Proof.Machine

/-! ### setMast -/

@[simp] theorem State.setMast_pending (s : State) (m : Nat) (x : Mast) : (s.setMast m x).pending = s.pending := rfl
@[simp] theorem State.setMast_tick (s : State) (m : Nat) (x : Mast) : (s.setMast m x).tick = s.tick := rfl
@[simp] theorem State.setMast_free (s : State) (m : Nat) (x : Mast) : (s.setMast m x).free = s.free := rfl
@[simp] theorem State.setMast_draws (s : State) (m : Nat) (x : Mast) : (s.setMast m x).draws = s.draws := rfl
@[simp] theorem State.setMast_outbox (s : State) (m : Nat) (x : Mast) : (s.setMast m x).outbox = s.outbox := rfl
@[simp] theorem State.setMast_ident (s : State) (m : Nat) (x : Mast) : (s.setMast m x).ident = s.ident := rfl
@[simp] theorem State.setMast_mem (s : State) (m : Nat) (x : Mast) : (s.setMast m x).mem = s.mem := rfl
@[simp] theorem State.setMast_poisoned (s : State) (m : Nat) (x : Mast) : (s.setMast m x).poisoned = s.poisoned := rfl
@[simp] theorem State.setMast_grad (s : State) (m : Nat) (x : Mast) : (s.setMast m x).grad = s.grad := rfl
@[simp] theorem State.setMast_panes (s : State) (m : Nat) (x : Mast) : (s.setMast m x).panes = s.panes := rfl
@[simp] theorem State.setMast_trims (s : State) (m : Nat) (x : Mast) : (s.setMast m x).trims = s.trims := rfl
@[simp] theorem State.setMast_parts (s : State) (m : Nat) (x : Mast) : (s.setMast m x).parts = s.parts := rfl
@[simp] theorem State.setMast_lines (s : State) (m : Nat) (x : Mast) : (s.setMast m x).lines = s.lines := rfl
@[simp] theorem State.setMast_uses (s : State) (m : Nat) (x : Mast) : (s.setMast m x).uses = s.uses := rfl
@[simp] theorem State.setMast_directory (s : State) (m : Nat) (x : Mast) : (s.setMast m x).directory = s.directory := rfl
@[simp] theorem State.setMast_trackers (s : State) (m : Nat) (x : Mast) : (s.setMast m x).trackers = s.trackers := rfl
@[simp] theorem State.setMast_streams (s : State) (m : Nat) (x : Mast) : (s.setMast m x).streams = s.streams := rfl
@[simp] theorem State.setMast_openRows (s : State) (m : Nat) (x : Mast) : (s.setMast m x).openRows = s.openRows := rfl
@[simp] theorem State.setMast_heldReqs (s : State) (m : Nat) (x : Mast) : (s.setMast m x).heldReqs = s.heldReqs := rfl
@[simp] theorem State.setMast_hot (s : State) (m : Nat) (x : Mast) : (s.setMast m x).hot = s.hot := rfl
@[simp] theorem State.setMast_hotSince (s : State) (m : Nat) (x : Mast) : (s.setMast m x).hotSince = s.hotSince := rfl
@[simp] theorem State.setMast_hbm (s : State) (m : Nat) (x : Mast) : (s.setMast m x).hbm = s.hbm := rfl
@[simp] theorem State.setMast_lantern (s : State) (m : Nat) (x : Mast) : (s.setMast m x).lantern = s.lantern := rfl
@[simp] theorem State.setMast_silent (s : State) (m : Nat) (x : Mast) : (s.setMast m x).silent = s.silent := rfl
@[simp] theorem State.setMast_dict (s : State) (m : Nat) (x : Mast) : (s.setMast m x).dict = s.dict := rfl
@[simp] theorem State.setMast_snaps (s : State) (m : Nat) (x : Mast) : (s.setMast m x).snaps = s.snaps := rfl
@[simp] theorem State.setMast_snapRing (s : State) (m : Nat) (x : Mast) : (s.setMast m x).snapRing = s.snapRing := rfl
@[simp] theorem State.setMast_writes (s : State) (m : Nat) (x : Mast) : (s.setMast m x).writes = s.writes := rfl
@[simp] theorem State.setMast_rings (s : State) (m : Nat) (x : Mast) : (s.setMast m x).rings = s.rings := rfl
@[simp] theorem State.setMast_limits (s : State) (m : Nat) (x : Mast) : (s.setMast m x).limits = s.limits := rfl
@[simp] theorem State.setMast_sessions (s : State) (m : Nat) (x : Mast) : (s.setMast m x).sessions = s.sessions := rfl
@[simp] theorem State.setMast_stagers (s : State) (m : Nat) (x : Mast) : (s.setMast m x).stagers = s.stagers := rfl
@[simp] theorem State.setMast_commits (s : State) (m : Nat) (x : Mast) : (s.setMast m x).commits = s.commits := rfl
@[simp] theorem State.setMast_commitNum (s : State) (m : Nat) (x : Mast) : (s.setMast m x).commitNum = s.commitNum := rfl
@[simp] theorem State.setMast_deferred (s : State) (m : Nat) (x : Mast) : (s.setMast m x).deferred = s.deferred := rfl
@[simp] theorem State.setMast_accepted (s : State) (m : Nat) (x : Mast) : (s.setMast m x).accepted = s.accepted := rfl
@[simp] theorem State.setMast_plans (s : State) (m : Nat) (x : Mast) : (s.setMast m x).plans = s.plans := rfl
@[simp] theorem State.setMast_holds (s : State) (m : Nat) (x : Mast) : (s.setMast m x).holds = s.holds := rfl
@[simp] theorem State.setMast_holdNum (s : State) (m : Nat) (x : Mast) : (s.setMast m x).holdNum = s.holdNum := rfl
@[simp] theorem State.setMast_sent (s : State) (m : Nat) (x : Mast) : (s.setMast m x).sent = s.sent := rfl
@[simp] theorem State.setMast_sentNum (s : State) (m : Nat) (x : Mast) : (s.setMast m x).sentNum = s.sentNum := rfl
@[simp] theorem State.setMast_ports (s : State) (m : Nat) (x : Mast) : (s.setMast m x).ports = s.ports := rfl
@[simp] theorem State.setMast_heard (s : State) (m : Nat) (x : Mast) : (s.setMast m x).heard = s.heard := rfl
@[simp] theorem State.setMast_remote (s : State) (m : Nat) (x : Mast) : (s.setMast m x).remote = s.remote := rfl
@[simp] theorem State.setMast_remoteNum (s : State) (m : Nat) (x : Mast) : (s.setMast m x).remoteNum = s.remoteNum := rfl
@[simp] theorem State.setMast_rats (s : State) (m : Nat) (x : Mast) : (s.setMast m x).rats = s.rats := rfl
@[simp] theorem State.setMast_flows (s : State) (m : Nat) (x : Mast) : (s.setMast m x).flows = s.flows := rfl
@[simp] theorem State.setMast_bondSince (s : State) (m : Nat) (x : Mast) : (s.setMast m x).bondSince = s.bondSince := rfl
@[simp] theorem State.setMast_coreLoads (s : State) (m : Nat) (x : Mast) : (s.setMast m x).coreLoads = s.coreLoads := rfl
@[simp] theorem State.setMast_mailSlots (s : State) (m : Nat) (x : Mast) : (s.setMast m x).mailSlots = s.mailSlots := rfl
@[simp] theorem State.setMast_mailbox (s : State) (m : Nat) (x : Mast) : (s.setMast m x).mailbox = s.mailbox := rfl
@[simp] theorem State.setMast_peerMail (s : State) (m : Nat) (x : Mast) : (s.setMast m x).peerMail = s.peerMail := rfl
@[simp] theorem State.setMast_resets (s : State) (m : Nat) (x : Mast) : (s.setMast m x).resets = s.resets := rfl
@[simp] theorem State.setMast_grants (s : State) (m : Nat) (x : Mast) : (s.setMast m x).grants = s.grants := rfl
@[simp] theorem State.setMast_domains (s : State) (m : Nat) (x : Mast) : (s.setMast m x).domains = s.domains := rfl
@[simp] theorem State.setMast_power (s : State) (m : Nat) (x : Mast) : (s.setMast m x).power = s.power := rfl
@[simp] theorem State.setMast_fw (s : State) (m : Nat) (x : Mast) : (s.setMast m x).fw = s.fw := rfl
@[simp] theorem State.setMast_mgmtRate (s : State) (m : Nat) (x : Mast) : (s.setMast m x).mgmtRate = s.mgmtRate := rfl
@[simp] theorem State.setMast_mgmtSince (s : State) (m : Nat) (x : Mast) : (s.setMast m x).mgmtSince = s.mgmtSince := rfl
@[simp] theorem State.setMast_i3cAddr (s : State) (m : Nat) (x : Mast) : (s.setMast m x).i3cAddr = s.i3cAddr := rfl
@[simp] theorem State.setMast_ibien (s : State) (m : Nat) (x : Mast) : (s.setMast m x).ibien = s.ibien := rfl
@[simp] theorem State.setMast_hellos (s : State) (m : Nat) (x : Mast) : (s.setMast m x).hellos = s.hellos := rfl
@[simp] theorem State.setMast_carve (s : State) (m : Nat) (x : Mast) : (s.setMast m x).carve = s.carve := rfl

/-! ### setPart -/

@[simp] theorem State.setPart_pending (s : State) (p : Nat) (x : Part) : (s.setPart p x).pending = s.pending := rfl
@[simp] theorem State.setPart_tick (s : State) (p : Nat) (x : Part) : (s.setPart p x).tick = s.tick := rfl
@[simp] theorem State.setPart_free (s : State) (p : Nat) (x : Part) : (s.setPart p x).free = s.free := rfl
@[simp] theorem State.setPart_draws (s : State) (p : Nat) (x : Part) : (s.setPart p x).draws = s.draws := rfl
@[simp] theorem State.setPart_outbox (s : State) (p : Nat) (x : Part) : (s.setPart p x).outbox = s.outbox := rfl
@[simp] theorem State.setPart_ident (s : State) (p : Nat) (x : Part) : (s.setPart p x).ident = s.ident := rfl
@[simp] theorem State.setPart_mem (s : State) (p : Nat) (x : Part) : (s.setPart p x).mem = s.mem := rfl
@[simp] theorem State.setPart_poisoned (s : State) (p : Nat) (x : Part) : (s.setPart p x).poisoned = s.poisoned := rfl
@[simp] theorem State.setPart_grad (s : State) (p : Nat) (x : Part) : (s.setPart p x).grad = s.grad := rfl
@[simp] theorem State.setPart_panes (s : State) (p : Nat) (x : Part) : (s.setPart p x).panes = s.panes := rfl
@[simp] theorem State.setPart_trims (s : State) (p : Nat) (x : Part) : (s.setPart p x).trims = s.trims := rfl
@[simp] theorem State.setPart_masts (s : State) (p : Nat) (x : Part) : (s.setPart p x).masts = s.masts := rfl
@[simp] theorem State.setPart_lines (s : State) (p : Nat) (x : Part) : (s.setPart p x).lines = s.lines := rfl
@[simp] theorem State.setPart_uses (s : State) (p : Nat) (x : Part) : (s.setPart p x).uses = s.uses := rfl
@[simp] theorem State.setPart_directory (s : State) (p : Nat) (x : Part) : (s.setPart p x).directory = s.directory := rfl
@[simp] theorem State.setPart_trackers (s : State) (p : Nat) (x : Part) : (s.setPart p x).trackers = s.trackers := rfl
@[simp] theorem State.setPart_streams (s : State) (p : Nat) (x : Part) : (s.setPart p x).streams = s.streams := rfl
@[simp] theorem State.setPart_openRows (s : State) (p : Nat) (x : Part) : (s.setPart p x).openRows = s.openRows := rfl
@[simp] theorem State.setPart_heldReqs (s : State) (p : Nat) (x : Part) : (s.setPart p x).heldReqs = s.heldReqs := rfl
@[simp] theorem State.setPart_hot (s : State) (p : Nat) (x : Part) : (s.setPart p x).hot = s.hot := rfl
@[simp] theorem State.setPart_hotSince (s : State) (p : Nat) (x : Part) : (s.setPart p x).hotSince = s.hotSince := rfl
@[simp] theorem State.setPart_hbm (s : State) (p : Nat) (x : Part) : (s.setPart p x).hbm = s.hbm := rfl
@[simp] theorem State.setPart_lantern (s : State) (p : Nat) (x : Part) : (s.setPart p x).lantern = s.lantern := rfl
@[simp] theorem State.setPart_silent (s : State) (p : Nat) (x : Part) : (s.setPart p x).silent = s.silent := rfl
@[simp] theorem State.setPart_dict (s : State) (p : Nat) (x : Part) : (s.setPart p x).dict = s.dict := rfl
@[simp] theorem State.setPart_snaps (s : State) (p : Nat) (x : Part) : (s.setPart p x).snaps = s.snaps := rfl
@[simp] theorem State.setPart_snapRing (s : State) (p : Nat) (x : Part) : (s.setPart p x).snapRing = s.snapRing := rfl
@[simp] theorem State.setPart_writes (s : State) (p : Nat) (x : Part) : (s.setPart p x).writes = s.writes := rfl
@[simp] theorem State.setPart_rings (s : State) (p : Nat) (x : Part) : (s.setPart p x).rings = s.rings := rfl
@[simp] theorem State.setPart_limits (s : State) (p : Nat) (x : Part) : (s.setPart p x).limits = s.limits := rfl
@[simp] theorem State.setPart_sessions (s : State) (p : Nat) (x : Part) : (s.setPart p x).sessions = s.sessions := rfl
@[simp] theorem State.setPart_stagers (s : State) (p : Nat) (x : Part) : (s.setPart p x).stagers = s.stagers := rfl
@[simp] theorem State.setPart_commits (s : State) (p : Nat) (x : Part) : (s.setPart p x).commits = s.commits := rfl
@[simp] theorem State.setPart_commitNum (s : State) (p : Nat) (x : Part) : (s.setPart p x).commitNum = s.commitNum := rfl
@[simp] theorem State.setPart_deferred (s : State) (p : Nat) (x : Part) : (s.setPart p x).deferred = s.deferred := rfl
@[simp] theorem State.setPart_accepted (s : State) (p : Nat) (x : Part) : (s.setPart p x).accepted = s.accepted := rfl
@[simp] theorem State.setPart_plans (s : State) (p : Nat) (x : Part) : (s.setPart p x).plans = s.plans := rfl
@[simp] theorem State.setPart_holds (s : State) (p : Nat) (x : Part) : (s.setPart p x).holds = s.holds := rfl
@[simp] theorem State.setPart_holdNum (s : State) (p : Nat) (x : Part) : (s.setPart p x).holdNum = s.holdNum := rfl
@[simp] theorem State.setPart_sent (s : State) (p : Nat) (x : Part) : (s.setPart p x).sent = s.sent := rfl
@[simp] theorem State.setPart_sentNum (s : State) (p : Nat) (x : Part) : (s.setPart p x).sentNum = s.sentNum := rfl
@[simp] theorem State.setPart_ports (s : State) (p : Nat) (x : Part) : (s.setPart p x).ports = s.ports := rfl
@[simp] theorem State.setPart_heard (s : State) (p : Nat) (x : Part) : (s.setPart p x).heard = s.heard := rfl
@[simp] theorem State.setPart_remote (s : State) (p : Nat) (x : Part) : (s.setPart p x).remote = s.remote := rfl
@[simp] theorem State.setPart_remoteNum (s : State) (p : Nat) (x : Part) : (s.setPart p x).remoteNum = s.remoteNum := rfl
@[simp] theorem State.setPart_rats (s : State) (p : Nat) (x : Part) : (s.setPart p x).rats = s.rats := rfl
@[simp] theorem State.setPart_flows (s : State) (p : Nat) (x : Part) : (s.setPart p x).flows = s.flows := rfl
@[simp] theorem State.setPart_bondSince (s : State) (p : Nat) (x : Part) : (s.setPart p x).bondSince = s.bondSince := rfl
@[simp] theorem State.setPart_coreLoads (s : State) (p : Nat) (x : Part) : (s.setPart p x).coreLoads = s.coreLoads := rfl
@[simp] theorem State.setPart_mailSlots (s : State) (p : Nat) (x : Part) : (s.setPart p x).mailSlots = s.mailSlots := rfl
@[simp] theorem State.setPart_mailbox (s : State) (p : Nat) (x : Part) : (s.setPart p x).mailbox = s.mailbox := rfl
@[simp] theorem State.setPart_peerMail (s : State) (p : Nat) (x : Part) : (s.setPart p x).peerMail = s.peerMail := rfl
@[simp] theorem State.setPart_resets (s : State) (p : Nat) (x : Part) : (s.setPart p x).resets = s.resets := rfl
@[simp] theorem State.setPart_grants (s : State) (p : Nat) (x : Part) : (s.setPart p x).grants = s.grants := rfl
@[simp] theorem State.setPart_domains (s : State) (p : Nat) (x : Part) : (s.setPart p x).domains = s.domains := rfl
@[simp] theorem State.setPart_power (s : State) (p : Nat) (x : Part) : (s.setPart p x).power = s.power := rfl
@[simp] theorem State.setPart_fw (s : State) (p : Nat) (x : Part) : (s.setPart p x).fw = s.fw := rfl
@[simp] theorem State.setPart_mgmtRate (s : State) (p : Nat) (x : Part) : (s.setPart p x).mgmtRate = s.mgmtRate := rfl
@[simp] theorem State.setPart_mgmtSince (s : State) (p : Nat) (x : Part) : (s.setPart p x).mgmtSince = s.mgmtSince := rfl
@[simp] theorem State.setPart_i3cAddr (s : State) (p : Nat) (x : Part) : (s.setPart p x).i3cAddr = s.i3cAddr := rfl
@[simp] theorem State.setPart_ibien (s : State) (p : Nat) (x : Part) : (s.setPart p x).ibien = s.ibien := rfl
@[simp] theorem State.setPart_hellos (s : State) (p : Nat) (x : Part) : (s.setPart p x).hellos = s.hellos := rfl
@[simp] theorem State.setPart_carve (s : State) (p : Nat) (x : Part) : (s.setPart p x).carve = s.carve := rfl

/-! ### setRing -/

@[simp] theorem State.setRing_pending (s : State) (n : Nat) (g : Ring) : (s.setRing n g).pending = s.pending := rfl
@[simp] theorem State.setRing_tick (s : State) (n : Nat) (g : Ring) : (s.setRing n g).tick = s.tick := rfl
@[simp] theorem State.setRing_free (s : State) (n : Nat) (g : Ring) : (s.setRing n g).free = s.free := rfl
@[simp] theorem State.setRing_draws (s : State) (n : Nat) (g : Ring) : (s.setRing n g).draws = s.draws := rfl
@[simp] theorem State.setRing_outbox (s : State) (n : Nat) (g : Ring) : (s.setRing n g).outbox = s.outbox := rfl
@[simp] theorem State.setRing_ident (s : State) (n : Nat) (g : Ring) : (s.setRing n g).ident = s.ident := rfl
@[simp] theorem State.setRing_mem (s : State) (n : Nat) (g : Ring) : (s.setRing n g).mem = s.mem := rfl
@[simp] theorem State.setRing_poisoned (s : State) (n : Nat) (g : Ring) : (s.setRing n g).poisoned = s.poisoned := rfl
@[simp] theorem State.setRing_grad (s : State) (n : Nat) (g : Ring) : (s.setRing n g).grad = s.grad := rfl
@[simp] theorem State.setRing_panes (s : State) (n : Nat) (g : Ring) : (s.setRing n g).panes = s.panes := rfl
@[simp] theorem State.setRing_trims (s : State) (n : Nat) (g : Ring) : (s.setRing n g).trims = s.trims := rfl
@[simp] theorem State.setRing_masts (s : State) (n : Nat) (g : Ring) : (s.setRing n g).masts = s.masts := rfl
@[simp] theorem State.setRing_parts (s : State) (n : Nat) (g : Ring) : (s.setRing n g).parts = s.parts := rfl
@[simp] theorem State.setRing_lines (s : State) (n : Nat) (g : Ring) : (s.setRing n g).lines = s.lines := rfl
@[simp] theorem State.setRing_uses (s : State) (n : Nat) (g : Ring) : (s.setRing n g).uses = s.uses := rfl
@[simp] theorem State.setRing_directory (s : State) (n : Nat) (g : Ring) : (s.setRing n g).directory = s.directory := rfl
@[simp] theorem State.setRing_trackers (s : State) (n : Nat) (g : Ring) : (s.setRing n g).trackers = s.trackers := rfl
@[simp] theorem State.setRing_streams (s : State) (n : Nat) (g : Ring) : (s.setRing n g).streams = s.streams := rfl
@[simp] theorem State.setRing_openRows (s : State) (n : Nat) (g : Ring) : (s.setRing n g).openRows = s.openRows := rfl
@[simp] theorem State.setRing_heldReqs (s : State) (n : Nat) (g : Ring) : (s.setRing n g).heldReqs = s.heldReqs := rfl
@[simp] theorem State.setRing_hot (s : State) (n : Nat) (g : Ring) : (s.setRing n g).hot = s.hot := rfl
@[simp] theorem State.setRing_hotSince (s : State) (n : Nat) (g : Ring) : (s.setRing n g).hotSince = s.hotSince := rfl
@[simp] theorem State.setRing_hbm (s : State) (n : Nat) (g : Ring) : (s.setRing n g).hbm = s.hbm := rfl
@[simp] theorem State.setRing_lantern (s : State) (n : Nat) (g : Ring) : (s.setRing n g).lantern = s.lantern := rfl
@[simp] theorem State.setRing_silent (s : State) (n : Nat) (g : Ring) : (s.setRing n g).silent = s.silent := rfl
@[simp] theorem State.setRing_dict (s : State) (n : Nat) (g : Ring) : (s.setRing n g).dict = s.dict := rfl
@[simp] theorem State.setRing_snaps (s : State) (n : Nat) (g : Ring) : (s.setRing n g).snaps = s.snaps := rfl
@[simp] theorem State.setRing_snapRing (s : State) (n : Nat) (g : Ring) : (s.setRing n g).snapRing = s.snapRing := rfl
@[simp] theorem State.setRing_writes (s : State) (n : Nat) (g : Ring) : (s.setRing n g).writes = s.writes := rfl
@[simp] theorem State.setRing_limits (s : State) (n : Nat) (g : Ring) : (s.setRing n g).limits = s.limits := rfl
@[simp] theorem State.setRing_sessions (s : State) (n : Nat) (g : Ring) : (s.setRing n g).sessions = s.sessions := rfl
@[simp] theorem State.setRing_stagers (s : State) (n : Nat) (g : Ring) : (s.setRing n g).stagers = s.stagers := rfl
@[simp] theorem State.setRing_commits (s : State) (n : Nat) (g : Ring) : (s.setRing n g).commits = s.commits := rfl
@[simp] theorem State.setRing_commitNum (s : State) (n : Nat) (g : Ring) : (s.setRing n g).commitNum = s.commitNum := rfl
@[simp] theorem State.setRing_deferred (s : State) (n : Nat) (g : Ring) : (s.setRing n g).deferred = s.deferred := rfl
@[simp] theorem State.setRing_accepted (s : State) (n : Nat) (g : Ring) : (s.setRing n g).accepted = s.accepted := rfl
@[simp] theorem State.setRing_plans (s : State) (n : Nat) (g : Ring) : (s.setRing n g).plans = s.plans := rfl
@[simp] theorem State.setRing_holds (s : State) (n : Nat) (g : Ring) : (s.setRing n g).holds = s.holds := rfl
@[simp] theorem State.setRing_holdNum (s : State) (n : Nat) (g : Ring) : (s.setRing n g).holdNum = s.holdNum := rfl
@[simp] theorem State.setRing_sent (s : State) (n : Nat) (g : Ring) : (s.setRing n g).sent = s.sent := rfl
@[simp] theorem State.setRing_sentNum (s : State) (n : Nat) (g : Ring) : (s.setRing n g).sentNum = s.sentNum := rfl
@[simp] theorem State.setRing_ports (s : State) (n : Nat) (g : Ring) : (s.setRing n g).ports = s.ports := rfl
@[simp] theorem State.setRing_heard (s : State) (n : Nat) (g : Ring) : (s.setRing n g).heard = s.heard := rfl
@[simp] theorem State.setRing_remote (s : State) (n : Nat) (g : Ring) : (s.setRing n g).remote = s.remote := rfl
@[simp] theorem State.setRing_remoteNum (s : State) (n : Nat) (g : Ring) : (s.setRing n g).remoteNum = s.remoteNum := rfl
@[simp] theorem State.setRing_rats (s : State) (n : Nat) (g : Ring) : (s.setRing n g).rats = s.rats := rfl
@[simp] theorem State.setRing_flows (s : State) (n : Nat) (g : Ring) : (s.setRing n g).flows = s.flows := rfl
@[simp] theorem State.setRing_bondSince (s : State) (n : Nat) (g : Ring) : (s.setRing n g).bondSince = s.bondSince := rfl
@[simp] theorem State.setRing_coreLoads (s : State) (n : Nat) (g : Ring) : (s.setRing n g).coreLoads = s.coreLoads := rfl
@[simp] theorem State.setRing_mailSlots (s : State) (n : Nat) (g : Ring) : (s.setRing n g).mailSlots = s.mailSlots := rfl
@[simp] theorem State.setRing_mailbox (s : State) (n : Nat) (g : Ring) : (s.setRing n g).mailbox = s.mailbox := rfl
@[simp] theorem State.setRing_peerMail (s : State) (n : Nat) (g : Ring) : (s.setRing n g).peerMail = s.peerMail := rfl
@[simp] theorem State.setRing_resets (s : State) (n : Nat) (g : Ring) : (s.setRing n g).resets = s.resets := rfl
@[simp] theorem State.setRing_grants (s : State) (n : Nat) (g : Ring) : (s.setRing n g).grants = s.grants := rfl
@[simp] theorem State.setRing_domains (s : State) (n : Nat) (g : Ring) : (s.setRing n g).domains = s.domains := rfl
@[simp] theorem State.setRing_power (s : State) (n : Nat) (g : Ring) : (s.setRing n g).power = s.power := rfl
@[simp] theorem State.setRing_fw (s : State) (n : Nat) (g : Ring) : (s.setRing n g).fw = s.fw := rfl
@[simp] theorem State.setRing_mgmtRate (s : State) (n : Nat) (g : Ring) : (s.setRing n g).mgmtRate = s.mgmtRate := rfl
@[simp] theorem State.setRing_mgmtSince (s : State) (n : Nat) (g : Ring) : (s.setRing n g).mgmtSince = s.mgmtSince := rfl
@[simp] theorem State.setRing_i3cAddr (s : State) (n : Nat) (g : Ring) : (s.setRing n g).i3cAddr = s.i3cAddr := rfl
@[simp] theorem State.setRing_ibien (s : State) (n : Nat) (g : Ring) : (s.setRing n g).ibien = s.ibien := rfl
@[simp] theorem State.setRing_hellos (s : State) (n : Nat) (g : Ring) : (s.setRing n g).hellos = s.hellos := rfl
@[simp] theorem State.setRing_carve (s : State) (n : Nat) (g : Ring) : (s.setRing n g).carve = s.carve := rfl

/-! ### setObj -/

@[simp] theorem State.setObj_pending (s : State) (i j : Nat) (v : Octets) : (s.setObj i j v).pending = s.pending := rfl
@[simp] theorem State.setObj_tick (s : State) (i j : Nat) (v : Octets) : (s.setObj i j v).tick = s.tick := rfl
@[simp] theorem State.setObj_free (s : State) (i j : Nat) (v : Octets) : (s.setObj i j v).free = s.free := rfl
@[simp] theorem State.setObj_draws (s : State) (i j : Nat) (v : Octets) : (s.setObj i j v).draws = s.draws := rfl
@[simp] theorem State.setObj_outbox (s : State) (i j : Nat) (v : Octets) : (s.setObj i j v).outbox = s.outbox := rfl
@[simp] theorem State.setObj_ident (s : State) (i j : Nat) (v : Octets) : (s.setObj i j v).ident = s.ident := rfl
@[simp] theorem State.setObj_mem (s : State) (i j : Nat) (v : Octets) : (s.setObj i j v).mem = s.mem := rfl
@[simp] theorem State.setObj_poisoned (s : State) (i j : Nat) (v : Octets) : (s.setObj i j v).poisoned = s.poisoned := rfl
@[simp] theorem State.setObj_grad (s : State) (i j : Nat) (v : Octets) : (s.setObj i j v).grad = s.grad := rfl
@[simp] theorem State.setObj_panes (s : State) (i j : Nat) (v : Octets) : (s.setObj i j v).panes = s.panes := rfl
@[simp] theorem State.setObj_trims (s : State) (i j : Nat) (v : Octets) : (s.setObj i j v).trims = s.trims := rfl
@[simp] theorem State.setObj_masts (s : State) (i j : Nat) (v : Octets) : (s.setObj i j v).masts = s.masts := rfl
@[simp] theorem State.setObj_parts (s : State) (i j : Nat) (v : Octets) : (s.setObj i j v).parts = s.parts := rfl
@[simp] theorem State.setObj_lines (s : State) (i j : Nat) (v : Octets) : (s.setObj i j v).lines = s.lines := rfl
@[simp] theorem State.setObj_uses (s : State) (i j : Nat) (v : Octets) : (s.setObj i j v).uses = s.uses := rfl
@[simp] theorem State.setObj_directory (s : State) (i j : Nat) (v : Octets) : (s.setObj i j v).directory = s.directory := rfl
@[simp] theorem State.setObj_trackers (s : State) (i j : Nat) (v : Octets) : (s.setObj i j v).trackers = s.trackers := rfl
@[simp] theorem State.setObj_streams (s : State) (i j : Nat) (v : Octets) : (s.setObj i j v).streams = s.streams := rfl
@[simp] theorem State.setObj_openRows (s : State) (i j : Nat) (v : Octets) : (s.setObj i j v).openRows = s.openRows := rfl
@[simp] theorem State.setObj_heldReqs (s : State) (i j : Nat) (v : Octets) : (s.setObj i j v).heldReqs = s.heldReqs := rfl
@[simp] theorem State.setObj_hot (s : State) (i j : Nat) (v : Octets) : (s.setObj i j v).hot = s.hot := rfl
@[simp] theorem State.setObj_hotSince (s : State) (i j : Nat) (v : Octets) : (s.setObj i j v).hotSince = s.hotSince := rfl
@[simp] theorem State.setObj_hbm (s : State) (i j : Nat) (v : Octets) : (s.setObj i j v).hbm = s.hbm := rfl
@[simp] theorem State.setObj_lantern (s : State) (i j : Nat) (v : Octets) : (s.setObj i j v).lantern = s.lantern := rfl
@[simp] theorem State.setObj_silent (s : State) (i j : Nat) (v : Octets) : (s.setObj i j v).silent = s.silent := rfl
@[simp] theorem State.setObj_snaps (s : State) (i j : Nat) (v : Octets) : (s.setObj i j v).snaps = s.snaps := rfl
@[simp] theorem State.setObj_snapRing (s : State) (i j : Nat) (v : Octets) : (s.setObj i j v).snapRing = s.snapRing := rfl
@[simp] theorem State.setObj_writes (s : State) (i j : Nat) (v : Octets) : (s.setObj i j v).writes = s.writes := rfl
@[simp] theorem State.setObj_rings (s : State) (i j : Nat) (v : Octets) : (s.setObj i j v).rings = s.rings := rfl
@[simp] theorem State.setObj_limits (s : State) (i j : Nat) (v : Octets) : (s.setObj i j v).limits = s.limits := rfl
@[simp] theorem State.setObj_sessions (s : State) (i j : Nat) (v : Octets) : (s.setObj i j v).sessions = s.sessions := rfl
@[simp] theorem State.setObj_stagers (s : State) (i j : Nat) (v : Octets) : (s.setObj i j v).stagers = s.stagers := rfl
@[simp] theorem State.setObj_commits (s : State) (i j : Nat) (v : Octets) : (s.setObj i j v).commits = s.commits := rfl
@[simp] theorem State.setObj_commitNum (s : State) (i j : Nat) (v : Octets) : (s.setObj i j v).commitNum = s.commitNum := rfl
@[simp] theorem State.setObj_deferred (s : State) (i j : Nat) (v : Octets) : (s.setObj i j v).deferred = s.deferred := rfl
@[simp] theorem State.setObj_accepted (s : State) (i j : Nat) (v : Octets) : (s.setObj i j v).accepted = s.accepted := rfl
@[simp] theorem State.setObj_plans (s : State) (i j : Nat) (v : Octets) : (s.setObj i j v).plans = s.plans := rfl
@[simp] theorem State.setObj_holds (s : State) (i j : Nat) (v : Octets) : (s.setObj i j v).holds = s.holds := rfl
@[simp] theorem State.setObj_holdNum (s : State) (i j : Nat) (v : Octets) : (s.setObj i j v).holdNum = s.holdNum := rfl
@[simp] theorem State.setObj_sent (s : State) (i j : Nat) (v : Octets) : (s.setObj i j v).sent = s.sent := rfl
@[simp] theorem State.setObj_sentNum (s : State) (i j : Nat) (v : Octets) : (s.setObj i j v).sentNum = s.sentNum := rfl
@[simp] theorem State.setObj_ports (s : State) (i j : Nat) (v : Octets) : (s.setObj i j v).ports = s.ports := rfl
@[simp] theorem State.setObj_heard (s : State) (i j : Nat) (v : Octets) : (s.setObj i j v).heard = s.heard := rfl
@[simp] theorem State.setObj_remote (s : State) (i j : Nat) (v : Octets) : (s.setObj i j v).remote = s.remote := rfl
@[simp] theorem State.setObj_remoteNum (s : State) (i j : Nat) (v : Octets) : (s.setObj i j v).remoteNum = s.remoteNum := rfl
@[simp] theorem State.setObj_rats (s : State) (i j : Nat) (v : Octets) : (s.setObj i j v).rats = s.rats := rfl
@[simp] theorem State.setObj_flows (s : State) (i j : Nat) (v : Octets) : (s.setObj i j v).flows = s.flows := rfl
@[simp] theorem State.setObj_bondSince (s : State) (i j : Nat) (v : Octets) : (s.setObj i j v).bondSince = s.bondSince := rfl
@[simp] theorem State.setObj_coreLoads (s : State) (i j : Nat) (v : Octets) : (s.setObj i j v).coreLoads = s.coreLoads := rfl
@[simp] theorem State.setObj_mailSlots (s : State) (i j : Nat) (v : Octets) : (s.setObj i j v).mailSlots = s.mailSlots := rfl
@[simp] theorem State.setObj_mailbox (s : State) (i j : Nat) (v : Octets) : (s.setObj i j v).mailbox = s.mailbox := rfl
@[simp] theorem State.setObj_peerMail (s : State) (i j : Nat) (v : Octets) : (s.setObj i j v).peerMail = s.peerMail := rfl
@[simp] theorem State.setObj_resets (s : State) (i j : Nat) (v : Octets) : (s.setObj i j v).resets = s.resets := rfl
@[simp] theorem State.setObj_grants (s : State) (i j : Nat) (v : Octets) : (s.setObj i j v).grants = s.grants := rfl
@[simp] theorem State.setObj_domains (s : State) (i j : Nat) (v : Octets) : (s.setObj i j v).domains = s.domains := rfl
@[simp] theorem State.setObj_power (s : State) (i j : Nat) (v : Octets) : (s.setObj i j v).power = s.power := rfl
@[simp] theorem State.setObj_fw (s : State) (i j : Nat) (v : Octets) : (s.setObj i j v).fw = s.fw := rfl
@[simp] theorem State.setObj_mgmtRate (s : State) (i j : Nat) (v : Octets) : (s.setObj i j v).mgmtRate = s.mgmtRate := rfl
@[simp] theorem State.setObj_mgmtSince (s : State) (i j : Nat) (v : Octets) : (s.setObj i j v).mgmtSince = s.mgmtSince := rfl
@[simp] theorem State.setObj_i3cAddr (s : State) (i j : Nat) (v : Octets) : (s.setObj i j v).i3cAddr = s.i3cAddr := rfl
@[simp] theorem State.setObj_ibien (s : State) (i j : Nat) (v : Octets) : (s.setObj i j v).ibien = s.ibien := rfl
@[simp] theorem State.setObj_hellos (s : State) (i j : Nat) (v : Octets) : (s.setObj i j v).hellos = s.hellos := rfl
@[simp] theorem State.setObj_carve (s : State) (i j : Nat) (v : Octets) : (s.setObj i j v).carve = s.carve := rfl

/-! ### setVal -/

@[simp] theorem State.setVal_pending (s : State) (i j v : Nat) : (s.setVal i j v).pending = s.pending := rfl
@[simp] theorem State.setVal_tick (s : State) (i j v : Nat) : (s.setVal i j v).tick = s.tick := rfl
@[simp] theorem State.setVal_free (s : State) (i j v : Nat) : (s.setVal i j v).free = s.free := rfl
@[simp] theorem State.setVal_draws (s : State) (i j v : Nat) : (s.setVal i j v).draws = s.draws := rfl
@[simp] theorem State.setVal_outbox (s : State) (i j v : Nat) : (s.setVal i j v).outbox = s.outbox := rfl
@[simp] theorem State.setVal_ident (s : State) (i j v : Nat) : (s.setVal i j v).ident = s.ident := rfl
@[simp] theorem State.setVal_mem (s : State) (i j v : Nat) : (s.setVal i j v).mem = s.mem := rfl
@[simp] theorem State.setVal_poisoned (s : State) (i j v : Nat) : (s.setVal i j v).poisoned = s.poisoned := rfl
@[simp] theorem State.setVal_grad (s : State) (i j v : Nat) : (s.setVal i j v).grad = s.grad := rfl
@[simp] theorem State.setVal_panes (s : State) (i j v : Nat) : (s.setVal i j v).panes = s.panes := rfl
@[simp] theorem State.setVal_trims (s : State) (i j v : Nat) : (s.setVal i j v).trims = s.trims := rfl
@[simp] theorem State.setVal_masts (s : State) (i j v : Nat) : (s.setVal i j v).masts = s.masts := rfl
@[simp] theorem State.setVal_parts (s : State) (i j v : Nat) : (s.setVal i j v).parts = s.parts := rfl
@[simp] theorem State.setVal_lines (s : State) (i j v : Nat) : (s.setVal i j v).lines = s.lines := rfl
@[simp] theorem State.setVal_uses (s : State) (i j v : Nat) : (s.setVal i j v).uses = s.uses := rfl
@[simp] theorem State.setVal_directory (s : State) (i j v : Nat) : (s.setVal i j v).directory = s.directory := rfl
@[simp] theorem State.setVal_trackers (s : State) (i j v : Nat) : (s.setVal i j v).trackers = s.trackers := rfl
@[simp] theorem State.setVal_streams (s : State) (i j v : Nat) : (s.setVal i j v).streams = s.streams := rfl
@[simp] theorem State.setVal_openRows (s : State) (i j v : Nat) : (s.setVal i j v).openRows = s.openRows := rfl
@[simp] theorem State.setVal_heldReqs (s : State) (i j v : Nat) : (s.setVal i j v).heldReqs = s.heldReqs := rfl
@[simp] theorem State.setVal_hot (s : State) (i j v : Nat) : (s.setVal i j v).hot = s.hot := rfl
@[simp] theorem State.setVal_hotSince (s : State) (i j v : Nat) : (s.setVal i j v).hotSince = s.hotSince := rfl
@[simp] theorem State.setVal_hbm (s : State) (i j v : Nat) : (s.setVal i j v).hbm = s.hbm := rfl
@[simp] theorem State.setVal_lantern (s : State) (i j v : Nat) : (s.setVal i j v).lantern = s.lantern := rfl
@[simp] theorem State.setVal_silent (s : State) (i j v : Nat) : (s.setVal i j v).silent = s.silent := rfl
@[simp] theorem State.setVal_snaps (s : State) (i j v : Nat) : (s.setVal i j v).snaps = s.snaps := rfl
@[simp] theorem State.setVal_snapRing (s : State) (i j v : Nat) : (s.setVal i j v).snapRing = s.snapRing := rfl
@[simp] theorem State.setVal_writes (s : State) (i j v : Nat) : (s.setVal i j v).writes = s.writes := rfl
@[simp] theorem State.setVal_rings (s : State) (i j v : Nat) : (s.setVal i j v).rings = s.rings := rfl
@[simp] theorem State.setVal_limits (s : State) (i j v : Nat) : (s.setVal i j v).limits = s.limits := rfl
@[simp] theorem State.setVal_sessions (s : State) (i j v : Nat) : (s.setVal i j v).sessions = s.sessions := rfl
@[simp] theorem State.setVal_stagers (s : State) (i j v : Nat) : (s.setVal i j v).stagers = s.stagers := rfl
@[simp] theorem State.setVal_commits (s : State) (i j v : Nat) : (s.setVal i j v).commits = s.commits := rfl
@[simp] theorem State.setVal_commitNum (s : State) (i j v : Nat) : (s.setVal i j v).commitNum = s.commitNum := rfl
@[simp] theorem State.setVal_deferred (s : State) (i j v : Nat) : (s.setVal i j v).deferred = s.deferred := rfl
@[simp] theorem State.setVal_accepted (s : State) (i j v : Nat) : (s.setVal i j v).accepted = s.accepted := rfl
@[simp] theorem State.setVal_plans (s : State) (i j v : Nat) : (s.setVal i j v).plans = s.plans := rfl
@[simp] theorem State.setVal_holds (s : State) (i j v : Nat) : (s.setVal i j v).holds = s.holds := rfl
@[simp] theorem State.setVal_holdNum (s : State) (i j v : Nat) : (s.setVal i j v).holdNum = s.holdNum := rfl
@[simp] theorem State.setVal_sent (s : State) (i j v : Nat) : (s.setVal i j v).sent = s.sent := rfl
@[simp] theorem State.setVal_sentNum (s : State) (i j v : Nat) : (s.setVal i j v).sentNum = s.sentNum := rfl
@[simp] theorem State.setVal_ports (s : State) (i j v : Nat) : (s.setVal i j v).ports = s.ports := rfl
@[simp] theorem State.setVal_heard (s : State) (i j v : Nat) : (s.setVal i j v).heard = s.heard := rfl
@[simp] theorem State.setVal_remote (s : State) (i j v : Nat) : (s.setVal i j v).remote = s.remote := rfl
@[simp] theorem State.setVal_remoteNum (s : State) (i j v : Nat) : (s.setVal i j v).remoteNum = s.remoteNum := rfl
@[simp] theorem State.setVal_rats (s : State) (i j v : Nat) : (s.setVal i j v).rats = s.rats := rfl
@[simp] theorem State.setVal_flows (s : State) (i j v : Nat) : (s.setVal i j v).flows = s.flows := rfl
@[simp] theorem State.setVal_bondSince (s : State) (i j v : Nat) : (s.setVal i j v).bondSince = s.bondSince := rfl
@[simp] theorem State.setVal_coreLoads (s : State) (i j v : Nat) : (s.setVal i j v).coreLoads = s.coreLoads := rfl
@[simp] theorem State.setVal_mailSlots (s : State) (i j v : Nat) : (s.setVal i j v).mailSlots = s.mailSlots := rfl
@[simp] theorem State.setVal_mailbox (s : State) (i j v : Nat) : (s.setVal i j v).mailbox = s.mailbox := rfl
@[simp] theorem State.setVal_peerMail (s : State) (i j v : Nat) : (s.setVal i j v).peerMail = s.peerMail := rfl
@[simp] theorem State.setVal_resets (s : State) (i j v : Nat) : (s.setVal i j v).resets = s.resets := rfl
@[simp] theorem State.setVal_grants (s : State) (i j v : Nat) : (s.setVal i j v).grants = s.grants := rfl
@[simp] theorem State.setVal_domains (s : State) (i j v : Nat) : (s.setVal i j v).domains = s.domains := rfl
@[simp] theorem State.setVal_power (s : State) (i j v : Nat) : (s.setVal i j v).power = s.power := rfl
@[simp] theorem State.setVal_fw (s : State) (i j v : Nat) : (s.setVal i j v).fw = s.fw := rfl
@[simp] theorem State.setVal_mgmtRate (s : State) (i j v : Nat) : (s.setVal i j v).mgmtRate = s.mgmtRate := rfl
@[simp] theorem State.setVal_mgmtSince (s : State) (i j v : Nat) : (s.setVal i j v).mgmtSince = s.mgmtSince := rfl
@[simp] theorem State.setVal_i3cAddr (s : State) (i j v : Nat) : (s.setVal i j v).i3cAddr = s.i3cAddr := rfl
@[simp] theorem State.setVal_ibien (s : State) (i j v : Nat) : (s.setVal i j v).ibien = s.ibien := rfl
@[simp] theorem State.setVal_hellos (s : State) (i j v : Nat) : (s.setVal i j v).hellos = s.hellos := rfl
@[simp] theorem State.setVal_carve (s : State) (i j v : Nat) : (s.setVal i j v).carve = s.carve := rfl

/-! ### bump -/

@[simp] theorem State.bump_pending (s : State) (i j n : Nat) : (s.bump i j n).pending = s.pending := rfl
@[simp] theorem State.bump_tick (s : State) (i j n : Nat) : (s.bump i j n).tick = s.tick := rfl
@[simp] theorem State.bump_free (s : State) (i j n : Nat) : (s.bump i j n).free = s.free := rfl
@[simp] theorem State.bump_draws (s : State) (i j n : Nat) : (s.bump i j n).draws = s.draws := rfl
@[simp] theorem State.bump_outbox (s : State) (i j n : Nat) : (s.bump i j n).outbox = s.outbox := rfl
@[simp] theorem State.bump_ident (s : State) (i j n : Nat) : (s.bump i j n).ident = s.ident := rfl
@[simp] theorem State.bump_mem (s : State) (i j n : Nat) : (s.bump i j n).mem = s.mem := rfl
@[simp] theorem State.bump_poisoned (s : State) (i j n : Nat) : (s.bump i j n).poisoned = s.poisoned := rfl
@[simp] theorem State.bump_grad (s : State) (i j n : Nat) : (s.bump i j n).grad = s.grad := rfl
@[simp] theorem State.bump_panes (s : State) (i j n : Nat) : (s.bump i j n).panes = s.panes := rfl
@[simp] theorem State.bump_trims (s : State) (i j n : Nat) : (s.bump i j n).trims = s.trims := rfl
@[simp] theorem State.bump_masts (s : State) (i j n : Nat) : (s.bump i j n).masts = s.masts := rfl
@[simp] theorem State.bump_parts (s : State) (i j n : Nat) : (s.bump i j n).parts = s.parts := rfl
@[simp] theorem State.bump_lines (s : State) (i j n : Nat) : (s.bump i j n).lines = s.lines := rfl
@[simp] theorem State.bump_uses (s : State) (i j n : Nat) : (s.bump i j n).uses = s.uses := rfl
@[simp] theorem State.bump_directory (s : State) (i j n : Nat) : (s.bump i j n).directory = s.directory := rfl
@[simp] theorem State.bump_trackers (s : State) (i j n : Nat) : (s.bump i j n).trackers = s.trackers := rfl
@[simp] theorem State.bump_streams (s : State) (i j n : Nat) : (s.bump i j n).streams = s.streams := rfl
@[simp] theorem State.bump_openRows (s : State) (i j n : Nat) : (s.bump i j n).openRows = s.openRows := rfl
@[simp] theorem State.bump_heldReqs (s : State) (i j n : Nat) : (s.bump i j n).heldReqs = s.heldReqs := rfl
@[simp] theorem State.bump_hot (s : State) (i j n : Nat) : (s.bump i j n).hot = s.hot := rfl
@[simp] theorem State.bump_hotSince (s : State) (i j n : Nat) : (s.bump i j n).hotSince = s.hotSince := rfl
@[simp] theorem State.bump_hbm (s : State) (i j n : Nat) : (s.bump i j n).hbm = s.hbm := rfl
@[simp] theorem State.bump_lantern (s : State) (i j n : Nat) : (s.bump i j n).lantern = s.lantern := rfl
@[simp] theorem State.bump_silent (s : State) (i j n : Nat) : (s.bump i j n).silent = s.silent := rfl
@[simp] theorem State.bump_snaps (s : State) (i j n : Nat) : (s.bump i j n).snaps = s.snaps := rfl
@[simp] theorem State.bump_snapRing (s : State) (i j n : Nat) : (s.bump i j n).snapRing = s.snapRing := rfl
@[simp] theorem State.bump_writes (s : State) (i j n : Nat) : (s.bump i j n).writes = s.writes := rfl
@[simp] theorem State.bump_rings (s : State) (i j n : Nat) : (s.bump i j n).rings = s.rings := rfl
@[simp] theorem State.bump_limits (s : State) (i j n : Nat) : (s.bump i j n).limits = s.limits := rfl
@[simp] theorem State.bump_sessions (s : State) (i j n : Nat) : (s.bump i j n).sessions = s.sessions := rfl
@[simp] theorem State.bump_stagers (s : State) (i j n : Nat) : (s.bump i j n).stagers = s.stagers := rfl
@[simp] theorem State.bump_commits (s : State) (i j n : Nat) : (s.bump i j n).commits = s.commits := rfl
@[simp] theorem State.bump_commitNum (s : State) (i j n : Nat) : (s.bump i j n).commitNum = s.commitNum := rfl
@[simp] theorem State.bump_deferred (s : State) (i j n : Nat) : (s.bump i j n).deferred = s.deferred := rfl
@[simp] theorem State.bump_accepted (s : State) (i j n : Nat) : (s.bump i j n).accepted = s.accepted := rfl
@[simp] theorem State.bump_plans (s : State) (i j n : Nat) : (s.bump i j n).plans = s.plans := rfl
@[simp] theorem State.bump_holds (s : State) (i j n : Nat) : (s.bump i j n).holds = s.holds := rfl
@[simp] theorem State.bump_holdNum (s : State) (i j n : Nat) : (s.bump i j n).holdNum = s.holdNum := rfl
@[simp] theorem State.bump_sent (s : State) (i j n : Nat) : (s.bump i j n).sent = s.sent := rfl
@[simp] theorem State.bump_sentNum (s : State) (i j n : Nat) : (s.bump i j n).sentNum = s.sentNum := rfl
@[simp] theorem State.bump_ports (s : State) (i j n : Nat) : (s.bump i j n).ports = s.ports := rfl
@[simp] theorem State.bump_heard (s : State) (i j n : Nat) : (s.bump i j n).heard = s.heard := rfl
@[simp] theorem State.bump_remote (s : State) (i j n : Nat) : (s.bump i j n).remote = s.remote := rfl
@[simp] theorem State.bump_remoteNum (s : State) (i j n : Nat) : (s.bump i j n).remoteNum = s.remoteNum := rfl
@[simp] theorem State.bump_rats (s : State) (i j n : Nat) : (s.bump i j n).rats = s.rats := rfl
@[simp] theorem State.bump_flows (s : State) (i j n : Nat) : (s.bump i j n).flows = s.flows := rfl
@[simp] theorem State.bump_bondSince (s : State) (i j n : Nat) : (s.bump i j n).bondSince = s.bondSince := rfl
@[simp] theorem State.bump_coreLoads (s : State) (i j n : Nat) : (s.bump i j n).coreLoads = s.coreLoads := rfl
@[simp] theorem State.bump_mailSlots (s : State) (i j n : Nat) : (s.bump i j n).mailSlots = s.mailSlots := rfl
@[simp] theorem State.bump_mailbox (s : State) (i j n : Nat) : (s.bump i j n).mailbox = s.mailbox := rfl
@[simp] theorem State.bump_peerMail (s : State) (i j n : Nat) : (s.bump i j n).peerMail = s.peerMail := rfl
@[simp] theorem State.bump_resets (s : State) (i j n : Nat) : (s.bump i j n).resets = s.resets := rfl
@[simp] theorem State.bump_grants (s : State) (i j n : Nat) : (s.bump i j n).grants = s.grants := rfl
@[simp] theorem State.bump_domains (s : State) (i j n : Nat) : (s.bump i j n).domains = s.domains := rfl
@[simp] theorem State.bump_power (s : State) (i j n : Nat) : (s.bump i j n).power = s.power := rfl
@[simp] theorem State.bump_fw (s : State) (i j n : Nat) : (s.bump i j n).fw = s.fw := rfl
@[simp] theorem State.bump_mgmtRate (s : State) (i j n : Nat) : (s.bump i j n).mgmtRate = s.mgmtRate := rfl
@[simp] theorem State.bump_mgmtSince (s : State) (i j n : Nat) : (s.bump i j n).mgmtSince = s.mgmtSince := rfl
@[simp] theorem State.bump_i3cAddr (s : State) (i j n : Nat) : (s.bump i j n).i3cAddr = s.i3cAddr := rfl
@[simp] theorem State.bump_ibien (s : State) (i j n : Nat) : (s.bump i j n).ibien = s.ibien := rfl
@[simp] theorem State.bump_hellos (s : State) (i j n : Nat) : (s.bump i j n).hellos = s.hellos := rfl
@[simp] theorem State.bump_carve (s : State) (i j n : Nat) : (s.bump i j n).carve = s.carve := rfl

/-! ### emit -/

@[simp] theorem State.emit_pending (s : State) (k : OutKind) (a b : Nat) (d : Octets) : (s.emit k a b d).pending = s.pending := rfl
@[simp] theorem State.emit_tick (s : State) (k : OutKind) (a b : Nat) (d : Octets) : (s.emit k a b d).tick = s.tick := rfl
@[simp] theorem State.emit_free (s : State) (k : OutKind) (a b : Nat) (d : Octets) : (s.emit k a b d).free = s.free := rfl
@[simp] theorem State.emit_draws (s : State) (k : OutKind) (a b : Nat) (d : Octets) : (s.emit k a b d).draws = s.draws := rfl
@[simp] theorem State.emit_ident (s : State) (k : OutKind) (a b : Nat) (d : Octets) : (s.emit k a b d).ident = s.ident := rfl
@[simp] theorem State.emit_mem (s : State) (k : OutKind) (a b : Nat) (d : Octets) : (s.emit k a b d).mem = s.mem := rfl
@[simp] theorem State.emit_poisoned (s : State) (k : OutKind) (a b : Nat) (d : Octets) : (s.emit k a b d).poisoned = s.poisoned := rfl
@[simp] theorem State.emit_grad (s : State) (k : OutKind) (a b : Nat) (d : Octets) : (s.emit k a b d).grad = s.grad := rfl
@[simp] theorem State.emit_panes (s : State) (k : OutKind) (a b : Nat) (d : Octets) : (s.emit k a b d).panes = s.panes := rfl
@[simp] theorem State.emit_trims (s : State) (k : OutKind) (a b : Nat) (d : Octets) : (s.emit k a b d).trims = s.trims := rfl
@[simp] theorem State.emit_masts (s : State) (k : OutKind) (a b : Nat) (d : Octets) : (s.emit k a b d).masts = s.masts := rfl
@[simp] theorem State.emit_parts (s : State) (k : OutKind) (a b : Nat) (d : Octets) : (s.emit k a b d).parts = s.parts := rfl
@[simp] theorem State.emit_lines (s : State) (k : OutKind) (a b : Nat) (d : Octets) : (s.emit k a b d).lines = s.lines := rfl
@[simp] theorem State.emit_uses (s : State) (k : OutKind) (a b : Nat) (d : Octets) : (s.emit k a b d).uses = s.uses := rfl
@[simp] theorem State.emit_directory (s : State) (k : OutKind) (a b : Nat) (d : Octets) : (s.emit k a b d).directory = s.directory := rfl
@[simp] theorem State.emit_trackers (s : State) (k : OutKind) (a b : Nat) (d : Octets) : (s.emit k a b d).trackers = s.trackers := rfl
@[simp] theorem State.emit_streams (s : State) (k : OutKind) (a b : Nat) (d : Octets) : (s.emit k a b d).streams = s.streams := rfl
@[simp] theorem State.emit_openRows (s : State) (k : OutKind) (a b : Nat) (d : Octets) : (s.emit k a b d).openRows = s.openRows := rfl
@[simp] theorem State.emit_heldReqs (s : State) (k : OutKind) (a b : Nat) (d : Octets) : (s.emit k a b d).heldReqs = s.heldReqs := rfl
@[simp] theorem State.emit_hot (s : State) (k : OutKind) (a b : Nat) (d : Octets) : (s.emit k a b d).hot = s.hot := rfl
@[simp] theorem State.emit_hotSince (s : State) (k : OutKind) (a b : Nat) (d : Octets) : (s.emit k a b d).hotSince = s.hotSince := rfl
@[simp] theorem State.emit_hbm (s : State) (k : OutKind) (a b : Nat) (d : Octets) : (s.emit k a b d).hbm = s.hbm := rfl
@[simp] theorem State.emit_lantern (s : State) (k : OutKind) (a b : Nat) (d : Octets) : (s.emit k a b d).lantern = s.lantern := rfl
@[simp] theorem State.emit_silent (s : State) (k : OutKind) (a b : Nat) (d : Octets) : (s.emit k a b d).silent = s.silent := rfl
@[simp] theorem State.emit_dict (s : State) (k : OutKind) (a b : Nat) (d : Octets) : (s.emit k a b d).dict = s.dict := rfl
@[simp] theorem State.emit_snaps (s : State) (k : OutKind) (a b : Nat) (d : Octets) : (s.emit k a b d).snaps = s.snaps := rfl
@[simp] theorem State.emit_snapRing (s : State) (k : OutKind) (a b : Nat) (d : Octets) : (s.emit k a b d).snapRing = s.snapRing := rfl
@[simp] theorem State.emit_writes (s : State) (k : OutKind) (a b : Nat) (d : Octets) : (s.emit k a b d).writes = s.writes := rfl
@[simp] theorem State.emit_rings (s : State) (k : OutKind) (a b : Nat) (d : Octets) : (s.emit k a b d).rings = s.rings := rfl
@[simp] theorem State.emit_limits (s : State) (k : OutKind) (a b : Nat) (d : Octets) : (s.emit k a b d).limits = s.limits := rfl
@[simp] theorem State.emit_sessions (s : State) (k : OutKind) (a b : Nat) (d : Octets) : (s.emit k a b d).sessions = s.sessions := rfl
@[simp] theorem State.emit_stagers (s : State) (k : OutKind) (a b : Nat) (d : Octets) : (s.emit k a b d).stagers = s.stagers := rfl
@[simp] theorem State.emit_commits (s : State) (k : OutKind) (a b : Nat) (d : Octets) : (s.emit k a b d).commits = s.commits := rfl
@[simp] theorem State.emit_commitNum (s : State) (k : OutKind) (a b : Nat) (d : Octets) : (s.emit k a b d).commitNum = s.commitNum := rfl
@[simp] theorem State.emit_deferred (s : State) (k : OutKind) (a b : Nat) (d : Octets) : (s.emit k a b d).deferred = s.deferred := rfl
@[simp] theorem State.emit_accepted (s : State) (k : OutKind) (a b : Nat) (d : Octets) : (s.emit k a b d).accepted = s.accepted := rfl
@[simp] theorem State.emit_plans (s : State) (k : OutKind) (a b : Nat) (d : Octets) : (s.emit k a b d).plans = s.plans := rfl
@[simp] theorem State.emit_holds (s : State) (k : OutKind) (a b : Nat) (d : Octets) : (s.emit k a b d).holds = s.holds := rfl
@[simp] theorem State.emit_holdNum (s : State) (k : OutKind) (a b : Nat) (d : Octets) : (s.emit k a b d).holdNum = s.holdNum := rfl
@[simp] theorem State.emit_sent (s : State) (k : OutKind) (a b : Nat) (d : Octets) : (s.emit k a b d).sent = s.sent := rfl
@[simp] theorem State.emit_sentNum (s : State) (k : OutKind) (a b : Nat) (d : Octets) : (s.emit k a b d).sentNum = s.sentNum := rfl
@[simp] theorem State.emit_ports (s : State) (k : OutKind) (a b : Nat) (d : Octets) : (s.emit k a b d).ports = s.ports := rfl
@[simp] theorem State.emit_heard (s : State) (k : OutKind) (a b : Nat) (d : Octets) : (s.emit k a b d).heard = s.heard := rfl
@[simp] theorem State.emit_remote (s : State) (k : OutKind) (a b : Nat) (d : Octets) : (s.emit k a b d).remote = s.remote := rfl
@[simp] theorem State.emit_remoteNum (s : State) (k : OutKind) (a b : Nat) (d : Octets) : (s.emit k a b d).remoteNum = s.remoteNum := rfl
@[simp] theorem State.emit_rats (s : State) (k : OutKind) (a b : Nat) (d : Octets) : (s.emit k a b d).rats = s.rats := rfl
@[simp] theorem State.emit_flows (s : State) (k : OutKind) (a b : Nat) (d : Octets) : (s.emit k a b d).flows = s.flows := rfl
@[simp] theorem State.emit_bondSince (s : State) (k : OutKind) (a b : Nat) (d : Octets) : (s.emit k a b d).bondSince = s.bondSince := rfl
@[simp] theorem State.emit_coreLoads (s : State) (k : OutKind) (a b : Nat) (d : Octets) : (s.emit k a b d).coreLoads = s.coreLoads := rfl
@[simp] theorem State.emit_mailSlots (s : State) (k : OutKind) (a b : Nat) (d : Octets) : (s.emit k a b d).mailSlots = s.mailSlots := rfl
@[simp] theorem State.emit_mailbox (s : State) (k : OutKind) (a b : Nat) (d : Octets) : (s.emit k a b d).mailbox = s.mailbox := rfl
@[simp] theorem State.emit_peerMail (s : State) (k : OutKind) (a b : Nat) (d : Octets) : (s.emit k a b d).peerMail = s.peerMail := rfl
@[simp] theorem State.emit_resets (s : State) (k : OutKind) (a b : Nat) (d : Octets) : (s.emit k a b d).resets = s.resets := rfl
@[simp] theorem State.emit_grants (s : State) (k : OutKind) (a b : Nat) (d : Octets) : (s.emit k a b d).grants = s.grants := rfl
@[simp] theorem State.emit_domains (s : State) (k : OutKind) (a b : Nat) (d : Octets) : (s.emit k a b d).domains = s.domains := rfl
@[simp] theorem State.emit_power (s : State) (k : OutKind) (a b : Nat) (d : Octets) : (s.emit k a b d).power = s.power := rfl
@[simp] theorem State.emit_fw (s : State) (k : OutKind) (a b : Nat) (d : Octets) : (s.emit k a b d).fw = s.fw := rfl
@[simp] theorem State.emit_mgmtRate (s : State) (k : OutKind) (a b : Nat) (d : Octets) : (s.emit k a b d).mgmtRate = s.mgmtRate := rfl
@[simp] theorem State.emit_mgmtSince (s : State) (k : OutKind) (a b : Nat) (d : Octets) : (s.emit k a b d).mgmtSince = s.mgmtSince := rfl
@[simp] theorem State.emit_i3cAddr (s : State) (k : OutKind) (a b : Nat) (d : Octets) : (s.emit k a b d).i3cAddr = s.i3cAddr := rfl
@[simp] theorem State.emit_ibien (s : State) (k : OutKind) (a b : Nat) (d : Octets) : (s.emit k a b d).ibien = s.ibien := rfl
@[simp] theorem State.emit_hellos (s : State) (k : OutKind) (a b : Nat) (d : Octets) : (s.emit k a b d).hellos = s.hellos := rfl
@[simp] theorem State.emit_carve (s : State) (k : OutKind) (a b : Nat) (d : Octets) : (s.emit k a b d).carve = s.carve := rfl

/-! ### setPort -/

@[simp] theorem State.setPort_pending (s : State) (p : Nat) (x : Port) : (s.setPort p x).pending = s.pending := rfl
@[simp] theorem State.setPort_tick (s : State) (p : Nat) (x : Port) : (s.setPort p x).tick = s.tick := rfl
@[simp] theorem State.setPort_free (s : State) (p : Nat) (x : Port) : (s.setPort p x).free = s.free := rfl
@[simp] theorem State.setPort_draws (s : State) (p : Nat) (x : Port) : (s.setPort p x).draws = s.draws := rfl
@[simp] theorem State.setPort_outbox (s : State) (p : Nat) (x : Port) : (s.setPort p x).outbox = s.outbox := rfl
@[simp] theorem State.setPort_ident (s : State) (p : Nat) (x : Port) : (s.setPort p x).ident = s.ident := rfl
@[simp] theorem State.setPort_mem (s : State) (p : Nat) (x : Port) : (s.setPort p x).mem = s.mem := rfl
@[simp] theorem State.setPort_poisoned (s : State) (p : Nat) (x : Port) : (s.setPort p x).poisoned = s.poisoned := rfl
@[simp] theorem State.setPort_grad (s : State) (p : Nat) (x : Port) : (s.setPort p x).grad = s.grad := rfl
@[simp] theorem State.setPort_panes (s : State) (p : Nat) (x : Port) : (s.setPort p x).panes = s.panes := rfl
@[simp] theorem State.setPort_trims (s : State) (p : Nat) (x : Port) : (s.setPort p x).trims = s.trims := rfl
@[simp] theorem State.setPort_masts (s : State) (p : Nat) (x : Port) : (s.setPort p x).masts = s.masts := rfl
@[simp] theorem State.setPort_parts (s : State) (p : Nat) (x : Port) : (s.setPort p x).parts = s.parts := rfl
@[simp] theorem State.setPort_lines (s : State) (p : Nat) (x : Port) : (s.setPort p x).lines = s.lines := rfl
@[simp] theorem State.setPort_uses (s : State) (p : Nat) (x : Port) : (s.setPort p x).uses = s.uses := rfl
@[simp] theorem State.setPort_directory (s : State) (p : Nat) (x : Port) : (s.setPort p x).directory = s.directory := rfl
@[simp] theorem State.setPort_trackers (s : State) (p : Nat) (x : Port) : (s.setPort p x).trackers = s.trackers := rfl
@[simp] theorem State.setPort_streams (s : State) (p : Nat) (x : Port) : (s.setPort p x).streams = s.streams := rfl
@[simp] theorem State.setPort_openRows (s : State) (p : Nat) (x : Port) : (s.setPort p x).openRows = s.openRows := rfl
@[simp] theorem State.setPort_heldReqs (s : State) (p : Nat) (x : Port) : (s.setPort p x).heldReqs = s.heldReqs := rfl
@[simp] theorem State.setPort_hot (s : State) (p : Nat) (x : Port) : (s.setPort p x).hot = s.hot := rfl
@[simp] theorem State.setPort_hotSince (s : State) (p : Nat) (x : Port) : (s.setPort p x).hotSince = s.hotSince := rfl
@[simp] theorem State.setPort_hbm (s : State) (p : Nat) (x : Port) : (s.setPort p x).hbm = s.hbm := rfl
@[simp] theorem State.setPort_lantern (s : State) (p : Nat) (x : Port) : (s.setPort p x).lantern = s.lantern := rfl
@[simp] theorem State.setPort_silent (s : State) (p : Nat) (x : Port) : (s.setPort p x).silent = s.silent := rfl
@[simp] theorem State.setPort_dict (s : State) (p : Nat) (x : Port) : (s.setPort p x).dict = s.dict := rfl
@[simp] theorem State.setPort_snaps (s : State) (p : Nat) (x : Port) : (s.setPort p x).snaps = s.snaps := rfl
@[simp] theorem State.setPort_snapRing (s : State) (p : Nat) (x : Port) : (s.setPort p x).snapRing = s.snapRing := rfl
@[simp] theorem State.setPort_writes (s : State) (p : Nat) (x : Port) : (s.setPort p x).writes = s.writes := rfl
@[simp] theorem State.setPort_rings (s : State) (p : Nat) (x : Port) : (s.setPort p x).rings = s.rings := rfl
@[simp] theorem State.setPort_limits (s : State) (p : Nat) (x : Port) : (s.setPort p x).limits = s.limits := rfl
@[simp] theorem State.setPort_sessions (s : State) (p : Nat) (x : Port) : (s.setPort p x).sessions = s.sessions := rfl
@[simp] theorem State.setPort_stagers (s : State) (p : Nat) (x : Port) : (s.setPort p x).stagers = s.stagers := rfl
@[simp] theorem State.setPort_commits (s : State) (p : Nat) (x : Port) : (s.setPort p x).commits = s.commits := rfl
@[simp] theorem State.setPort_commitNum (s : State) (p : Nat) (x : Port) : (s.setPort p x).commitNum = s.commitNum := rfl
@[simp] theorem State.setPort_deferred (s : State) (p : Nat) (x : Port) : (s.setPort p x).deferred = s.deferred := rfl
@[simp] theorem State.setPort_accepted (s : State) (p : Nat) (x : Port) : (s.setPort p x).accepted = s.accepted := rfl
@[simp] theorem State.setPort_plans (s : State) (p : Nat) (x : Port) : (s.setPort p x).plans = s.plans := rfl
@[simp] theorem State.setPort_holds (s : State) (p : Nat) (x : Port) : (s.setPort p x).holds = s.holds := rfl
@[simp] theorem State.setPort_holdNum (s : State) (p : Nat) (x : Port) : (s.setPort p x).holdNum = s.holdNum := rfl
@[simp] theorem State.setPort_sent (s : State) (p : Nat) (x : Port) : (s.setPort p x).sent = s.sent := rfl
@[simp] theorem State.setPort_sentNum (s : State) (p : Nat) (x : Port) : (s.setPort p x).sentNum = s.sentNum := rfl
@[simp] theorem State.setPort_heard (s : State) (p : Nat) (x : Port) : (s.setPort p x).heard = s.heard := rfl
@[simp] theorem State.setPort_remote (s : State) (p : Nat) (x : Port) : (s.setPort p x).remote = s.remote := rfl
@[simp] theorem State.setPort_remoteNum (s : State) (p : Nat) (x : Port) : (s.setPort p x).remoteNum = s.remoteNum := rfl
@[simp] theorem State.setPort_rats (s : State) (p : Nat) (x : Port) : (s.setPort p x).rats = s.rats := rfl
@[simp] theorem State.setPort_flows (s : State) (p : Nat) (x : Port) : (s.setPort p x).flows = s.flows := rfl
@[simp] theorem State.setPort_bondSince (s : State) (p : Nat) (x : Port) : (s.setPort p x).bondSince = s.bondSince := rfl
@[simp] theorem State.setPort_coreLoads (s : State) (p : Nat) (x : Port) : (s.setPort p x).coreLoads = s.coreLoads := rfl
@[simp] theorem State.setPort_mailSlots (s : State) (p : Nat) (x : Port) : (s.setPort p x).mailSlots = s.mailSlots := rfl
@[simp] theorem State.setPort_mailbox (s : State) (p : Nat) (x : Port) : (s.setPort p x).mailbox = s.mailbox := rfl
@[simp] theorem State.setPort_peerMail (s : State) (p : Nat) (x : Port) : (s.setPort p x).peerMail = s.peerMail := rfl
@[simp] theorem State.setPort_resets (s : State) (p : Nat) (x : Port) : (s.setPort p x).resets = s.resets := rfl
@[simp] theorem State.setPort_grants (s : State) (p : Nat) (x : Port) : (s.setPort p x).grants = s.grants := rfl
@[simp] theorem State.setPort_domains (s : State) (p : Nat) (x : Port) : (s.setPort p x).domains = s.domains := rfl
@[simp] theorem State.setPort_power (s : State) (p : Nat) (x : Port) : (s.setPort p x).power = s.power := rfl
@[simp] theorem State.setPort_fw (s : State) (p : Nat) (x : Port) : (s.setPort p x).fw = s.fw := rfl
@[simp] theorem State.setPort_mgmtRate (s : State) (p : Nat) (x : Port) : (s.setPort p x).mgmtRate = s.mgmtRate := rfl
@[simp] theorem State.setPort_mgmtSince (s : State) (p : Nat) (x : Port) : (s.setPort p x).mgmtSince = s.mgmtSince := rfl
@[simp] theorem State.setPort_i3cAddr (s : State) (p : Nat) (x : Port) : (s.setPort p x).i3cAddr = s.i3cAddr := rfl
@[simp] theorem State.setPort_ibien (s : State) (p : Nat) (x : Port) : (s.setPort p x).ibien = s.ibien := rfl
@[simp] theorem State.setPort_hellos (s : State) (p : Nat) (x : Port) : (s.setPort p x).hellos = s.hellos := rfl
@[simp] theorem State.setPort_carve (s : State) (p : Nat) (x : Port) : (s.setPort p x).carve = s.carve := rfl

/-! ### setRat -/

@[simp] theorem State.setRat_pending (s : State) (d side : Nat) (x : RatDir) : (s.setRat d side x).pending = s.pending := rfl
@[simp] theorem State.setRat_tick (s : State) (d side : Nat) (x : RatDir) : (s.setRat d side x).tick = s.tick := rfl
@[simp] theorem State.setRat_free (s : State) (d side : Nat) (x : RatDir) : (s.setRat d side x).free = s.free := rfl
@[simp] theorem State.setRat_draws (s : State) (d side : Nat) (x : RatDir) : (s.setRat d side x).draws = s.draws := rfl
@[simp] theorem State.setRat_outbox (s : State) (d side : Nat) (x : RatDir) : (s.setRat d side x).outbox = s.outbox := rfl
@[simp] theorem State.setRat_ident (s : State) (d side : Nat) (x : RatDir) : (s.setRat d side x).ident = s.ident := rfl
@[simp] theorem State.setRat_mem (s : State) (d side : Nat) (x : RatDir) : (s.setRat d side x).mem = s.mem := rfl
@[simp] theorem State.setRat_poisoned (s : State) (d side : Nat) (x : RatDir) : (s.setRat d side x).poisoned = s.poisoned := rfl
@[simp] theorem State.setRat_grad (s : State) (d side : Nat) (x : RatDir) : (s.setRat d side x).grad = s.grad := rfl
@[simp] theorem State.setRat_panes (s : State) (d side : Nat) (x : RatDir) : (s.setRat d side x).panes = s.panes := rfl
@[simp] theorem State.setRat_trims (s : State) (d side : Nat) (x : RatDir) : (s.setRat d side x).trims = s.trims := rfl
@[simp] theorem State.setRat_masts (s : State) (d side : Nat) (x : RatDir) : (s.setRat d side x).masts = s.masts := rfl
@[simp] theorem State.setRat_parts (s : State) (d side : Nat) (x : RatDir) : (s.setRat d side x).parts = s.parts := rfl
@[simp] theorem State.setRat_lines (s : State) (d side : Nat) (x : RatDir) : (s.setRat d side x).lines = s.lines := rfl
@[simp] theorem State.setRat_uses (s : State) (d side : Nat) (x : RatDir) : (s.setRat d side x).uses = s.uses := rfl
@[simp] theorem State.setRat_directory (s : State) (d side : Nat) (x : RatDir) : (s.setRat d side x).directory = s.directory := rfl
@[simp] theorem State.setRat_trackers (s : State) (d side : Nat) (x : RatDir) : (s.setRat d side x).trackers = s.trackers := rfl
@[simp] theorem State.setRat_streams (s : State) (d side : Nat) (x : RatDir) : (s.setRat d side x).streams = s.streams := rfl
@[simp] theorem State.setRat_openRows (s : State) (d side : Nat) (x : RatDir) : (s.setRat d side x).openRows = s.openRows := rfl
@[simp] theorem State.setRat_heldReqs (s : State) (d side : Nat) (x : RatDir) : (s.setRat d side x).heldReqs = s.heldReqs := rfl
@[simp] theorem State.setRat_hot (s : State) (d side : Nat) (x : RatDir) : (s.setRat d side x).hot = s.hot := rfl
@[simp] theorem State.setRat_hotSince (s : State) (d side : Nat) (x : RatDir) : (s.setRat d side x).hotSince = s.hotSince := rfl
@[simp] theorem State.setRat_hbm (s : State) (d side : Nat) (x : RatDir) : (s.setRat d side x).hbm = s.hbm := rfl
@[simp] theorem State.setRat_lantern (s : State) (d side : Nat) (x : RatDir) : (s.setRat d side x).lantern = s.lantern := rfl
@[simp] theorem State.setRat_silent (s : State) (d side : Nat) (x : RatDir) : (s.setRat d side x).silent = s.silent := rfl
@[simp] theorem State.setRat_dict (s : State) (d side : Nat) (x : RatDir) : (s.setRat d side x).dict = s.dict := rfl
@[simp] theorem State.setRat_snaps (s : State) (d side : Nat) (x : RatDir) : (s.setRat d side x).snaps = s.snaps := rfl
@[simp] theorem State.setRat_snapRing (s : State) (d side : Nat) (x : RatDir) : (s.setRat d side x).snapRing = s.snapRing := rfl
@[simp] theorem State.setRat_writes (s : State) (d side : Nat) (x : RatDir) : (s.setRat d side x).writes = s.writes := rfl
@[simp] theorem State.setRat_rings (s : State) (d side : Nat) (x : RatDir) : (s.setRat d side x).rings = s.rings := rfl
@[simp] theorem State.setRat_limits (s : State) (d side : Nat) (x : RatDir) : (s.setRat d side x).limits = s.limits := rfl
@[simp] theorem State.setRat_sessions (s : State) (d side : Nat) (x : RatDir) : (s.setRat d side x).sessions = s.sessions := rfl
@[simp] theorem State.setRat_stagers (s : State) (d side : Nat) (x : RatDir) : (s.setRat d side x).stagers = s.stagers := rfl
@[simp] theorem State.setRat_commits (s : State) (d side : Nat) (x : RatDir) : (s.setRat d side x).commits = s.commits := rfl
@[simp] theorem State.setRat_commitNum (s : State) (d side : Nat) (x : RatDir) : (s.setRat d side x).commitNum = s.commitNum := rfl
@[simp] theorem State.setRat_deferred (s : State) (d side : Nat) (x : RatDir) : (s.setRat d side x).deferred = s.deferred := rfl
@[simp] theorem State.setRat_accepted (s : State) (d side : Nat) (x : RatDir) : (s.setRat d side x).accepted = s.accepted := rfl
@[simp] theorem State.setRat_plans (s : State) (d side : Nat) (x : RatDir) : (s.setRat d side x).plans = s.plans := rfl
@[simp] theorem State.setRat_holds (s : State) (d side : Nat) (x : RatDir) : (s.setRat d side x).holds = s.holds := rfl
@[simp] theorem State.setRat_holdNum (s : State) (d side : Nat) (x : RatDir) : (s.setRat d side x).holdNum = s.holdNum := rfl
@[simp] theorem State.setRat_sent (s : State) (d side : Nat) (x : RatDir) : (s.setRat d side x).sent = s.sent := rfl
@[simp] theorem State.setRat_sentNum (s : State) (d side : Nat) (x : RatDir) : (s.setRat d side x).sentNum = s.sentNum := rfl
@[simp] theorem State.setRat_ports (s : State) (d side : Nat) (x : RatDir) : (s.setRat d side x).ports = s.ports := rfl
@[simp] theorem State.setRat_heard (s : State) (d side : Nat) (x : RatDir) : (s.setRat d side x).heard = s.heard := rfl
@[simp] theorem State.setRat_remote (s : State) (d side : Nat) (x : RatDir) : (s.setRat d side x).remote = s.remote := rfl
@[simp] theorem State.setRat_remoteNum (s : State) (d side : Nat) (x : RatDir) : (s.setRat d side x).remoteNum = s.remoteNum := rfl
@[simp] theorem State.setRat_flows (s : State) (d side : Nat) (x : RatDir) : (s.setRat d side x).flows = s.flows := rfl
@[simp] theorem State.setRat_bondSince (s : State) (d side : Nat) (x : RatDir) : (s.setRat d side x).bondSince = s.bondSince := rfl
@[simp] theorem State.setRat_coreLoads (s : State) (d side : Nat) (x : RatDir) : (s.setRat d side x).coreLoads = s.coreLoads := rfl
@[simp] theorem State.setRat_mailSlots (s : State) (d side : Nat) (x : RatDir) : (s.setRat d side x).mailSlots = s.mailSlots := rfl
@[simp] theorem State.setRat_mailbox (s : State) (d side : Nat) (x : RatDir) : (s.setRat d side x).mailbox = s.mailbox := rfl
@[simp] theorem State.setRat_peerMail (s : State) (d side : Nat) (x : RatDir) : (s.setRat d side x).peerMail = s.peerMail := rfl
@[simp] theorem State.setRat_resets (s : State) (d side : Nat) (x : RatDir) : (s.setRat d side x).resets = s.resets := rfl
@[simp] theorem State.setRat_grants (s : State) (d side : Nat) (x : RatDir) : (s.setRat d side x).grants = s.grants := rfl
@[simp] theorem State.setRat_domains (s : State) (d side : Nat) (x : RatDir) : (s.setRat d side x).domains = s.domains := rfl
@[simp] theorem State.setRat_power (s : State) (d side : Nat) (x : RatDir) : (s.setRat d side x).power = s.power := rfl
@[simp] theorem State.setRat_fw (s : State) (d side : Nat) (x : RatDir) : (s.setRat d side x).fw = s.fw := rfl
@[simp] theorem State.setRat_mgmtRate (s : State) (d side : Nat) (x : RatDir) : (s.setRat d side x).mgmtRate = s.mgmtRate := rfl
@[simp] theorem State.setRat_mgmtSince (s : State) (d side : Nat) (x : RatDir) : (s.setRat d side x).mgmtSince = s.mgmtSince := rfl
@[simp] theorem State.setRat_i3cAddr (s : State) (d side : Nat) (x : RatDir) : (s.setRat d side x).i3cAddr = s.i3cAddr := rfl
@[simp] theorem State.setRat_ibien (s : State) (d side : Nat) (x : RatDir) : (s.setRat d side x).ibien = s.ibien := rfl
@[simp] theorem State.setRat_hellos (s : State) (d side : Nat) (x : RatDir) : (s.setRat d side x).hellos = s.hellos := rfl
@[simp] theorem State.setRat_carve (s : State) (d side : Nat) (x : RatDir) : (s.setRat d side x).carve = s.carve := rfl

/-! ### setFlow -/

@[simp] theorem State.setFlow_pending (s : State) (d side : Nat) (x : RatFlow) : (s.setFlow d side x).pending = s.pending := rfl
@[simp] theorem State.setFlow_tick (s : State) (d side : Nat) (x : RatFlow) : (s.setFlow d side x).tick = s.tick := rfl
@[simp] theorem State.setFlow_free (s : State) (d side : Nat) (x : RatFlow) : (s.setFlow d side x).free = s.free := rfl
@[simp] theorem State.setFlow_draws (s : State) (d side : Nat) (x : RatFlow) : (s.setFlow d side x).draws = s.draws := rfl
@[simp] theorem State.setFlow_outbox (s : State) (d side : Nat) (x : RatFlow) : (s.setFlow d side x).outbox = s.outbox := rfl
@[simp] theorem State.setFlow_ident (s : State) (d side : Nat) (x : RatFlow) : (s.setFlow d side x).ident = s.ident := rfl
@[simp] theorem State.setFlow_mem (s : State) (d side : Nat) (x : RatFlow) : (s.setFlow d side x).mem = s.mem := rfl
@[simp] theorem State.setFlow_poisoned (s : State) (d side : Nat) (x : RatFlow) : (s.setFlow d side x).poisoned = s.poisoned := rfl
@[simp] theorem State.setFlow_grad (s : State) (d side : Nat) (x : RatFlow) : (s.setFlow d side x).grad = s.grad := rfl
@[simp] theorem State.setFlow_panes (s : State) (d side : Nat) (x : RatFlow) : (s.setFlow d side x).panes = s.panes := rfl
@[simp] theorem State.setFlow_trims (s : State) (d side : Nat) (x : RatFlow) : (s.setFlow d side x).trims = s.trims := rfl
@[simp] theorem State.setFlow_masts (s : State) (d side : Nat) (x : RatFlow) : (s.setFlow d side x).masts = s.masts := rfl
@[simp] theorem State.setFlow_parts (s : State) (d side : Nat) (x : RatFlow) : (s.setFlow d side x).parts = s.parts := rfl
@[simp] theorem State.setFlow_lines (s : State) (d side : Nat) (x : RatFlow) : (s.setFlow d side x).lines = s.lines := rfl
@[simp] theorem State.setFlow_uses (s : State) (d side : Nat) (x : RatFlow) : (s.setFlow d side x).uses = s.uses := rfl
@[simp] theorem State.setFlow_directory (s : State) (d side : Nat) (x : RatFlow) : (s.setFlow d side x).directory = s.directory := rfl
@[simp] theorem State.setFlow_trackers (s : State) (d side : Nat) (x : RatFlow) : (s.setFlow d side x).trackers = s.trackers := rfl
@[simp] theorem State.setFlow_streams (s : State) (d side : Nat) (x : RatFlow) : (s.setFlow d side x).streams = s.streams := rfl
@[simp] theorem State.setFlow_openRows (s : State) (d side : Nat) (x : RatFlow) : (s.setFlow d side x).openRows = s.openRows := rfl
@[simp] theorem State.setFlow_heldReqs (s : State) (d side : Nat) (x : RatFlow) : (s.setFlow d side x).heldReqs = s.heldReqs := rfl
@[simp] theorem State.setFlow_hot (s : State) (d side : Nat) (x : RatFlow) : (s.setFlow d side x).hot = s.hot := rfl
@[simp] theorem State.setFlow_hotSince (s : State) (d side : Nat) (x : RatFlow) : (s.setFlow d side x).hotSince = s.hotSince := rfl
@[simp] theorem State.setFlow_hbm (s : State) (d side : Nat) (x : RatFlow) : (s.setFlow d side x).hbm = s.hbm := rfl
@[simp] theorem State.setFlow_lantern (s : State) (d side : Nat) (x : RatFlow) : (s.setFlow d side x).lantern = s.lantern := rfl
@[simp] theorem State.setFlow_silent (s : State) (d side : Nat) (x : RatFlow) : (s.setFlow d side x).silent = s.silent := rfl
@[simp] theorem State.setFlow_dict (s : State) (d side : Nat) (x : RatFlow) : (s.setFlow d side x).dict = s.dict := rfl
@[simp] theorem State.setFlow_snaps (s : State) (d side : Nat) (x : RatFlow) : (s.setFlow d side x).snaps = s.snaps := rfl
@[simp] theorem State.setFlow_snapRing (s : State) (d side : Nat) (x : RatFlow) : (s.setFlow d side x).snapRing = s.snapRing := rfl
@[simp] theorem State.setFlow_writes (s : State) (d side : Nat) (x : RatFlow) : (s.setFlow d side x).writes = s.writes := rfl
@[simp] theorem State.setFlow_rings (s : State) (d side : Nat) (x : RatFlow) : (s.setFlow d side x).rings = s.rings := rfl
@[simp] theorem State.setFlow_limits (s : State) (d side : Nat) (x : RatFlow) : (s.setFlow d side x).limits = s.limits := rfl
@[simp] theorem State.setFlow_sessions (s : State) (d side : Nat) (x : RatFlow) : (s.setFlow d side x).sessions = s.sessions := rfl
@[simp] theorem State.setFlow_stagers (s : State) (d side : Nat) (x : RatFlow) : (s.setFlow d side x).stagers = s.stagers := rfl
@[simp] theorem State.setFlow_commits (s : State) (d side : Nat) (x : RatFlow) : (s.setFlow d side x).commits = s.commits := rfl
@[simp] theorem State.setFlow_commitNum (s : State) (d side : Nat) (x : RatFlow) : (s.setFlow d side x).commitNum = s.commitNum := rfl
@[simp] theorem State.setFlow_deferred (s : State) (d side : Nat) (x : RatFlow) : (s.setFlow d side x).deferred = s.deferred := rfl
@[simp] theorem State.setFlow_accepted (s : State) (d side : Nat) (x : RatFlow) : (s.setFlow d side x).accepted = s.accepted := rfl
@[simp] theorem State.setFlow_plans (s : State) (d side : Nat) (x : RatFlow) : (s.setFlow d side x).plans = s.plans := rfl
@[simp] theorem State.setFlow_holds (s : State) (d side : Nat) (x : RatFlow) : (s.setFlow d side x).holds = s.holds := rfl
@[simp] theorem State.setFlow_holdNum (s : State) (d side : Nat) (x : RatFlow) : (s.setFlow d side x).holdNum = s.holdNum := rfl
@[simp] theorem State.setFlow_sent (s : State) (d side : Nat) (x : RatFlow) : (s.setFlow d side x).sent = s.sent := rfl
@[simp] theorem State.setFlow_sentNum (s : State) (d side : Nat) (x : RatFlow) : (s.setFlow d side x).sentNum = s.sentNum := rfl
@[simp] theorem State.setFlow_ports (s : State) (d side : Nat) (x : RatFlow) : (s.setFlow d side x).ports = s.ports := rfl
@[simp] theorem State.setFlow_heard (s : State) (d side : Nat) (x : RatFlow) : (s.setFlow d side x).heard = s.heard := rfl
@[simp] theorem State.setFlow_remote (s : State) (d side : Nat) (x : RatFlow) : (s.setFlow d side x).remote = s.remote := rfl
@[simp] theorem State.setFlow_remoteNum (s : State) (d side : Nat) (x : RatFlow) : (s.setFlow d side x).remoteNum = s.remoteNum := rfl
@[simp] theorem State.setFlow_rats (s : State) (d side : Nat) (x : RatFlow) : (s.setFlow d side x).rats = s.rats := rfl
@[simp] theorem State.setFlow_bondSince (s : State) (d side : Nat) (x : RatFlow) : (s.setFlow d side x).bondSince = s.bondSince := rfl
@[simp] theorem State.setFlow_coreLoads (s : State) (d side : Nat) (x : RatFlow) : (s.setFlow d side x).coreLoads = s.coreLoads := rfl
@[simp] theorem State.setFlow_mailSlots (s : State) (d side : Nat) (x : RatFlow) : (s.setFlow d side x).mailSlots = s.mailSlots := rfl
@[simp] theorem State.setFlow_mailbox (s : State) (d side : Nat) (x : RatFlow) : (s.setFlow d side x).mailbox = s.mailbox := rfl
@[simp] theorem State.setFlow_peerMail (s : State) (d side : Nat) (x : RatFlow) : (s.setFlow d side x).peerMail = s.peerMail := rfl
@[simp] theorem State.setFlow_resets (s : State) (d side : Nat) (x : RatFlow) : (s.setFlow d side x).resets = s.resets := rfl
@[simp] theorem State.setFlow_grants (s : State) (d side : Nat) (x : RatFlow) : (s.setFlow d side x).grants = s.grants := rfl
@[simp] theorem State.setFlow_domains (s : State) (d side : Nat) (x : RatFlow) : (s.setFlow d side x).domains = s.domains := rfl
@[simp] theorem State.setFlow_power (s : State) (d side : Nat) (x : RatFlow) : (s.setFlow d side x).power = s.power := rfl
@[simp] theorem State.setFlow_fw (s : State) (d side : Nat) (x : RatFlow) : (s.setFlow d side x).fw = s.fw := rfl
@[simp] theorem State.setFlow_mgmtRate (s : State) (d side : Nat) (x : RatFlow) : (s.setFlow d side x).mgmtRate = s.mgmtRate := rfl
@[simp] theorem State.setFlow_mgmtSince (s : State) (d side : Nat) (x : RatFlow) : (s.setFlow d side x).mgmtSince = s.mgmtSince := rfl
@[simp] theorem State.setFlow_i3cAddr (s : State) (d side : Nat) (x : RatFlow) : (s.setFlow d side x).i3cAddr = s.i3cAddr := rfl
@[simp] theorem State.setFlow_ibien (s : State) (d side : Nat) (x : RatFlow) : (s.setFlow d side x).ibien = s.ibien := rfl
@[simp] theorem State.setFlow_hellos (s : State) (d side : Nat) (x : RatFlow) : (s.setFlow d side x).hellos = s.hellos := rfl
@[simp] theorem State.setFlow_carve (s : State) (d side : Nat) (x : RatFlow) : (s.setFlow d side x).carve = s.carve := rfl

/-! ### setTracker -/

@[simp] theorem State.setTracker_pending (s : State) (n : Nat) (x : Tracker) : (s.setTracker n x).pending = s.pending := rfl
@[simp] theorem State.setTracker_tick (s : State) (n : Nat) (x : Tracker) : (s.setTracker n x).tick = s.tick := rfl
@[simp] theorem State.setTracker_free (s : State) (n : Nat) (x : Tracker) : (s.setTracker n x).free = s.free := rfl
@[simp] theorem State.setTracker_draws (s : State) (n : Nat) (x : Tracker) : (s.setTracker n x).draws = s.draws := rfl
@[simp] theorem State.setTracker_outbox (s : State) (n : Nat) (x : Tracker) : (s.setTracker n x).outbox = s.outbox := rfl
@[simp] theorem State.setTracker_ident (s : State) (n : Nat) (x : Tracker) : (s.setTracker n x).ident = s.ident := rfl
@[simp] theorem State.setTracker_mem (s : State) (n : Nat) (x : Tracker) : (s.setTracker n x).mem = s.mem := rfl
@[simp] theorem State.setTracker_poisoned (s : State) (n : Nat) (x : Tracker) : (s.setTracker n x).poisoned = s.poisoned := rfl
@[simp] theorem State.setTracker_grad (s : State) (n : Nat) (x : Tracker) : (s.setTracker n x).grad = s.grad := rfl
@[simp] theorem State.setTracker_panes (s : State) (n : Nat) (x : Tracker) : (s.setTracker n x).panes = s.panes := rfl
@[simp] theorem State.setTracker_trims (s : State) (n : Nat) (x : Tracker) : (s.setTracker n x).trims = s.trims := rfl
@[simp] theorem State.setTracker_masts (s : State) (n : Nat) (x : Tracker) : (s.setTracker n x).masts = s.masts := rfl
@[simp] theorem State.setTracker_parts (s : State) (n : Nat) (x : Tracker) : (s.setTracker n x).parts = s.parts := rfl
@[simp] theorem State.setTracker_lines (s : State) (n : Nat) (x : Tracker) : (s.setTracker n x).lines = s.lines := rfl
@[simp] theorem State.setTracker_uses (s : State) (n : Nat) (x : Tracker) : (s.setTracker n x).uses = s.uses := rfl
@[simp] theorem State.setTracker_directory (s : State) (n : Nat) (x : Tracker) : (s.setTracker n x).directory = s.directory := rfl
@[simp] theorem State.setTracker_streams (s : State) (n : Nat) (x : Tracker) : (s.setTracker n x).streams = s.streams := rfl
@[simp] theorem State.setTracker_openRows (s : State) (n : Nat) (x : Tracker) : (s.setTracker n x).openRows = s.openRows := rfl
@[simp] theorem State.setTracker_heldReqs (s : State) (n : Nat) (x : Tracker) : (s.setTracker n x).heldReqs = s.heldReqs := rfl
@[simp] theorem State.setTracker_hot (s : State) (n : Nat) (x : Tracker) : (s.setTracker n x).hot = s.hot := rfl
@[simp] theorem State.setTracker_hotSince (s : State) (n : Nat) (x : Tracker) : (s.setTracker n x).hotSince = s.hotSince := rfl
@[simp] theorem State.setTracker_hbm (s : State) (n : Nat) (x : Tracker) : (s.setTracker n x).hbm = s.hbm := rfl
@[simp] theorem State.setTracker_lantern (s : State) (n : Nat) (x : Tracker) : (s.setTracker n x).lantern = s.lantern := rfl
@[simp] theorem State.setTracker_silent (s : State) (n : Nat) (x : Tracker) : (s.setTracker n x).silent = s.silent := rfl
@[simp] theorem State.setTracker_dict (s : State) (n : Nat) (x : Tracker) : (s.setTracker n x).dict = s.dict := rfl
@[simp] theorem State.setTracker_snaps (s : State) (n : Nat) (x : Tracker) : (s.setTracker n x).snaps = s.snaps := rfl
@[simp] theorem State.setTracker_snapRing (s : State) (n : Nat) (x : Tracker) : (s.setTracker n x).snapRing = s.snapRing := rfl
@[simp] theorem State.setTracker_writes (s : State) (n : Nat) (x : Tracker) : (s.setTracker n x).writes = s.writes := rfl
@[simp] theorem State.setTracker_rings (s : State) (n : Nat) (x : Tracker) : (s.setTracker n x).rings = s.rings := rfl
@[simp] theorem State.setTracker_limits (s : State) (n : Nat) (x : Tracker) : (s.setTracker n x).limits = s.limits := rfl
@[simp] theorem State.setTracker_sessions (s : State) (n : Nat) (x : Tracker) : (s.setTracker n x).sessions = s.sessions := rfl
@[simp] theorem State.setTracker_stagers (s : State) (n : Nat) (x : Tracker) : (s.setTracker n x).stagers = s.stagers := rfl
@[simp] theorem State.setTracker_commits (s : State) (n : Nat) (x : Tracker) : (s.setTracker n x).commits = s.commits := rfl
@[simp] theorem State.setTracker_commitNum (s : State) (n : Nat) (x : Tracker) : (s.setTracker n x).commitNum = s.commitNum := rfl
@[simp] theorem State.setTracker_deferred (s : State) (n : Nat) (x : Tracker) : (s.setTracker n x).deferred = s.deferred := rfl
@[simp] theorem State.setTracker_accepted (s : State) (n : Nat) (x : Tracker) : (s.setTracker n x).accepted = s.accepted := rfl
@[simp] theorem State.setTracker_plans (s : State) (n : Nat) (x : Tracker) : (s.setTracker n x).plans = s.plans := rfl
@[simp] theorem State.setTracker_holds (s : State) (n : Nat) (x : Tracker) : (s.setTracker n x).holds = s.holds := rfl
@[simp] theorem State.setTracker_holdNum (s : State) (n : Nat) (x : Tracker) : (s.setTracker n x).holdNum = s.holdNum := rfl
@[simp] theorem State.setTracker_sent (s : State) (n : Nat) (x : Tracker) : (s.setTracker n x).sent = s.sent := rfl
@[simp] theorem State.setTracker_sentNum (s : State) (n : Nat) (x : Tracker) : (s.setTracker n x).sentNum = s.sentNum := rfl
@[simp] theorem State.setTracker_ports (s : State) (n : Nat) (x : Tracker) : (s.setTracker n x).ports = s.ports := rfl
@[simp] theorem State.setTracker_heard (s : State) (n : Nat) (x : Tracker) : (s.setTracker n x).heard = s.heard := rfl
@[simp] theorem State.setTracker_remote (s : State) (n : Nat) (x : Tracker) : (s.setTracker n x).remote = s.remote := rfl
@[simp] theorem State.setTracker_remoteNum (s : State) (n : Nat) (x : Tracker) : (s.setTracker n x).remoteNum = s.remoteNum := rfl
@[simp] theorem State.setTracker_rats (s : State) (n : Nat) (x : Tracker) : (s.setTracker n x).rats = s.rats := rfl
@[simp] theorem State.setTracker_flows (s : State) (n : Nat) (x : Tracker) : (s.setTracker n x).flows = s.flows := rfl
@[simp] theorem State.setTracker_bondSince (s : State) (n : Nat) (x : Tracker) : (s.setTracker n x).bondSince = s.bondSince := rfl
@[simp] theorem State.setTracker_coreLoads (s : State) (n : Nat) (x : Tracker) : (s.setTracker n x).coreLoads = s.coreLoads := rfl
@[simp] theorem State.setTracker_mailSlots (s : State) (n : Nat) (x : Tracker) : (s.setTracker n x).mailSlots = s.mailSlots := rfl
@[simp] theorem State.setTracker_mailbox (s : State) (n : Nat) (x : Tracker) : (s.setTracker n x).mailbox = s.mailbox := rfl
@[simp] theorem State.setTracker_peerMail (s : State) (n : Nat) (x : Tracker) : (s.setTracker n x).peerMail = s.peerMail := rfl
@[simp] theorem State.setTracker_resets (s : State) (n : Nat) (x : Tracker) : (s.setTracker n x).resets = s.resets := rfl
@[simp] theorem State.setTracker_grants (s : State) (n : Nat) (x : Tracker) : (s.setTracker n x).grants = s.grants := rfl
@[simp] theorem State.setTracker_domains (s : State) (n : Nat) (x : Tracker) : (s.setTracker n x).domains = s.domains := rfl
@[simp] theorem State.setTracker_power (s : State) (n : Nat) (x : Tracker) : (s.setTracker n x).power = s.power := rfl
@[simp] theorem State.setTracker_fw (s : State) (n : Nat) (x : Tracker) : (s.setTracker n x).fw = s.fw := rfl
@[simp] theorem State.setTracker_mgmtRate (s : State) (n : Nat) (x : Tracker) : (s.setTracker n x).mgmtRate = s.mgmtRate := rfl
@[simp] theorem State.setTracker_mgmtSince (s : State) (n : Nat) (x : Tracker) : (s.setTracker n x).mgmtSince = s.mgmtSince := rfl
@[simp] theorem State.setTracker_i3cAddr (s : State) (n : Nat) (x : Tracker) : (s.setTracker n x).i3cAddr = s.i3cAddr := rfl
@[simp] theorem State.setTracker_ibien (s : State) (n : Nat) (x : Tracker) : (s.setTracker n x).ibien = s.ibien := rfl
@[simp] theorem State.setTracker_hellos (s : State) (n : Nat) (x : Tracker) : (s.setTracker n x).hellos = s.hellos := rfl
@[simp] theorem State.setTracker_carve (s : State) (n : Nat) (x : Tracker) : (s.setTracker n x).carve = s.carve := rfl

/-! ### setPane -/

@[simp] theorem State.setPane_pending (s : State) (p d k : Nat) (x : Pane) : (s.setPane p d k x).pending = s.pending := rfl
@[simp] theorem State.setPane_tick (s : State) (p d k : Nat) (x : Pane) : (s.setPane p d k x).tick = s.tick := rfl
@[simp] theorem State.setPane_free (s : State) (p d k : Nat) (x : Pane) : (s.setPane p d k x).free = s.free := rfl
@[simp] theorem State.setPane_draws (s : State) (p d k : Nat) (x : Pane) : (s.setPane p d k x).draws = s.draws := rfl
@[simp] theorem State.setPane_outbox (s : State) (p d k : Nat) (x : Pane) : (s.setPane p d k x).outbox = s.outbox := rfl
@[simp] theorem State.setPane_ident (s : State) (p d k : Nat) (x : Pane) : (s.setPane p d k x).ident = s.ident := rfl
@[simp] theorem State.setPane_mem (s : State) (p d k : Nat) (x : Pane) : (s.setPane p d k x).mem = s.mem := rfl
@[simp] theorem State.setPane_poisoned (s : State) (p d k : Nat) (x : Pane) : (s.setPane p d k x).poisoned = s.poisoned := rfl
@[simp] theorem State.setPane_grad (s : State) (p d k : Nat) (x : Pane) : (s.setPane p d k x).grad = s.grad := rfl
@[simp] theorem State.setPane_trims (s : State) (p d k : Nat) (x : Pane) : (s.setPane p d k x).trims = s.trims := rfl
@[simp] theorem State.setPane_masts (s : State) (p d k : Nat) (x : Pane) : (s.setPane p d k x).masts = s.masts := rfl
@[simp] theorem State.setPane_parts (s : State) (p d k : Nat) (x : Pane) : (s.setPane p d k x).parts = s.parts := rfl
@[simp] theorem State.setPane_lines (s : State) (p d k : Nat) (x : Pane) : (s.setPane p d k x).lines = s.lines := rfl
@[simp] theorem State.setPane_uses (s : State) (p d k : Nat) (x : Pane) : (s.setPane p d k x).uses = s.uses := rfl
@[simp] theorem State.setPane_directory (s : State) (p d k : Nat) (x : Pane) : (s.setPane p d k x).directory = s.directory := rfl
@[simp] theorem State.setPane_trackers (s : State) (p d k : Nat) (x : Pane) : (s.setPane p d k x).trackers = s.trackers := rfl
@[simp] theorem State.setPane_streams (s : State) (p d k : Nat) (x : Pane) : (s.setPane p d k x).streams = s.streams := rfl
@[simp] theorem State.setPane_openRows (s : State) (p d k : Nat) (x : Pane) : (s.setPane p d k x).openRows = s.openRows := rfl
@[simp] theorem State.setPane_heldReqs (s : State) (p d k : Nat) (x : Pane) : (s.setPane p d k x).heldReqs = s.heldReqs := rfl
@[simp] theorem State.setPane_hot (s : State) (p d k : Nat) (x : Pane) : (s.setPane p d k x).hot = s.hot := rfl
@[simp] theorem State.setPane_hotSince (s : State) (p d k : Nat) (x : Pane) : (s.setPane p d k x).hotSince = s.hotSince := rfl
@[simp] theorem State.setPane_hbm (s : State) (p d k : Nat) (x : Pane) : (s.setPane p d k x).hbm = s.hbm := rfl
@[simp] theorem State.setPane_lantern (s : State) (p d k : Nat) (x : Pane) : (s.setPane p d k x).lantern = s.lantern := rfl
@[simp] theorem State.setPane_silent (s : State) (p d k : Nat) (x : Pane) : (s.setPane p d k x).silent = s.silent := rfl
@[simp] theorem State.setPane_dict (s : State) (p d k : Nat) (x : Pane) : (s.setPane p d k x).dict = s.dict := rfl
@[simp] theorem State.setPane_snaps (s : State) (p d k : Nat) (x : Pane) : (s.setPane p d k x).snaps = s.snaps := rfl
@[simp] theorem State.setPane_snapRing (s : State) (p d k : Nat) (x : Pane) : (s.setPane p d k x).snapRing = s.snapRing := rfl
@[simp] theorem State.setPane_writes (s : State) (p d k : Nat) (x : Pane) : (s.setPane p d k x).writes = s.writes := rfl
@[simp] theorem State.setPane_rings (s : State) (p d k : Nat) (x : Pane) : (s.setPane p d k x).rings = s.rings := rfl
@[simp] theorem State.setPane_limits (s : State) (p d k : Nat) (x : Pane) : (s.setPane p d k x).limits = s.limits := rfl
@[simp] theorem State.setPane_sessions (s : State) (p d k : Nat) (x : Pane) : (s.setPane p d k x).sessions = s.sessions := rfl
@[simp] theorem State.setPane_stagers (s : State) (p d k : Nat) (x : Pane) : (s.setPane p d k x).stagers = s.stagers := rfl
@[simp] theorem State.setPane_commits (s : State) (p d k : Nat) (x : Pane) : (s.setPane p d k x).commits = s.commits := rfl
@[simp] theorem State.setPane_commitNum (s : State) (p d k : Nat) (x : Pane) : (s.setPane p d k x).commitNum = s.commitNum := rfl
@[simp] theorem State.setPane_deferred (s : State) (p d k : Nat) (x : Pane) : (s.setPane p d k x).deferred = s.deferred := rfl
@[simp] theorem State.setPane_accepted (s : State) (p d k : Nat) (x : Pane) : (s.setPane p d k x).accepted = s.accepted := rfl
@[simp] theorem State.setPane_plans (s : State) (p d k : Nat) (x : Pane) : (s.setPane p d k x).plans = s.plans := rfl
@[simp] theorem State.setPane_holds (s : State) (p d k : Nat) (x : Pane) : (s.setPane p d k x).holds = s.holds := rfl
@[simp] theorem State.setPane_holdNum (s : State) (p d k : Nat) (x : Pane) : (s.setPane p d k x).holdNum = s.holdNum := rfl
@[simp] theorem State.setPane_sent (s : State) (p d k : Nat) (x : Pane) : (s.setPane p d k x).sent = s.sent := rfl
@[simp] theorem State.setPane_sentNum (s : State) (p d k : Nat) (x : Pane) : (s.setPane p d k x).sentNum = s.sentNum := rfl
@[simp] theorem State.setPane_ports (s : State) (p d k : Nat) (x : Pane) : (s.setPane p d k x).ports = s.ports := rfl
@[simp] theorem State.setPane_heard (s : State) (p d k : Nat) (x : Pane) : (s.setPane p d k x).heard = s.heard := rfl
@[simp] theorem State.setPane_remote (s : State) (p d k : Nat) (x : Pane) : (s.setPane p d k x).remote = s.remote := rfl
@[simp] theorem State.setPane_remoteNum (s : State) (p d k : Nat) (x : Pane) : (s.setPane p d k x).remoteNum = s.remoteNum := rfl
@[simp] theorem State.setPane_rats (s : State) (p d k : Nat) (x : Pane) : (s.setPane p d k x).rats = s.rats := rfl
@[simp] theorem State.setPane_flows (s : State) (p d k : Nat) (x : Pane) : (s.setPane p d k x).flows = s.flows := rfl
@[simp] theorem State.setPane_bondSince (s : State) (p d k : Nat) (x : Pane) : (s.setPane p d k x).bondSince = s.bondSince := rfl
@[simp] theorem State.setPane_coreLoads (s : State) (p d k : Nat) (x : Pane) : (s.setPane p d k x).coreLoads = s.coreLoads := rfl
@[simp] theorem State.setPane_mailSlots (s : State) (p d k : Nat) (x : Pane) : (s.setPane p d k x).mailSlots = s.mailSlots := rfl
@[simp] theorem State.setPane_mailbox (s : State) (p d k : Nat) (x : Pane) : (s.setPane p d k x).mailbox = s.mailbox := rfl
@[simp] theorem State.setPane_peerMail (s : State) (p d k : Nat) (x : Pane) : (s.setPane p d k x).peerMail = s.peerMail := rfl
@[simp] theorem State.setPane_resets (s : State) (p d k : Nat) (x : Pane) : (s.setPane p d k x).resets = s.resets := rfl
@[simp] theorem State.setPane_grants (s : State) (p d k : Nat) (x : Pane) : (s.setPane p d k x).grants = s.grants := rfl
@[simp] theorem State.setPane_domains (s : State) (p d k : Nat) (x : Pane) : (s.setPane p d k x).domains = s.domains := rfl
@[simp] theorem State.setPane_power (s : State) (p d k : Nat) (x : Pane) : (s.setPane p d k x).power = s.power := rfl
@[simp] theorem State.setPane_fw (s : State) (p d k : Nat) (x : Pane) : (s.setPane p d k x).fw = s.fw := rfl
@[simp] theorem State.setPane_mgmtRate (s : State) (p d k : Nat) (x : Pane) : (s.setPane p d k x).mgmtRate = s.mgmtRate := rfl
@[simp] theorem State.setPane_mgmtSince (s : State) (p d k : Nat) (x : Pane) : (s.setPane p d k x).mgmtSince = s.mgmtSince := rfl
@[simp] theorem State.setPane_i3cAddr (s : State) (p d k : Nat) (x : Pane) : (s.setPane p d k x).i3cAddr = s.i3cAddr := rfl
@[simp] theorem State.setPane_ibien (s : State) (p d k : Nat) (x : Pane) : (s.setPane p d k x).ibien = s.ibien := rfl
@[simp] theorem State.setPane_hellos (s : State) (p d k : Nat) (x : Pane) : (s.setPane p d k x).hellos = s.hellos := rfl
@[simp] theorem State.setPane_carve (s : State) (p d k : Nat) (x : Pane) : (s.setPane p d k x).carve = s.carve := rfl

/-! ### setTrim -/

@[simp] theorem State.setTrim_pending (s : State) (p e : Nat) (x : Trim) : (s.setTrim p e x).pending = s.pending := rfl
@[simp] theorem State.setTrim_tick (s : State) (p e : Nat) (x : Trim) : (s.setTrim p e x).tick = s.tick := rfl
@[simp] theorem State.setTrim_free (s : State) (p e : Nat) (x : Trim) : (s.setTrim p e x).free = s.free := rfl
@[simp] theorem State.setTrim_draws (s : State) (p e : Nat) (x : Trim) : (s.setTrim p e x).draws = s.draws := rfl
@[simp] theorem State.setTrim_outbox (s : State) (p e : Nat) (x : Trim) : (s.setTrim p e x).outbox = s.outbox := rfl
@[simp] theorem State.setTrim_ident (s : State) (p e : Nat) (x : Trim) : (s.setTrim p e x).ident = s.ident := rfl
@[simp] theorem State.setTrim_mem (s : State) (p e : Nat) (x : Trim) : (s.setTrim p e x).mem = s.mem := rfl
@[simp] theorem State.setTrim_poisoned (s : State) (p e : Nat) (x : Trim) : (s.setTrim p e x).poisoned = s.poisoned := rfl
@[simp] theorem State.setTrim_grad (s : State) (p e : Nat) (x : Trim) : (s.setTrim p e x).grad = s.grad := rfl
@[simp] theorem State.setTrim_panes (s : State) (p e : Nat) (x : Trim) : (s.setTrim p e x).panes = s.panes := rfl
@[simp] theorem State.setTrim_masts (s : State) (p e : Nat) (x : Trim) : (s.setTrim p e x).masts = s.masts := rfl
@[simp] theorem State.setTrim_parts (s : State) (p e : Nat) (x : Trim) : (s.setTrim p e x).parts = s.parts := rfl
@[simp] theorem State.setTrim_lines (s : State) (p e : Nat) (x : Trim) : (s.setTrim p e x).lines = s.lines := rfl
@[simp] theorem State.setTrim_uses (s : State) (p e : Nat) (x : Trim) : (s.setTrim p e x).uses = s.uses := rfl
@[simp] theorem State.setTrim_directory (s : State) (p e : Nat) (x : Trim) : (s.setTrim p e x).directory = s.directory := rfl
@[simp] theorem State.setTrim_trackers (s : State) (p e : Nat) (x : Trim) : (s.setTrim p e x).trackers = s.trackers := rfl
@[simp] theorem State.setTrim_streams (s : State) (p e : Nat) (x : Trim) : (s.setTrim p e x).streams = s.streams := rfl
@[simp] theorem State.setTrim_openRows (s : State) (p e : Nat) (x : Trim) : (s.setTrim p e x).openRows = s.openRows := rfl
@[simp] theorem State.setTrim_heldReqs (s : State) (p e : Nat) (x : Trim) : (s.setTrim p e x).heldReqs = s.heldReqs := rfl
@[simp] theorem State.setTrim_hot (s : State) (p e : Nat) (x : Trim) : (s.setTrim p e x).hot = s.hot := rfl
@[simp] theorem State.setTrim_hotSince (s : State) (p e : Nat) (x : Trim) : (s.setTrim p e x).hotSince = s.hotSince := rfl
@[simp] theorem State.setTrim_hbm (s : State) (p e : Nat) (x : Trim) : (s.setTrim p e x).hbm = s.hbm := rfl
@[simp] theorem State.setTrim_lantern (s : State) (p e : Nat) (x : Trim) : (s.setTrim p e x).lantern = s.lantern := rfl
@[simp] theorem State.setTrim_silent (s : State) (p e : Nat) (x : Trim) : (s.setTrim p e x).silent = s.silent := rfl
@[simp] theorem State.setTrim_dict (s : State) (p e : Nat) (x : Trim) : (s.setTrim p e x).dict = s.dict := rfl
@[simp] theorem State.setTrim_snaps (s : State) (p e : Nat) (x : Trim) : (s.setTrim p e x).snaps = s.snaps := rfl
@[simp] theorem State.setTrim_snapRing (s : State) (p e : Nat) (x : Trim) : (s.setTrim p e x).snapRing = s.snapRing := rfl
@[simp] theorem State.setTrim_writes (s : State) (p e : Nat) (x : Trim) : (s.setTrim p e x).writes = s.writes := rfl
@[simp] theorem State.setTrim_rings (s : State) (p e : Nat) (x : Trim) : (s.setTrim p e x).rings = s.rings := rfl
@[simp] theorem State.setTrim_limits (s : State) (p e : Nat) (x : Trim) : (s.setTrim p e x).limits = s.limits := rfl
@[simp] theorem State.setTrim_sessions (s : State) (p e : Nat) (x : Trim) : (s.setTrim p e x).sessions = s.sessions := rfl
@[simp] theorem State.setTrim_stagers (s : State) (p e : Nat) (x : Trim) : (s.setTrim p e x).stagers = s.stagers := rfl
@[simp] theorem State.setTrim_commits (s : State) (p e : Nat) (x : Trim) : (s.setTrim p e x).commits = s.commits := rfl
@[simp] theorem State.setTrim_commitNum (s : State) (p e : Nat) (x : Trim) : (s.setTrim p e x).commitNum = s.commitNum := rfl
@[simp] theorem State.setTrim_deferred (s : State) (p e : Nat) (x : Trim) : (s.setTrim p e x).deferred = s.deferred := rfl
@[simp] theorem State.setTrim_accepted (s : State) (p e : Nat) (x : Trim) : (s.setTrim p e x).accepted = s.accepted := rfl
@[simp] theorem State.setTrim_plans (s : State) (p e : Nat) (x : Trim) : (s.setTrim p e x).plans = s.plans := rfl
@[simp] theorem State.setTrim_holds (s : State) (p e : Nat) (x : Trim) : (s.setTrim p e x).holds = s.holds := rfl
@[simp] theorem State.setTrim_holdNum (s : State) (p e : Nat) (x : Trim) : (s.setTrim p e x).holdNum = s.holdNum := rfl
@[simp] theorem State.setTrim_sent (s : State) (p e : Nat) (x : Trim) : (s.setTrim p e x).sent = s.sent := rfl
@[simp] theorem State.setTrim_sentNum (s : State) (p e : Nat) (x : Trim) : (s.setTrim p e x).sentNum = s.sentNum := rfl
@[simp] theorem State.setTrim_ports (s : State) (p e : Nat) (x : Trim) : (s.setTrim p e x).ports = s.ports := rfl
@[simp] theorem State.setTrim_heard (s : State) (p e : Nat) (x : Trim) : (s.setTrim p e x).heard = s.heard := rfl
@[simp] theorem State.setTrim_remote (s : State) (p e : Nat) (x : Trim) : (s.setTrim p e x).remote = s.remote := rfl
@[simp] theorem State.setTrim_remoteNum (s : State) (p e : Nat) (x : Trim) : (s.setTrim p e x).remoteNum = s.remoteNum := rfl
@[simp] theorem State.setTrim_rats (s : State) (p e : Nat) (x : Trim) : (s.setTrim p e x).rats = s.rats := rfl
@[simp] theorem State.setTrim_flows (s : State) (p e : Nat) (x : Trim) : (s.setTrim p e x).flows = s.flows := rfl
@[simp] theorem State.setTrim_bondSince (s : State) (p e : Nat) (x : Trim) : (s.setTrim p e x).bondSince = s.bondSince := rfl
@[simp] theorem State.setTrim_coreLoads (s : State) (p e : Nat) (x : Trim) : (s.setTrim p e x).coreLoads = s.coreLoads := rfl
@[simp] theorem State.setTrim_mailSlots (s : State) (p e : Nat) (x : Trim) : (s.setTrim p e x).mailSlots = s.mailSlots := rfl
@[simp] theorem State.setTrim_mailbox (s : State) (p e : Nat) (x : Trim) : (s.setTrim p e x).mailbox = s.mailbox := rfl
@[simp] theorem State.setTrim_peerMail (s : State) (p e : Nat) (x : Trim) : (s.setTrim p e x).peerMail = s.peerMail := rfl
@[simp] theorem State.setTrim_resets (s : State) (p e : Nat) (x : Trim) : (s.setTrim p e x).resets = s.resets := rfl
@[simp] theorem State.setTrim_grants (s : State) (p e : Nat) (x : Trim) : (s.setTrim p e x).grants = s.grants := rfl
@[simp] theorem State.setTrim_domains (s : State) (p e : Nat) (x : Trim) : (s.setTrim p e x).domains = s.domains := rfl
@[simp] theorem State.setTrim_power (s : State) (p e : Nat) (x : Trim) : (s.setTrim p e x).power = s.power := rfl
@[simp] theorem State.setTrim_fw (s : State) (p e : Nat) (x : Trim) : (s.setTrim p e x).fw = s.fw := rfl
@[simp] theorem State.setTrim_mgmtRate (s : State) (p e : Nat) (x : Trim) : (s.setTrim p e x).mgmtRate = s.mgmtRate := rfl
@[simp] theorem State.setTrim_mgmtSince (s : State) (p e : Nat) (x : Trim) : (s.setTrim p e x).mgmtSince = s.mgmtSince := rfl
@[simp] theorem State.setTrim_i3cAddr (s : State) (p e : Nat) (x : Trim) : (s.setTrim p e x).i3cAddr = s.i3cAddr := rfl
@[simp] theorem State.setTrim_ibien (s : State) (p e : Nat) (x : Trim) : (s.setTrim p e x).ibien = s.ibien := rfl
@[simp] theorem State.setTrim_hellos (s : State) (p e : Nat) (x : Trim) : (s.setTrim p e x).hellos = s.hellos := rfl
@[simp] theorem State.setTrim_carve (s : State) (p e : Nat) (x : Trim) : (s.setTrim p e x).carve = s.carve := rfl

/-! ### setStager -/

@[simp] theorem State.setStager_pending (s : State) (i : Nat) (x : Stager) : (s.setStager i x).pending = s.pending := rfl
@[simp] theorem State.setStager_tick (s : State) (i : Nat) (x : Stager) : (s.setStager i x).tick = s.tick := rfl
@[simp] theorem State.setStager_free (s : State) (i : Nat) (x : Stager) : (s.setStager i x).free = s.free := rfl
@[simp] theorem State.setStager_draws (s : State) (i : Nat) (x : Stager) : (s.setStager i x).draws = s.draws := rfl
@[simp] theorem State.setStager_outbox (s : State) (i : Nat) (x : Stager) : (s.setStager i x).outbox = s.outbox := rfl
@[simp] theorem State.setStager_ident (s : State) (i : Nat) (x : Stager) : (s.setStager i x).ident = s.ident := rfl
@[simp] theorem State.setStager_mem (s : State) (i : Nat) (x : Stager) : (s.setStager i x).mem = s.mem := rfl
@[simp] theorem State.setStager_poisoned (s : State) (i : Nat) (x : Stager) : (s.setStager i x).poisoned = s.poisoned := rfl
@[simp] theorem State.setStager_grad (s : State) (i : Nat) (x : Stager) : (s.setStager i x).grad = s.grad := rfl
@[simp] theorem State.setStager_panes (s : State) (i : Nat) (x : Stager) : (s.setStager i x).panes = s.panes := rfl
@[simp] theorem State.setStager_trims (s : State) (i : Nat) (x : Stager) : (s.setStager i x).trims = s.trims := rfl
@[simp] theorem State.setStager_masts (s : State) (i : Nat) (x : Stager) : (s.setStager i x).masts = s.masts := rfl
@[simp] theorem State.setStager_parts (s : State) (i : Nat) (x : Stager) : (s.setStager i x).parts = s.parts := rfl
@[simp] theorem State.setStager_lines (s : State) (i : Nat) (x : Stager) : (s.setStager i x).lines = s.lines := rfl
@[simp] theorem State.setStager_uses (s : State) (i : Nat) (x : Stager) : (s.setStager i x).uses = s.uses := rfl
@[simp] theorem State.setStager_directory (s : State) (i : Nat) (x : Stager) : (s.setStager i x).directory = s.directory := rfl
@[simp] theorem State.setStager_trackers (s : State) (i : Nat) (x : Stager) : (s.setStager i x).trackers = s.trackers := rfl
@[simp] theorem State.setStager_streams (s : State) (i : Nat) (x : Stager) : (s.setStager i x).streams = s.streams := rfl
@[simp] theorem State.setStager_openRows (s : State) (i : Nat) (x : Stager) : (s.setStager i x).openRows = s.openRows := rfl
@[simp] theorem State.setStager_heldReqs (s : State) (i : Nat) (x : Stager) : (s.setStager i x).heldReqs = s.heldReqs := rfl
@[simp] theorem State.setStager_hot (s : State) (i : Nat) (x : Stager) : (s.setStager i x).hot = s.hot := rfl
@[simp] theorem State.setStager_hotSince (s : State) (i : Nat) (x : Stager) : (s.setStager i x).hotSince = s.hotSince := rfl
@[simp] theorem State.setStager_hbm (s : State) (i : Nat) (x : Stager) : (s.setStager i x).hbm = s.hbm := rfl
@[simp] theorem State.setStager_lantern (s : State) (i : Nat) (x : Stager) : (s.setStager i x).lantern = s.lantern := rfl
@[simp] theorem State.setStager_silent (s : State) (i : Nat) (x : Stager) : (s.setStager i x).silent = s.silent := rfl
@[simp] theorem State.setStager_dict (s : State) (i : Nat) (x : Stager) : (s.setStager i x).dict = s.dict := rfl
@[simp] theorem State.setStager_snaps (s : State) (i : Nat) (x : Stager) : (s.setStager i x).snaps = s.snaps := rfl
@[simp] theorem State.setStager_snapRing (s : State) (i : Nat) (x : Stager) : (s.setStager i x).snapRing = s.snapRing := rfl
@[simp] theorem State.setStager_writes (s : State) (i : Nat) (x : Stager) : (s.setStager i x).writes = s.writes := rfl
@[simp] theorem State.setStager_rings (s : State) (i : Nat) (x : Stager) : (s.setStager i x).rings = s.rings := rfl
@[simp] theorem State.setStager_limits (s : State) (i : Nat) (x : Stager) : (s.setStager i x).limits = s.limits := rfl
@[simp] theorem State.setStager_sessions (s : State) (i : Nat) (x : Stager) : (s.setStager i x).sessions = s.sessions := rfl
@[simp] theorem State.setStager_commits (s : State) (i : Nat) (x : Stager) : (s.setStager i x).commits = s.commits := rfl
@[simp] theorem State.setStager_commitNum (s : State) (i : Nat) (x : Stager) : (s.setStager i x).commitNum = s.commitNum := rfl
@[simp] theorem State.setStager_deferred (s : State) (i : Nat) (x : Stager) : (s.setStager i x).deferred = s.deferred := rfl
@[simp] theorem State.setStager_accepted (s : State) (i : Nat) (x : Stager) : (s.setStager i x).accepted = s.accepted := rfl
@[simp] theorem State.setStager_plans (s : State) (i : Nat) (x : Stager) : (s.setStager i x).plans = s.plans := rfl
@[simp] theorem State.setStager_holds (s : State) (i : Nat) (x : Stager) : (s.setStager i x).holds = s.holds := rfl
@[simp] theorem State.setStager_holdNum (s : State) (i : Nat) (x : Stager) : (s.setStager i x).holdNum = s.holdNum := rfl
@[simp] theorem State.setStager_sent (s : State) (i : Nat) (x : Stager) : (s.setStager i x).sent = s.sent := rfl
@[simp] theorem State.setStager_sentNum (s : State) (i : Nat) (x : Stager) : (s.setStager i x).sentNum = s.sentNum := rfl
@[simp] theorem State.setStager_ports (s : State) (i : Nat) (x : Stager) : (s.setStager i x).ports = s.ports := rfl
@[simp] theorem State.setStager_heard (s : State) (i : Nat) (x : Stager) : (s.setStager i x).heard = s.heard := rfl
@[simp] theorem State.setStager_remote (s : State) (i : Nat) (x : Stager) : (s.setStager i x).remote = s.remote := rfl
@[simp] theorem State.setStager_remoteNum (s : State) (i : Nat) (x : Stager) : (s.setStager i x).remoteNum = s.remoteNum := rfl
@[simp] theorem State.setStager_rats (s : State) (i : Nat) (x : Stager) : (s.setStager i x).rats = s.rats := rfl
@[simp] theorem State.setStager_flows (s : State) (i : Nat) (x : Stager) : (s.setStager i x).flows = s.flows := rfl
@[simp] theorem State.setStager_bondSince (s : State) (i : Nat) (x : Stager) : (s.setStager i x).bondSince = s.bondSince := rfl
@[simp] theorem State.setStager_coreLoads (s : State) (i : Nat) (x : Stager) : (s.setStager i x).coreLoads = s.coreLoads := rfl
@[simp] theorem State.setStager_mailSlots (s : State) (i : Nat) (x : Stager) : (s.setStager i x).mailSlots = s.mailSlots := rfl
@[simp] theorem State.setStager_mailbox (s : State) (i : Nat) (x : Stager) : (s.setStager i x).mailbox = s.mailbox := rfl
@[simp] theorem State.setStager_peerMail (s : State) (i : Nat) (x : Stager) : (s.setStager i x).peerMail = s.peerMail := rfl
@[simp] theorem State.setStager_resets (s : State) (i : Nat) (x : Stager) : (s.setStager i x).resets = s.resets := rfl
@[simp] theorem State.setStager_grants (s : State) (i : Nat) (x : Stager) : (s.setStager i x).grants = s.grants := rfl
@[simp] theorem State.setStager_domains (s : State) (i : Nat) (x : Stager) : (s.setStager i x).domains = s.domains := rfl
@[simp] theorem State.setStager_power (s : State) (i : Nat) (x : Stager) : (s.setStager i x).power = s.power := rfl
@[simp] theorem State.setStager_fw (s : State) (i : Nat) (x : Stager) : (s.setStager i x).fw = s.fw := rfl
@[simp] theorem State.setStager_mgmtRate (s : State) (i : Nat) (x : Stager) : (s.setStager i x).mgmtRate = s.mgmtRate := rfl
@[simp] theorem State.setStager_mgmtSince (s : State) (i : Nat) (x : Stager) : (s.setStager i x).mgmtSince = s.mgmtSince := rfl
@[simp] theorem State.setStager_i3cAddr (s : State) (i : Nat) (x : Stager) : (s.setStager i x).i3cAddr = s.i3cAddr := rfl
@[simp] theorem State.setStager_ibien (s : State) (i : Nat) (x : Stager) : (s.setStager i x).ibien = s.ibien := rfl
@[simp] theorem State.setStager_hellos (s : State) (i : Nat) (x : Stager) : (s.setStager i x).hellos = s.hellos := rfl
@[simp] theorem State.setStager_carve (s : State) (i : Nat) (x : Stager) : (s.setStager i x).carve = s.carve := rfl

/-! ### setDir -/

@[simp] theorem State.setDir_pending (s : State) (l : Nat) (x : DirEntry) : (s.setDir l x).pending = s.pending := rfl
@[simp] theorem State.setDir_tick (s : State) (l : Nat) (x : DirEntry) : (s.setDir l x).tick = s.tick := rfl
@[simp] theorem State.setDir_free (s : State) (l : Nat) (x : DirEntry) : (s.setDir l x).free = s.free := rfl
@[simp] theorem State.setDir_draws (s : State) (l : Nat) (x : DirEntry) : (s.setDir l x).draws = s.draws := rfl
@[simp] theorem State.setDir_outbox (s : State) (l : Nat) (x : DirEntry) : (s.setDir l x).outbox = s.outbox := rfl
@[simp] theorem State.setDir_ident (s : State) (l : Nat) (x : DirEntry) : (s.setDir l x).ident = s.ident := rfl
@[simp] theorem State.setDir_mem (s : State) (l : Nat) (x : DirEntry) : (s.setDir l x).mem = s.mem := rfl
@[simp] theorem State.setDir_poisoned (s : State) (l : Nat) (x : DirEntry) : (s.setDir l x).poisoned = s.poisoned := rfl
@[simp] theorem State.setDir_grad (s : State) (l : Nat) (x : DirEntry) : (s.setDir l x).grad = s.grad := rfl
@[simp] theorem State.setDir_panes (s : State) (l : Nat) (x : DirEntry) : (s.setDir l x).panes = s.panes := rfl
@[simp] theorem State.setDir_trims (s : State) (l : Nat) (x : DirEntry) : (s.setDir l x).trims = s.trims := rfl
@[simp] theorem State.setDir_masts (s : State) (l : Nat) (x : DirEntry) : (s.setDir l x).masts = s.masts := rfl
@[simp] theorem State.setDir_parts (s : State) (l : Nat) (x : DirEntry) : (s.setDir l x).parts = s.parts := rfl
@[simp] theorem State.setDir_lines (s : State) (l : Nat) (x : DirEntry) : (s.setDir l x).lines = s.lines := rfl
@[simp] theorem State.setDir_uses (s : State) (l : Nat) (x : DirEntry) : (s.setDir l x).uses = s.uses := rfl
@[simp] theorem State.setDir_trackers (s : State) (l : Nat) (x : DirEntry) : (s.setDir l x).trackers = s.trackers := rfl
@[simp] theorem State.setDir_streams (s : State) (l : Nat) (x : DirEntry) : (s.setDir l x).streams = s.streams := rfl
@[simp] theorem State.setDir_openRows (s : State) (l : Nat) (x : DirEntry) : (s.setDir l x).openRows = s.openRows := rfl
@[simp] theorem State.setDir_heldReqs (s : State) (l : Nat) (x : DirEntry) : (s.setDir l x).heldReqs = s.heldReqs := rfl
@[simp] theorem State.setDir_hot (s : State) (l : Nat) (x : DirEntry) : (s.setDir l x).hot = s.hot := rfl
@[simp] theorem State.setDir_hotSince (s : State) (l : Nat) (x : DirEntry) : (s.setDir l x).hotSince = s.hotSince := rfl
@[simp] theorem State.setDir_hbm (s : State) (l : Nat) (x : DirEntry) : (s.setDir l x).hbm = s.hbm := rfl
@[simp] theorem State.setDir_lantern (s : State) (l : Nat) (x : DirEntry) : (s.setDir l x).lantern = s.lantern := rfl
@[simp] theorem State.setDir_silent (s : State) (l : Nat) (x : DirEntry) : (s.setDir l x).silent = s.silent := rfl
@[simp] theorem State.setDir_dict (s : State) (l : Nat) (x : DirEntry) : (s.setDir l x).dict = s.dict := rfl
@[simp] theorem State.setDir_snaps (s : State) (l : Nat) (x : DirEntry) : (s.setDir l x).snaps = s.snaps := rfl
@[simp] theorem State.setDir_snapRing (s : State) (l : Nat) (x : DirEntry) : (s.setDir l x).snapRing = s.snapRing := rfl
@[simp] theorem State.setDir_writes (s : State) (l : Nat) (x : DirEntry) : (s.setDir l x).writes = s.writes := rfl
@[simp] theorem State.setDir_rings (s : State) (l : Nat) (x : DirEntry) : (s.setDir l x).rings = s.rings := rfl
@[simp] theorem State.setDir_limits (s : State) (l : Nat) (x : DirEntry) : (s.setDir l x).limits = s.limits := rfl
@[simp] theorem State.setDir_sessions (s : State) (l : Nat) (x : DirEntry) : (s.setDir l x).sessions = s.sessions := rfl
@[simp] theorem State.setDir_stagers (s : State) (l : Nat) (x : DirEntry) : (s.setDir l x).stagers = s.stagers := rfl
@[simp] theorem State.setDir_commits (s : State) (l : Nat) (x : DirEntry) : (s.setDir l x).commits = s.commits := rfl
@[simp] theorem State.setDir_commitNum (s : State) (l : Nat) (x : DirEntry) : (s.setDir l x).commitNum = s.commitNum := rfl
@[simp] theorem State.setDir_deferred (s : State) (l : Nat) (x : DirEntry) : (s.setDir l x).deferred = s.deferred := rfl
@[simp] theorem State.setDir_accepted (s : State) (l : Nat) (x : DirEntry) : (s.setDir l x).accepted = s.accepted := rfl
@[simp] theorem State.setDir_plans (s : State) (l : Nat) (x : DirEntry) : (s.setDir l x).plans = s.plans := rfl
@[simp] theorem State.setDir_holds (s : State) (l : Nat) (x : DirEntry) : (s.setDir l x).holds = s.holds := rfl
@[simp] theorem State.setDir_holdNum (s : State) (l : Nat) (x : DirEntry) : (s.setDir l x).holdNum = s.holdNum := rfl
@[simp] theorem State.setDir_sent (s : State) (l : Nat) (x : DirEntry) : (s.setDir l x).sent = s.sent := rfl
@[simp] theorem State.setDir_sentNum (s : State) (l : Nat) (x : DirEntry) : (s.setDir l x).sentNum = s.sentNum := rfl
@[simp] theorem State.setDir_ports (s : State) (l : Nat) (x : DirEntry) : (s.setDir l x).ports = s.ports := rfl
@[simp] theorem State.setDir_heard (s : State) (l : Nat) (x : DirEntry) : (s.setDir l x).heard = s.heard := rfl
@[simp] theorem State.setDir_remote (s : State) (l : Nat) (x : DirEntry) : (s.setDir l x).remote = s.remote := rfl
@[simp] theorem State.setDir_remoteNum (s : State) (l : Nat) (x : DirEntry) : (s.setDir l x).remoteNum = s.remoteNum := rfl
@[simp] theorem State.setDir_rats (s : State) (l : Nat) (x : DirEntry) : (s.setDir l x).rats = s.rats := rfl
@[simp] theorem State.setDir_flows (s : State) (l : Nat) (x : DirEntry) : (s.setDir l x).flows = s.flows := rfl
@[simp] theorem State.setDir_bondSince (s : State) (l : Nat) (x : DirEntry) : (s.setDir l x).bondSince = s.bondSince := rfl
@[simp] theorem State.setDir_coreLoads (s : State) (l : Nat) (x : DirEntry) : (s.setDir l x).coreLoads = s.coreLoads := rfl
@[simp] theorem State.setDir_mailSlots (s : State) (l : Nat) (x : DirEntry) : (s.setDir l x).mailSlots = s.mailSlots := rfl
@[simp] theorem State.setDir_mailbox (s : State) (l : Nat) (x : DirEntry) : (s.setDir l x).mailbox = s.mailbox := rfl
@[simp] theorem State.setDir_peerMail (s : State) (l : Nat) (x : DirEntry) : (s.setDir l x).peerMail = s.peerMail := rfl
@[simp] theorem State.setDir_resets (s : State) (l : Nat) (x : DirEntry) : (s.setDir l x).resets = s.resets := rfl
@[simp] theorem State.setDir_grants (s : State) (l : Nat) (x : DirEntry) : (s.setDir l x).grants = s.grants := rfl
@[simp] theorem State.setDir_domains (s : State) (l : Nat) (x : DirEntry) : (s.setDir l x).domains = s.domains := rfl
@[simp] theorem State.setDir_power (s : State) (l : Nat) (x : DirEntry) : (s.setDir l x).power = s.power := rfl
@[simp] theorem State.setDir_fw (s : State) (l : Nat) (x : DirEntry) : (s.setDir l x).fw = s.fw := rfl
@[simp] theorem State.setDir_mgmtRate (s : State) (l : Nat) (x : DirEntry) : (s.setDir l x).mgmtRate = s.mgmtRate := rfl
@[simp] theorem State.setDir_mgmtSince (s : State) (l : Nat) (x : DirEntry) : (s.setDir l x).mgmtSince = s.mgmtSince := rfl
@[simp] theorem State.setDir_i3cAddr (s : State) (l : Nat) (x : DirEntry) : (s.setDir l x).i3cAddr = s.i3cAddr := rfl
@[simp] theorem State.setDir_ibien (s : State) (l : Nat) (x : DirEntry) : (s.setDir l x).ibien = s.ibien := rfl
@[simp] theorem State.setDir_hellos (s : State) (l : Nat) (x : DirEntry) : (s.setDir l x).hellos = s.hellos := rfl
@[simp] theorem State.setDir_carve (s : State) (l : Nat) (x : DirEntry) : (s.setDir l x).carve = s.carve := rfl

/-! ### setLine -/

@[simp] theorem State.setLine_pending (s : State) (g l : Nat) (x : Line) : (s.setLine g l x).pending = s.pending := rfl
@[simp] theorem State.setLine_tick (s : State) (g l : Nat) (x : Line) : (s.setLine g l x).tick = s.tick := rfl
@[simp] theorem State.setLine_free (s : State) (g l : Nat) (x : Line) : (s.setLine g l x).free = s.free := rfl
@[simp] theorem State.setLine_draws (s : State) (g l : Nat) (x : Line) : (s.setLine g l x).draws = s.draws := rfl
@[simp] theorem State.setLine_outbox (s : State) (g l : Nat) (x : Line) : (s.setLine g l x).outbox = s.outbox := rfl
@[simp] theorem State.setLine_ident (s : State) (g l : Nat) (x : Line) : (s.setLine g l x).ident = s.ident := rfl
@[simp] theorem State.setLine_mem (s : State) (g l : Nat) (x : Line) : (s.setLine g l x).mem = s.mem := rfl
@[simp] theorem State.setLine_poisoned (s : State) (g l : Nat) (x : Line) : (s.setLine g l x).poisoned = s.poisoned := rfl
@[simp] theorem State.setLine_grad (s : State) (g l : Nat) (x : Line) : (s.setLine g l x).grad = s.grad := rfl
@[simp] theorem State.setLine_panes (s : State) (g l : Nat) (x : Line) : (s.setLine g l x).panes = s.panes := rfl
@[simp] theorem State.setLine_trims (s : State) (g l : Nat) (x : Line) : (s.setLine g l x).trims = s.trims := rfl
@[simp] theorem State.setLine_masts (s : State) (g l : Nat) (x : Line) : (s.setLine g l x).masts = s.masts := rfl
@[simp] theorem State.setLine_parts (s : State) (g l : Nat) (x : Line) : (s.setLine g l x).parts = s.parts := rfl
@[simp] theorem State.setLine_uses (s : State) (g l : Nat) (x : Line) : (s.setLine g l x).uses = s.uses := rfl
@[simp] theorem State.setLine_directory (s : State) (g l : Nat) (x : Line) : (s.setLine g l x).directory = s.directory := rfl
@[simp] theorem State.setLine_trackers (s : State) (g l : Nat) (x : Line) : (s.setLine g l x).trackers = s.trackers := rfl
@[simp] theorem State.setLine_streams (s : State) (g l : Nat) (x : Line) : (s.setLine g l x).streams = s.streams := rfl
@[simp] theorem State.setLine_openRows (s : State) (g l : Nat) (x : Line) : (s.setLine g l x).openRows = s.openRows := rfl
@[simp] theorem State.setLine_heldReqs (s : State) (g l : Nat) (x : Line) : (s.setLine g l x).heldReqs = s.heldReqs := rfl
@[simp] theorem State.setLine_hot (s : State) (g l : Nat) (x : Line) : (s.setLine g l x).hot = s.hot := rfl
@[simp] theorem State.setLine_hotSince (s : State) (g l : Nat) (x : Line) : (s.setLine g l x).hotSince = s.hotSince := rfl
@[simp] theorem State.setLine_hbm (s : State) (g l : Nat) (x : Line) : (s.setLine g l x).hbm = s.hbm := rfl
@[simp] theorem State.setLine_lantern (s : State) (g l : Nat) (x : Line) : (s.setLine g l x).lantern = s.lantern := rfl
@[simp] theorem State.setLine_silent (s : State) (g l : Nat) (x : Line) : (s.setLine g l x).silent = s.silent := rfl
@[simp] theorem State.setLine_dict (s : State) (g l : Nat) (x : Line) : (s.setLine g l x).dict = s.dict := rfl
@[simp] theorem State.setLine_snaps (s : State) (g l : Nat) (x : Line) : (s.setLine g l x).snaps = s.snaps := rfl
@[simp] theorem State.setLine_snapRing (s : State) (g l : Nat) (x : Line) : (s.setLine g l x).snapRing = s.snapRing := rfl
@[simp] theorem State.setLine_writes (s : State) (g l : Nat) (x : Line) : (s.setLine g l x).writes = s.writes := rfl
@[simp] theorem State.setLine_rings (s : State) (g l : Nat) (x : Line) : (s.setLine g l x).rings = s.rings := rfl
@[simp] theorem State.setLine_limits (s : State) (g l : Nat) (x : Line) : (s.setLine g l x).limits = s.limits := rfl
@[simp] theorem State.setLine_sessions (s : State) (g l : Nat) (x : Line) : (s.setLine g l x).sessions = s.sessions := rfl
@[simp] theorem State.setLine_stagers (s : State) (g l : Nat) (x : Line) : (s.setLine g l x).stagers = s.stagers := rfl
@[simp] theorem State.setLine_commits (s : State) (g l : Nat) (x : Line) : (s.setLine g l x).commits = s.commits := rfl
@[simp] theorem State.setLine_commitNum (s : State) (g l : Nat) (x : Line) : (s.setLine g l x).commitNum = s.commitNum := rfl
@[simp] theorem State.setLine_deferred (s : State) (g l : Nat) (x : Line) : (s.setLine g l x).deferred = s.deferred := rfl
@[simp] theorem State.setLine_accepted (s : State) (g l : Nat) (x : Line) : (s.setLine g l x).accepted = s.accepted := rfl
@[simp] theorem State.setLine_plans (s : State) (g l : Nat) (x : Line) : (s.setLine g l x).plans = s.plans := rfl
@[simp] theorem State.setLine_holds (s : State) (g l : Nat) (x : Line) : (s.setLine g l x).holds = s.holds := rfl
@[simp] theorem State.setLine_holdNum (s : State) (g l : Nat) (x : Line) : (s.setLine g l x).holdNum = s.holdNum := rfl
@[simp] theorem State.setLine_sent (s : State) (g l : Nat) (x : Line) : (s.setLine g l x).sent = s.sent := rfl
@[simp] theorem State.setLine_sentNum (s : State) (g l : Nat) (x : Line) : (s.setLine g l x).sentNum = s.sentNum := rfl
@[simp] theorem State.setLine_ports (s : State) (g l : Nat) (x : Line) : (s.setLine g l x).ports = s.ports := rfl
@[simp] theorem State.setLine_heard (s : State) (g l : Nat) (x : Line) : (s.setLine g l x).heard = s.heard := rfl
@[simp] theorem State.setLine_remote (s : State) (g l : Nat) (x : Line) : (s.setLine g l x).remote = s.remote := rfl
@[simp] theorem State.setLine_remoteNum (s : State) (g l : Nat) (x : Line) : (s.setLine g l x).remoteNum = s.remoteNum := rfl
@[simp] theorem State.setLine_rats (s : State) (g l : Nat) (x : Line) : (s.setLine g l x).rats = s.rats := rfl
@[simp] theorem State.setLine_flows (s : State) (g l : Nat) (x : Line) : (s.setLine g l x).flows = s.flows := rfl
@[simp] theorem State.setLine_bondSince (s : State) (g l : Nat) (x : Line) : (s.setLine g l x).bondSince = s.bondSince := rfl
@[simp] theorem State.setLine_coreLoads (s : State) (g l : Nat) (x : Line) : (s.setLine g l x).coreLoads = s.coreLoads := rfl
@[simp] theorem State.setLine_mailSlots (s : State) (g l : Nat) (x : Line) : (s.setLine g l x).mailSlots = s.mailSlots := rfl
@[simp] theorem State.setLine_mailbox (s : State) (g l : Nat) (x : Line) : (s.setLine g l x).mailbox = s.mailbox := rfl
@[simp] theorem State.setLine_peerMail (s : State) (g l : Nat) (x : Line) : (s.setLine g l x).peerMail = s.peerMail := rfl
@[simp] theorem State.setLine_resets (s : State) (g l : Nat) (x : Line) : (s.setLine g l x).resets = s.resets := rfl
@[simp] theorem State.setLine_grants (s : State) (g l : Nat) (x : Line) : (s.setLine g l x).grants = s.grants := rfl
@[simp] theorem State.setLine_domains (s : State) (g l : Nat) (x : Line) : (s.setLine g l x).domains = s.domains := rfl
@[simp] theorem State.setLine_power (s : State) (g l : Nat) (x : Line) : (s.setLine g l x).power = s.power := rfl
@[simp] theorem State.setLine_fw (s : State) (g l : Nat) (x : Line) : (s.setLine g l x).fw = s.fw := rfl
@[simp] theorem State.setLine_mgmtRate (s : State) (g l : Nat) (x : Line) : (s.setLine g l x).mgmtRate = s.mgmtRate := rfl
@[simp] theorem State.setLine_mgmtSince (s : State) (g l : Nat) (x : Line) : (s.setLine g l x).mgmtSince = s.mgmtSince := rfl
@[simp] theorem State.setLine_i3cAddr (s : State) (g l : Nat) (x : Line) : (s.setLine g l x).i3cAddr = s.i3cAddr := rfl
@[simp] theorem State.setLine_ibien (s : State) (g l : Nat) (x : Line) : (s.setLine g l x).ibien = s.ibien := rfl
@[simp] theorem State.setLine_hellos (s : State) (g l : Nat) (x : Line) : (s.setLine g l x).hellos = s.hellos := rfl
@[simp] theorem State.setLine_carve (s : State) (g l : Nat) (x : Line) : (s.setLine g l x).carve = s.carve := rfl

/-! ### open and draw -/

@[simp] theorem State.open_pending (s : State) (n : Nat) : (s.open n).2.pending = s.pending := rfl
@[simp] theorem State.open_tick (s : State) (n : Nat) : (s.open n).2.tick = s.tick := rfl
@[simp] theorem State.open_draws (s : State) (n : Nat) : (s.open n).2.draws = s.draws := rfl
@[simp] theorem State.open_outbox (s : State) (n : Nat) : (s.open n).2.outbox = s.outbox := rfl
@[simp] theorem State.open_ident (s : State) (n : Nat) : (s.open n).2.ident = s.ident := rfl
@[simp] theorem State.open_mem (s : State) (n : Nat) : (s.open n).2.mem = s.mem := rfl
@[simp] theorem State.open_poisoned (s : State) (n : Nat) : (s.open n).2.poisoned = s.poisoned := rfl
@[simp] theorem State.open_grad (s : State) (n : Nat) : (s.open n).2.grad = s.grad := rfl
@[simp] theorem State.open_panes (s : State) (n : Nat) : (s.open n).2.panes = s.panes := rfl
@[simp] theorem State.open_trims (s : State) (n : Nat) : (s.open n).2.trims = s.trims := rfl
@[simp] theorem State.open_masts (s : State) (n : Nat) : (s.open n).2.masts = s.masts := rfl
@[simp] theorem State.open_parts (s : State) (n : Nat) : (s.open n).2.parts = s.parts := rfl
@[simp] theorem State.open_lines (s : State) (n : Nat) : (s.open n).2.lines = s.lines := rfl
@[simp] theorem State.open_uses (s : State) (n : Nat) : (s.open n).2.uses = s.uses := rfl
@[simp] theorem State.open_directory (s : State) (n : Nat) : (s.open n).2.directory = s.directory := rfl
@[simp] theorem State.open_trackers (s : State) (n : Nat) : (s.open n).2.trackers = s.trackers := rfl
@[simp] theorem State.open_streams (s : State) (n : Nat) : (s.open n).2.streams = s.streams := rfl
@[simp] theorem State.open_openRows (s : State) (n : Nat) : (s.open n).2.openRows = s.openRows := rfl
@[simp] theorem State.open_heldReqs (s : State) (n : Nat) : (s.open n).2.heldReqs = s.heldReqs := rfl
@[simp] theorem State.open_hot (s : State) (n : Nat) : (s.open n).2.hot = s.hot := rfl
@[simp] theorem State.open_hotSince (s : State) (n : Nat) : (s.open n).2.hotSince = s.hotSince := rfl
@[simp] theorem State.open_hbm (s : State) (n : Nat) : (s.open n).2.hbm = s.hbm := rfl
@[simp] theorem State.open_lantern (s : State) (n : Nat) : (s.open n).2.lantern = s.lantern := rfl
@[simp] theorem State.open_silent (s : State) (n : Nat) : (s.open n).2.silent = s.silent := rfl
@[simp] theorem State.open_dict (s : State) (n : Nat) : (s.open n).2.dict = s.dict := rfl
@[simp] theorem State.open_snaps (s : State) (n : Nat) : (s.open n).2.snaps = s.snaps := rfl
@[simp] theorem State.open_snapRing (s : State) (n : Nat) : (s.open n).2.snapRing = s.snapRing := rfl
@[simp] theorem State.open_writes (s : State) (n : Nat) : (s.open n).2.writes = s.writes := rfl
@[simp] theorem State.open_rings (s : State) (n : Nat) : (s.open n).2.rings = s.rings := rfl
@[simp] theorem State.open_limits (s : State) (n : Nat) : (s.open n).2.limits = s.limits := rfl
@[simp] theorem State.open_sessions (s : State) (n : Nat) : (s.open n).2.sessions = s.sessions := rfl
@[simp] theorem State.open_stagers (s : State) (n : Nat) : (s.open n).2.stagers = s.stagers := rfl
@[simp] theorem State.open_commits (s : State) (n : Nat) : (s.open n).2.commits = s.commits := rfl
@[simp] theorem State.open_commitNum (s : State) (n : Nat) : (s.open n).2.commitNum = s.commitNum := rfl
@[simp] theorem State.open_deferred (s : State) (n : Nat) : (s.open n).2.deferred = s.deferred := rfl
@[simp] theorem State.open_accepted (s : State) (n : Nat) : (s.open n).2.accepted = s.accepted := rfl
@[simp] theorem State.open_plans (s : State) (n : Nat) : (s.open n).2.plans = s.plans := rfl
@[simp] theorem State.open_holds (s : State) (n : Nat) : (s.open n).2.holds = s.holds := rfl
@[simp] theorem State.open_holdNum (s : State) (n : Nat) : (s.open n).2.holdNum = s.holdNum := rfl
@[simp] theorem State.open_sent (s : State) (n : Nat) : (s.open n).2.sent = s.sent := rfl
@[simp] theorem State.open_sentNum (s : State) (n : Nat) : (s.open n).2.sentNum = s.sentNum := rfl
@[simp] theorem State.open_ports (s : State) (n : Nat) : (s.open n).2.ports = s.ports := rfl
@[simp] theorem State.open_heard (s : State) (n : Nat) : (s.open n).2.heard = s.heard := rfl
@[simp] theorem State.open_remote (s : State) (n : Nat) : (s.open n).2.remote = s.remote := rfl
@[simp] theorem State.open_remoteNum (s : State) (n : Nat) : (s.open n).2.remoteNum = s.remoteNum := rfl
@[simp] theorem State.open_rats (s : State) (n : Nat) : (s.open n).2.rats = s.rats := rfl
@[simp] theorem State.open_flows (s : State) (n : Nat) : (s.open n).2.flows = s.flows := rfl
@[simp] theorem State.open_bondSince (s : State) (n : Nat) : (s.open n).2.bondSince = s.bondSince := rfl
@[simp] theorem State.open_coreLoads (s : State) (n : Nat) : (s.open n).2.coreLoads = s.coreLoads := rfl
@[simp] theorem State.open_mailSlots (s : State) (n : Nat) : (s.open n).2.mailSlots = s.mailSlots := rfl
@[simp] theorem State.open_mailbox (s : State) (n : Nat) : (s.open n).2.mailbox = s.mailbox := rfl
@[simp] theorem State.open_peerMail (s : State) (n : Nat) : (s.open n).2.peerMail = s.peerMail := rfl
@[simp] theorem State.open_resets (s : State) (n : Nat) : (s.open n).2.resets = s.resets := rfl
@[simp] theorem State.open_grants (s : State) (n : Nat) : (s.open n).2.grants = s.grants := rfl
@[simp] theorem State.open_domains (s : State) (n : Nat) : (s.open n).2.domains = s.domains := rfl
@[simp] theorem State.open_power (s : State) (n : Nat) : (s.open n).2.power = s.power := rfl
@[simp] theorem State.open_fw (s : State) (n : Nat) : (s.open n).2.fw = s.fw := rfl
@[simp] theorem State.open_mgmtRate (s : State) (n : Nat) : (s.open n).2.mgmtRate = s.mgmtRate := rfl
@[simp] theorem State.open_mgmtSince (s : State) (n : Nat) : (s.open n).2.mgmtSince = s.mgmtSince := rfl
@[simp] theorem State.open_i3cAddr (s : State) (n : Nat) : (s.open n).2.i3cAddr = s.i3cAddr := rfl
@[simp] theorem State.open_ibien (s : State) (n : Nat) : (s.open n).2.ibien = s.ibien := rfl
@[simp] theorem State.open_hellos (s : State) (n : Nat) : (s.open n).2.hellos = s.hellos := rfl
@[simp] theorem State.open_carve (s : State) (n : Nat) : (s.open n).2.carve = s.carve := rfl

@[simp] theorem State.draw_pending (s : State) (n : Nat) : (s.draw n).2.pending = s.pending := rfl
@[simp] theorem State.draw_tick (s : State) (n : Nat) : (s.draw n).2.tick = s.tick := rfl
@[simp] theorem State.draw_free (s : State) (n : Nat) : (s.draw n).2.free = s.free := rfl
@[simp] theorem State.draw_outbox (s : State) (n : Nat) : (s.draw n).2.outbox = s.outbox := rfl
@[simp] theorem State.draw_ident (s : State) (n : Nat) : (s.draw n).2.ident = s.ident := rfl
@[simp] theorem State.draw_mem (s : State) (n : Nat) : (s.draw n).2.mem = s.mem := rfl
@[simp] theorem State.draw_poisoned (s : State) (n : Nat) : (s.draw n).2.poisoned = s.poisoned := rfl
@[simp] theorem State.draw_grad (s : State) (n : Nat) : (s.draw n).2.grad = s.grad := rfl
@[simp] theorem State.draw_panes (s : State) (n : Nat) : (s.draw n).2.panes = s.panes := rfl
@[simp] theorem State.draw_trims (s : State) (n : Nat) : (s.draw n).2.trims = s.trims := rfl
@[simp] theorem State.draw_masts (s : State) (n : Nat) : (s.draw n).2.masts = s.masts := rfl
@[simp] theorem State.draw_parts (s : State) (n : Nat) : (s.draw n).2.parts = s.parts := rfl
@[simp] theorem State.draw_lines (s : State) (n : Nat) : (s.draw n).2.lines = s.lines := rfl
@[simp] theorem State.draw_uses (s : State) (n : Nat) : (s.draw n).2.uses = s.uses := rfl
@[simp] theorem State.draw_directory (s : State) (n : Nat) : (s.draw n).2.directory = s.directory := rfl
@[simp] theorem State.draw_trackers (s : State) (n : Nat) : (s.draw n).2.trackers = s.trackers := rfl
@[simp] theorem State.draw_streams (s : State) (n : Nat) : (s.draw n).2.streams = s.streams := rfl
@[simp] theorem State.draw_openRows (s : State) (n : Nat) : (s.draw n).2.openRows = s.openRows := rfl
@[simp] theorem State.draw_heldReqs (s : State) (n : Nat) : (s.draw n).2.heldReqs = s.heldReqs := rfl
@[simp] theorem State.draw_hot (s : State) (n : Nat) : (s.draw n).2.hot = s.hot := rfl
@[simp] theorem State.draw_hotSince (s : State) (n : Nat) : (s.draw n).2.hotSince = s.hotSince := rfl
@[simp] theorem State.draw_hbm (s : State) (n : Nat) : (s.draw n).2.hbm = s.hbm := rfl
@[simp] theorem State.draw_lantern (s : State) (n : Nat) : (s.draw n).2.lantern = s.lantern := rfl
@[simp] theorem State.draw_silent (s : State) (n : Nat) : (s.draw n).2.silent = s.silent := rfl
@[simp] theorem State.draw_dict (s : State) (n : Nat) : (s.draw n).2.dict = s.dict := rfl
@[simp] theorem State.draw_snaps (s : State) (n : Nat) : (s.draw n).2.snaps = s.snaps := rfl
@[simp] theorem State.draw_snapRing (s : State) (n : Nat) : (s.draw n).2.snapRing = s.snapRing := rfl
@[simp] theorem State.draw_writes (s : State) (n : Nat) : (s.draw n).2.writes = s.writes := rfl
@[simp] theorem State.draw_rings (s : State) (n : Nat) : (s.draw n).2.rings = s.rings := rfl
@[simp] theorem State.draw_limits (s : State) (n : Nat) : (s.draw n).2.limits = s.limits := rfl
@[simp] theorem State.draw_sessions (s : State) (n : Nat) : (s.draw n).2.sessions = s.sessions := rfl
@[simp] theorem State.draw_stagers (s : State) (n : Nat) : (s.draw n).2.stagers = s.stagers := rfl
@[simp] theorem State.draw_commits (s : State) (n : Nat) : (s.draw n).2.commits = s.commits := rfl
@[simp] theorem State.draw_commitNum (s : State) (n : Nat) : (s.draw n).2.commitNum = s.commitNum := rfl
@[simp] theorem State.draw_deferred (s : State) (n : Nat) : (s.draw n).2.deferred = s.deferred := rfl
@[simp] theorem State.draw_accepted (s : State) (n : Nat) : (s.draw n).2.accepted = s.accepted := rfl
@[simp] theorem State.draw_plans (s : State) (n : Nat) : (s.draw n).2.plans = s.plans := rfl
@[simp] theorem State.draw_holds (s : State) (n : Nat) : (s.draw n).2.holds = s.holds := rfl
@[simp] theorem State.draw_holdNum (s : State) (n : Nat) : (s.draw n).2.holdNum = s.holdNum := rfl
@[simp] theorem State.draw_sent (s : State) (n : Nat) : (s.draw n).2.sent = s.sent := rfl
@[simp] theorem State.draw_sentNum (s : State) (n : Nat) : (s.draw n).2.sentNum = s.sentNum := rfl
@[simp] theorem State.draw_ports (s : State) (n : Nat) : (s.draw n).2.ports = s.ports := rfl
@[simp] theorem State.draw_heard (s : State) (n : Nat) : (s.draw n).2.heard = s.heard := rfl
@[simp] theorem State.draw_remote (s : State) (n : Nat) : (s.draw n).2.remote = s.remote := rfl
@[simp] theorem State.draw_remoteNum (s : State) (n : Nat) : (s.draw n).2.remoteNum = s.remoteNum := rfl
@[simp] theorem State.draw_rats (s : State) (n : Nat) : (s.draw n).2.rats = s.rats := rfl
@[simp] theorem State.draw_flows (s : State) (n : Nat) : (s.draw n).2.flows = s.flows := rfl
@[simp] theorem State.draw_bondSince (s : State) (n : Nat) : (s.draw n).2.bondSince = s.bondSince := rfl
@[simp] theorem State.draw_coreLoads (s : State) (n : Nat) : (s.draw n).2.coreLoads = s.coreLoads := rfl
@[simp] theorem State.draw_mailSlots (s : State) (n : Nat) : (s.draw n).2.mailSlots = s.mailSlots := rfl
@[simp] theorem State.draw_mailbox (s : State) (n : Nat) : (s.draw n).2.mailbox = s.mailbox := rfl
@[simp] theorem State.draw_peerMail (s : State) (n : Nat) : (s.draw n).2.peerMail = s.peerMail := rfl
@[simp] theorem State.draw_resets (s : State) (n : Nat) : (s.draw n).2.resets = s.resets := rfl
@[simp] theorem State.draw_grants (s : State) (n : Nat) : (s.draw n).2.grants = s.grants := rfl
@[simp] theorem State.draw_domains (s : State) (n : Nat) : (s.draw n).2.domains = s.domains := rfl
@[simp] theorem State.draw_power (s : State) (n : Nat) : (s.draw n).2.power = s.power := rfl
@[simp] theorem State.draw_fw (s : State) (n : Nat) : (s.draw n).2.fw = s.fw := rfl
@[simp] theorem State.draw_mgmtRate (s : State) (n : Nat) : (s.draw n).2.mgmtRate = s.mgmtRate := rfl
@[simp] theorem State.draw_mgmtSince (s : State) (n : Nat) : (s.draw n).2.mgmtSince = s.mgmtSince := rfl
@[simp] theorem State.draw_i3cAddr (s : State) (n : Nat) : (s.draw n).2.i3cAddr = s.i3cAddr := rfl
@[simp] theorem State.draw_ibien (s : State) (n : Nat) : (s.draw n).2.ibien = s.ibien := rfl
@[simp] theorem State.draw_hellos (s : State) (n : Nat) : (s.draw n).2.hellos = s.hellos := rfl
@[simp] theorem State.draw_carve (s : State) (n : Nat) : (s.draw n).2.carve = s.carve := rfl

@[simp] theorem State.store_pending (s : State) (a n v : Nat) : (s.store a n v).pending = s.pending := rfl
@[simp] theorem State.store_tick (s : State) (a n v : Nat) : (s.store a n v).tick = s.tick := rfl
@[simp] theorem State.store_free (s : State) (a n v : Nat) : (s.store a n v).free = s.free := rfl
@[simp] theorem State.store_draws (s : State) (a n v : Nat) : (s.store a n v).draws = s.draws := rfl
@[simp] theorem State.store_outbox (s : State) (a n v : Nat) : (s.store a n v).outbox = s.outbox := rfl
@[simp] theorem State.store_ident (s : State) (a n v : Nat) : (s.store a n v).ident = s.ident := rfl
@[simp] theorem State.store_grad (s : State) (a n v : Nat) : (s.store a n v).grad = s.grad := rfl
@[simp] theorem State.store_panes (s : State) (a n v : Nat) : (s.store a n v).panes = s.panes := rfl
@[simp] theorem State.store_trims (s : State) (a n v : Nat) : (s.store a n v).trims = s.trims := rfl
@[simp] theorem State.store_masts (s : State) (a n v : Nat) : (s.store a n v).masts = s.masts := rfl
@[simp] theorem State.store_parts (s : State) (a n v : Nat) : (s.store a n v).parts = s.parts := rfl
@[simp] theorem State.store_lines (s : State) (a n v : Nat) : (s.store a n v).lines = s.lines := rfl
@[simp] theorem State.store_uses (s : State) (a n v : Nat) : (s.store a n v).uses = s.uses := rfl
@[simp] theorem State.store_directory (s : State) (a n v : Nat) : (s.store a n v).directory = s.directory := rfl
@[simp] theorem State.store_trackers (s : State) (a n v : Nat) : (s.store a n v).trackers = s.trackers := rfl
@[simp] theorem State.store_streams (s : State) (a n v : Nat) : (s.store a n v).streams = s.streams := rfl
@[simp] theorem State.store_openRows (s : State) (a n v : Nat) : (s.store a n v).openRows = s.openRows := rfl
@[simp] theorem State.store_heldReqs (s : State) (a n v : Nat) : (s.store a n v).heldReqs = s.heldReqs := rfl
@[simp] theorem State.store_hot (s : State) (a n v : Nat) : (s.store a n v).hot = s.hot := rfl
@[simp] theorem State.store_hotSince (s : State) (a n v : Nat) : (s.store a n v).hotSince = s.hotSince := rfl
@[simp] theorem State.store_hbm (s : State) (a n v : Nat) : (s.store a n v).hbm = s.hbm := rfl
@[simp] theorem State.store_lantern (s : State) (a n v : Nat) : (s.store a n v).lantern = s.lantern := rfl
@[simp] theorem State.store_silent (s : State) (a n v : Nat) : (s.store a n v).silent = s.silent := rfl
@[simp] theorem State.store_dict (s : State) (a n v : Nat) : (s.store a n v).dict = s.dict := rfl
@[simp] theorem State.store_snaps (s : State) (a n v : Nat) : (s.store a n v).snaps = s.snaps := rfl
@[simp] theorem State.store_snapRing (s : State) (a n v : Nat) : (s.store a n v).snapRing = s.snapRing := rfl
@[simp] theorem State.store_writes (s : State) (a n v : Nat) : (s.store a n v).writes = s.writes := rfl
@[simp] theorem State.store_rings (s : State) (a n v : Nat) : (s.store a n v).rings = s.rings := rfl
@[simp] theorem State.store_limits (s : State) (a n v : Nat) : (s.store a n v).limits = s.limits := rfl
@[simp] theorem State.store_sessions (s : State) (a n v : Nat) : (s.store a n v).sessions = s.sessions := rfl
@[simp] theorem State.store_stagers (s : State) (a n v : Nat) : (s.store a n v).stagers = s.stagers := rfl
@[simp] theorem State.store_commits (s : State) (a n v : Nat) : (s.store a n v).commits = s.commits := rfl
@[simp] theorem State.store_commitNum (s : State) (a n v : Nat) : (s.store a n v).commitNum = s.commitNum := rfl
@[simp] theorem State.store_deferred (s : State) (a n v : Nat) : (s.store a n v).deferred = s.deferred := rfl
@[simp] theorem State.store_accepted (s : State) (a n v : Nat) : (s.store a n v).accepted = s.accepted := rfl
@[simp] theorem State.store_plans (s : State) (a n v : Nat) : (s.store a n v).plans = s.plans := rfl
@[simp] theorem State.store_holds (s : State) (a n v : Nat) : (s.store a n v).holds = s.holds := rfl
@[simp] theorem State.store_holdNum (s : State) (a n v : Nat) : (s.store a n v).holdNum = s.holdNum := rfl
@[simp] theorem State.store_sent (s : State) (a n v : Nat) : (s.store a n v).sent = s.sent := rfl
@[simp] theorem State.store_sentNum (s : State) (a n v : Nat) : (s.store a n v).sentNum = s.sentNum := rfl
@[simp] theorem State.store_ports (s : State) (a n v : Nat) : (s.store a n v).ports = s.ports := rfl
@[simp] theorem State.store_heard (s : State) (a n v : Nat) : (s.store a n v).heard = s.heard := rfl
@[simp] theorem State.store_remote (s : State) (a n v : Nat) : (s.store a n v).remote = s.remote := rfl
@[simp] theorem State.store_remoteNum (s : State) (a n v : Nat) : (s.store a n v).remoteNum = s.remoteNum := rfl
@[simp] theorem State.store_rats (s : State) (a n v : Nat) : (s.store a n v).rats = s.rats := rfl
@[simp] theorem State.store_flows (s : State) (a n v : Nat) : (s.store a n v).flows = s.flows := rfl
@[simp] theorem State.store_bondSince (s : State) (a n v : Nat) : (s.store a n v).bondSince = s.bondSince := rfl
@[simp] theorem State.store_coreLoads (s : State) (a n v : Nat) : (s.store a n v).coreLoads = s.coreLoads := rfl
@[simp] theorem State.store_mailSlots (s : State) (a n v : Nat) : (s.store a n v).mailSlots = s.mailSlots := rfl
@[simp] theorem State.store_mailbox (s : State) (a n v : Nat) : (s.store a n v).mailbox = s.mailbox := rfl
@[simp] theorem State.store_peerMail (s : State) (a n v : Nat) : (s.store a n v).peerMail = s.peerMail := rfl
@[simp] theorem State.store_resets (s : State) (a n v : Nat) : (s.store a n v).resets = s.resets := rfl
@[simp] theorem State.store_grants (s : State) (a n v : Nat) : (s.store a n v).grants = s.grants := rfl
@[simp] theorem State.store_domains (s : State) (a n v : Nat) : (s.store a n v).domains = s.domains := rfl
@[simp] theorem State.store_power (s : State) (a n v : Nat) : (s.store a n v).power = s.power := rfl
@[simp] theorem State.store_fw (s : State) (a n v : Nat) : (s.store a n v).fw = s.fw := rfl
@[simp] theorem State.store_mgmtRate (s : State) (a n v : Nat) : (s.store a n v).mgmtRate = s.mgmtRate := rfl
@[simp] theorem State.store_mgmtSince (s : State) (a n v : Nat) : (s.store a n v).mgmtSince = s.mgmtSince := rfl
@[simp] theorem State.store_i3cAddr (s : State) (a n v : Nat) : (s.store a n v).i3cAddr = s.i3cAddr := rfl
@[simp] theorem State.store_ibien (s : State) (a n v : Nat) : (s.store a n v).ibien = s.ibien := rfl
@[simp] theorem State.store_hellos (s : State) (a n v : Nat) : (s.store a n v).hellos = s.hellos := rfl
@[simp] theorem State.store_carve (s : State) (a n v : Nat) : (s.store a n v).carve = s.carve := rfl

/-! ### Reading back -/

theorem State.mast_setMast (s : State) (m n : Nat) (x : Mast) :
    (s.setMast m x).mast n = if n = m then x else s.mast n := FMap.get_set ..

@[simp] theorem State.mast_setMast_same (s : State) (m : Nat) (x : Mast) : (s.setMast m x).mast m = x :=
  FMap.get_set_same ..

theorem State.part_setPart (s : State) (p q : Nat) (x : Part) :
    (s.setPart p x).part q = if q = p then x else s.part q := FMap.get_set ..

@[simp] theorem State.part_setPart_same (s : State) (p : Nat) (x : Part) : (s.setPart p x).part p = x :=
  FMap.get_set_same ..

theorem State.ring_setRing (s : State) (n k : Nat) (g : Ring) :
    (s.setRing n g).ring k = if k = n then g else s.ring k := FMap.get_set ..

theorem State.port_setPort (s : State) (p q : Nat) (x : Port) :
    (s.setPort p x).port q = if q = p then x else s.port q := FMap.get_set ..

@[simp] theorem State.port_setPort_same (s : State) (p : Nat) (x : Port) : (s.setPort p x).port p = x :=
  FMap.get_set_same ..

@[simp] theorem State.rat_setRat_same (s : State) (d side : Nat) (x : RatDir) : (s.setRat d side x).rat d side = x :=
  FMap.get_set_same ..

@[simp] theorem State.flow_setFlow_same (s : State) (d side : Nat) (x : RatFlow) :
    (s.setFlow d side x).flow d side = x := FMap.get_set_same ..

theorem State.tracker_setTracker (s : State) (n k : Nat) (x : Tracker) :
    (s.setTracker n x).tracker k = if k = n then x else s.tracker k := FMap.get_set ..

@[simp] theorem State.pane_setPane_same (s : State) (p d k : Nat) (x : Pane) : (s.setPane p d k x).pane p d k = x :=
  FMap.get_set_same ..

@[simp] theorem State.trim_setTrim_same (s : State) (p e : Nat) (x : Trim) : (s.setTrim p e x).trim p e = x :=
  FMap.get_set_same ..

theorem State.stager_setStager (s : State) (i j : Nat) (x : Stager) :
    (s.setStager i x).stager j = if j = i then x else s.stager j := FMap.get_set ..

/-- The object stored is read back; `setObj` writes no other object. -/
@[simp] theorem State.obj_setObj_same (s : State) (i j : Nat) (v : Octets) : (s.setObj i j v).obj i j = v :=
  FMap.get_set_same ..

theorem objKey_inj {i j k l : Nat} (hj : j < 256) (hl : l < 256) (h : objKey i j = objKey k l) : i = k ∧ j = l := by
  unfold objKey at h; omega

theorem State.obj_setObj_other (s : State) {i j k l : Nat} (v : Octets) (h : objKey k l ≠ objKey i j) :
    (s.setObj i j v).obj k l = s.obj k l := FMap.get_set_other _ _ _ _ h

@[simp] theorem State.val_setVal_same (s : State) (i j v : Nat) :
    (s.setVal i j v).val i j = v % 2 ^ (8 * objLen i j) := by simp [State.val, State.setVal]

theorem State.val_setVal_other (s : State) {i j k l : Nat} (v : Nat) (h : objKey k l ≠ objKey i j) :
    (s.setVal i j v).val k l = s.val k l := by
  simp only [State.val, State.setVal, State.obj_setObj_other s _ h]

/-- A counter that is bumped counts on, modulo its width (R16). -/
@[simp] theorem State.val_bump_same (s : State) (i j n : Nat) :
    (s.bump i j n).val i j = (s.val i j + n) % 2 ^ (8 * objLen i j) := by simp [State.bump]

theorem State.val_bump_other (s : State) {i j k l : Nat} (n : Nat) (h : objKey k l ≠ objKey i j) :
    (s.bump i j n).val k l = s.val k l := State.val_setVal_other s _ h

/-! ### Masts -/

@[simp] theorem Mast.thread_setThread_same (x : Mast) (t : Nat) (th : Thread) : (x.setThread t th).thread t = th :=
  FMap.get_set_same ..

theorem Mast.thread_setThread (x : Mast) (t u : Nat) (th : Thread) :
    (x.setThread t th).thread u = if u = t then th else x.thread u := FMap.get_set ..

theorem Mast.counter_setCounter (x : Mast) (n k : Nat) (c : Counter) :
    (x.setCounter n c).counter k = if k = n then c else x.counter k := FMap.get_set ..

theorem Mast.queue_setQueue (x : Mast) (e k : Nat) (q : List Posted) :
    (x.setQueue e q).queue k = if k = e then q else x.queue k := FMap.get_set ..

/-- s0 reads as zero and a write to it is discarded (R89); a write to another register changes that one alone. -/
theorem Thread.reg_setReg (th : Thread) (r k : Nat) (v : Word64) :
    (th.setReg r v).reg k = if k = r ∧ r ≠ 0 then v else th.reg k := by
  by_cases hr : r = 0
  · subst hr; simp [Thread.setReg]
  · by_cases hk : k = r
    · subst hk; simp [Thread.setReg, Thread.reg, hr]
    · by_cases h0 : k = 0
      · subst h0; simp [Thread.reg, Ne.symm hr]
      · simp [Thread.setReg, Thread.reg, hr, hk, h0, FMap.get_set_other _ _ _ _ hk]

@[simp] theorem Thread.reg_zero (th : Thread) : th.reg 0 = 0#64 := rfl

/-! ### Memory -/

/-- What a write leaves in memory: its bytes inside the range, everything else outside. -/
theorem State.byte_store (s : State) (a n v b : Nat) :
    FMap.get (s.store a n v).mem b 0#8 =
      if a ≤ b ∧ b < a + n then BitVec.ofNat 8 (v / 256 ^ (b - a)) else FMap.get s.mem b 0#8 := FMap.get_writeLE ..

theorem State.load_store_same (s : State) (a n v : Nat) : (s.store a n v).load a n = v % 256 ^ n :=
  FMap.readLE_writeLE ..

theorem State.load_store_other (s : State) {a n v b k : Nat} (h : b + k ≤ a ∨ a + n ≤ b) :
    (s.store a n v).load b k = s.load b k := FMap.readLE_writeLE_other _ h

/-- Every write to memory keeps its canonical form. -/
theorem State.store_wf (s : State) (a n v : Nat) (h : FMap.wf 0#8 s.mem = true) : FMap.wf 0#8 (s.store a n v).mem = true :=
  FMap.wf_writeLE h a n v

theorem State.zeroMem_wf (s : State) (a n : Nat) (h : FMap.wf 0#8 s.mem = true) : FMap.wf 0#8 (s.zeroMem a n).mem = true :=
  FMap.wf_clearRange h a (a + n)

end Sys2Proof.Machine
end

