-- ==== Sys2Proof/Laws/Frames.lean ====
section
/-! SUPPORT. The calculus of what changes between two states, and, for each shared operation, all that it can change. -/
namespace Sys2Proof.Machine

/-! ### The calculus -/

theorem changesOnly.refl (fs : List Piece) (s : State) : changesOnly fs s s := by
  intro f _; cases f <;> rfl

theorem Piece.same_trans {f : Piece} {s t u : State} (h : f.same s t) (h' : f.same t u) : f.same s u := by
  cases f <;> exact h'.trans h

theorem changesOnly.trans {fs : List Piece} {s t u : State} (h : changesOnly fs s t) (h' : changesOnly fs t u) :
    changesOnly fs s u := fun f hf => Piece.same_trans (h f hf) (h' f hf)

theorem changesOnly.mono {fs gs : List Piece} {s t : State} (h : changesOnly fs s t) (hs : fs ⊆ gs) : changesOnly gs s t :=
  fun f hf => h f fun hm => hf (hs hm)

/-- A frame gives what is kept: every list that meets none of its pieces. -/
theorem changesOnly.keeps {fs gs : List Piece} {s t : State} (h : changesOnly fs s t) (hd : ∀ f, f ∈ gs → f ∉ fs) :
    keeps gs s t := fun f hf => h f (hd f hf)

theorem changesOnly.foldl {β : Type} {fs : List Piece} (f : State → β → State) (hf : ∀ s b, changesOnly fs s (f s b))
    (l : List β) (s : State) : changesOnly fs s (l.foldl f s) := by
  induction l generalizing s with
  | nil => exact changesOnly.refl fs s
  | cons a r ih => exact (hf s a).trans (ih (f s a))

/-- The same for a fold that carries a value beside the state. -/
theorem changesOnly.foldl2 {α β : Type} {fs : List Piece} (f : α × State → β → α × State)
    (hf : ∀ a b, changesOnly fs a.2 (f a b).2) (l : List β) (a : α × State) : changesOnly fs a.2 (l.foldl f a).2 := by
  induction l generalizing a with
  | nil => exact changesOnly.refl fs a.2
  | cons b r ih => exact (hf a b).trans (ih (f a b))

theorem changesOnly.ite {fs : List Piece} {s t u : State} {c : Prop} [Decidable c] (h : changesOnly fs s t)
    (h' : changesOnly fs s u) : changesOnly fs s (if c then t else u) := by split <;> assumption

/-! ### One piece at a time -/

theorem State.emit_frame (s : State) (k : OutKind) (a b : Nat) (d : Octets) : changesOnly [.outbox] s (s.emit k a b d) := by
  intro f hf; cases f <;> first | rfl | simp at hf

theorem State.open_frame (s : State) (n : Nat) : changesOnly [.free] s (s.open n).2 := by
  intro f hf; cases f <;> first | rfl | simp at hf

theorem State.draw_frame (s : State) (n : Nat) : changesOnly [.draws] s (s.draw n).2 := by
  intro f hf; cases f <;> first | rfl | simp at hf

theorem State.setObj_frame (s : State) (i j : Nat) (v : Octets) : changesOnly [.dict] s (s.setObj i j v) := by
  intro f hf; cases f <;> first | rfl | simp at hf

theorem State.setVal_frame (s : State) (i j v : Nat) : changesOnly [.dict] s (s.setVal i j v) := State.setObj_frame _ _ _ _

theorem State.bump_frame (s : State) (i j n : Nat) : changesOnly [.dict] s (s.bump i j n) := State.setVal_frame _ _ _ _

theorem State.setMast_frame (s : State) (m : Nat) (x : Mast) : changesOnly [.masts] s (s.setMast m x) := by
  intro f hf; cases f <;> first | rfl | simp at hf

theorem State.setPart_frame (s : State) (p : Nat) (x : Part) : changesOnly [.parts] s (s.setPart p x) := by
  intro f hf; cases f <;> first | rfl | simp at hf

theorem State.setRing_frame (s : State) (n : Nat) (g : Ring) : changesOnly [.rings] s (s.setRing n g) := by
  intro f hf; cases f <;> first | rfl | simp at hf

theorem State.setPort_frame (s : State) (p : Nat) (x : Port) : changesOnly [.ports] s (s.setPort p x) := by
  intro f hf; cases f <;> first | rfl | simp at hf

theorem State.setRat_frame (s : State) (d side : Nat) (x : RatDir) : changesOnly [.rats] s (s.setRat d side x) := by
  intro f hf; cases f <;> first | rfl | simp at hf

theorem State.setFlow_frame (s : State) (d side : Nat) (x : RatFlow) : changesOnly [.flows] s (s.setFlow d side x) := by
  intro f hf; cases f <;> first | rfl | simp at hf

theorem State.setStager_frame (s : State) (i : Nat) (x : Stager) : changesOnly [.stagers] s (s.setStager i x) := by
  intro f hf; cases f <;> first | rfl | simp at hf

theorem State.store_frame (s : State) (a n v : Nat) : changesOnly [.mem, .poisoned] s (s.store a n v) := by
  intro f hf; cases f <;> first | rfl | simp at hf

theorem State.zeroMem_frame (s : State) (a n : Nat) : changesOnly [.mem, .poisoned] s (s.zeroMem a n) := by
  intro f hf; cases f <;> first | rfl | simp at hf

theorem State.setLimits_frame (s : State) (l : FMap Nat) : changesOnly [.limits] s { s with limits := l } := by
  intro f hf; cases f <;> first | rfl | simp at hf

/-! ### Events (R36, R37, R420, R421, R423) -/

theorem State.postRing_frame (s : State) (n : Nat) (rs : List Rec) : changesOnly [.rings] s (s.postRing n rs) :=
  State.setRing_frame s _ _

/-- Posting an event changes the event rings and nothing else. -/
theorem State.post_frame (s : State) (e : Event) : changesOnly [.rings] s (s.post e) :=
  changesOnly.foldl _ (fun s n => State.postRing_frame s n _) _ s

theorem State.postLimited_frame (s : State) (id gap : Nat) (e : Event) :
    changesOnly [.rings, .limits] s (s.postLimited id gap e) := by
  unfold State.postLimited
  dsimp only
  split
  · exact ((State.post_frame s e).mono (by simp)).trans ((State.setLimits_frame (s.post e) _).mono (by simp))
  · exact changesOnly.refl _ s

theorem State.postEach_frame (s : State) (id gap : Nat) (parts : List Nat) (e : Nat → Event) :
    changesOnly [.rings, .limits] s (s.postEach id gap parts e) := by
  unfold State.postEach
  dsimp only
  split
  · exact ((State.setLimits_frame s _).mono (by simp)).trans
      (changesOnly.foldl _ (fun s p => (State.post_frame s _).mono (by simp)) _ _)
  · exact changesOnly.refl _ s

/-- Pushing the new records sends them, and marks how far it came. -/
theorem State.pushNew_frame (s : State) : changesOnly [.rings, .free, .outbox] s s.pushNew := by
  unfold State.pushNew
  dsimp only
  split
  · exact changesOnly.refl _ s
  · refine changesOnly.trans (changesOnly.foldl _ (fun s e => ?_) _ s) ((State.setRing_frame _ _ _).mono (by simp))
    split
    · exact changesOnly.foldl _ (fun s rs => ((State.open_frame s 32).mono (by simp)).trans
        ((State.emit_frame _ _ _ _ _).mono (by simp))) _ s
    · exact changesOnly.refl _ s

/-- Posting to one ring leaves every other ring as it is. -/
theorem State.postRing_other (s : State) {n k : Nat} (rs : List Rec) (h : k ≠ n) : (s.postRing n rs).ring k = s.ring k := by
  unfold State.postRing
  rw [State.ring_setRing, if_neg h]

theorem placeRec_length (r : Rec) (l : List Rec) : (placeRec r l).length = l.length + 1 := by
  induction l with
  | nil => rfl
  | cons x rest ih => simp only [placeRec]; split <;> simp [ih]

theorem numberRecs_length (n : Nat) (l : List Rec) : (numberRecs n l).length = l.length := by
  induction l generalizing n with
  | nil => rfl
  | cons r rest ih => simp [numberRecs, ih]

theorem Ring.append_read (g : Ring) (rs : List Rec) : (g.append rs).read = g.read := rfl

theorem Ring.append_posted (g : Ring) (rs : List Rec) : (g.append rs).posted = g.posted + rs.length := rfl

theorem Ring.append_length (g : Ring) (rs : List Rec) : (g.append rs).recs.length = g.recs.length + rs.length := by
  simp only [Ring.append, numberRecs_length]
  generalize g.recs = l
  induction rs generalizing l with
  | nil => rfl
  | cons r rest ih => simp only [List.foldl_cons, ih, placeRec_length, List.length_cons]; omega

/-- Appending records keeps a ring sound where it has room for them. -/
theorem Ring.append_sound {g : Ring} {cap : Nat} (rs : List Rec) (h : g.sound cap) (room : g.used + rs.length ≤ cap) :
    (Ring.append g rs).sound cap := by
  obtain ⟨h1, h2, h3⟩ := h
  simp only [Ring.used] at h2 h3 room
  refine ⟨?_, ?_, ?_⟩
  · rw [Ring.append_read, Ring.append_posted]; omega
  · rw [Ring.append_length]; simp only [Ring.used, Ring.append_read, Ring.append_posted]; omega
  · simp only [Ring.used, Ring.append_read, Ring.append_posted]; omega

theorem Ring.settle_sound {g : Ring} {cap : Nat} (mk : Nat → Rec) (h : g.sound cap) : (g.settle cap mk).sound cap := by
  unfold Ring.settle
  split
  · next hc =>
    have := Ring.append_sound [mk g.owed] h (by simp; omega)
    exact ⟨this.1, this.2.1, this.2.2⟩
  · exact h

/-- Posting keeps a ring sound: a record that does not fit is dropped (R36). -/
theorem Ring.post_sound {g : Ring} {cap : Nat} (mk : Nat → Rec) (rs : List Rec) (h : g.sound cap) :
    (g.post cap mk rs).sound cap := by
  have hs := Ring.settle_sound mk h
  unfold Ring.post
  dsimp only
  split
  · next hc => exact Ring.append_sound rs hs hc.2
  · exact ⟨hs.1, hs.2.1, hs.2.2⟩

/-! ### Units -/

theorem State.setTree_frame (s : State) (d : Nat) (on : Bool) : changesOnly [.dict] s (s.setTree d on) :=
  State.setVal_frame _ _ _ _

theorem State.settleTree_frame (s : State) (d : Nat) : changesOnly [.dict] s (s.settleTree d) :=
  changesOnly.ite (State.setTree_frame _ _ _) (changesOnly.refl _ s)

theorem State.forgetRequests_frame (s : State) (mine : Nat → Bool) :
    changesOnly [.heldReqs, .trackers] s (s.forgetRequests mine) := by
  intro f hf; cases f <;> first | rfl | simp at hf

theorem State.darken_frame (s : State) (m : Nat) : changesOnly [.masts, .dict, .heldReqs, .trackers] s (s.darken m) :=
  (((State.setMast_frame s _ _).mono (by simp)).trans ((State.settleTree_frame _ _).mono (by simp))).trans
    ((State.forgetRequests_frame _ _).mono (by simp))

theorem State.grantMast_frame (s : State) (m : Nat) : changesOnly [.masts, .dict] s (s.grantMast m) := by
  have both : ∀ x, changesOnly [.masts, .dict] s ((s.setMast m x).setTree (mastDie m) true) := fun x =>
    ((State.setMast_frame s m x).mono (by simp)).trans ((State.setTree_frame _ _ _).mono (by simp))
  unfold State.grantMast
  dsimp only
  split
  · exact changesOnly.refl _ s
  · split
    · exact changesOnly.refl _ s
    · exact both _

theorem State.postPilot_frame (s : State) (code : Nat) (d : List (Nat × Nat)) :
    changesOnly [.rings] s (s.postPilot code d) := State.post_frame _ _

theorem State.ibi_frame (s : State) (i : Nat) : changesOnly [.outbox] s (s.ibi i) :=
  changesOnly.ite (State.emit_frame _ _ _ _ _) (changesOnly.refl _ s)

theorem State.blockedFor_frame (s : State) (r : Requester) (parts : List Nat) (a n : Nat) :
    changesOnly [.dict, .rings, .limits] s (s.blockedFor r parts a n) :=
  ((State.bump_frame s _ _ _).mono (by simp)).trans ((State.postEach_frame _ _ _ _ _).mono (by simp))

theorem State.blocked_frame (s : State) (r : Requester) (part : Option Nat) (a n : Nat) :
    changesOnly [.dict, .rings, .limits] s (s.blocked r part a n) := State.blockedFor_frame _ _ _ _ _

theorem State.stepDone_frame (s : State) (n : Nat) : changesOnly [.dict, .rings] s (s.stepDone n) :=
  ((State.setVal_frame s _ _ _).mono (by simp)).trans ((State.postPilot_frame _ _ _).mono (by simp))

theorem retire_frame (m t : Nat) (s : State) (x : Mast) (th : Thread) : changesOnly [.masts] s (retire m t s x th) :=
  State.setMast_frame _ _ _

theorem State.badTag_frame (s : State) (a : Nat) : changesOnly [.dict, .rings, .limits] s (s.badTag a) :=
  ((State.bump_frame s _ _ _).mono (by simp)).trans ((State.postLimited_frame _ _ _ _).mono (by simp))

end Sys2Proof.Machine
end

