-- ==== Sys2Proof/Laws/Commands.lean ====
section
/-! SUPPORT. The shared operations that the commands are built from: when each goes on, and with what. -/
namespace Sys2Proof.Machine

/-! ### Guards -/

@[simp] theorem guardEvent_true (s : State) (k : Result) : guardEvent true s k = k := rfl

@[simp] theorem guardEvent_false (s : State) (k : Result) : guardEvent false s k = .next s := rfl

/-- An event that goes on goes on: where it cannot happen nothing changes, and where it can its effect goes on. -/
theorem guardEvent_goesOn {ok : Bool} {s : State} {k : Result} (h : goesOn k) : goesOn (guardEvent ok s k) := by
  cases ok
  · exact ⟨s, rfl⟩
  · exact h

theorem onPort_eq {p : Nat} (h : p < 7) (s : State) (k : Result) : onPort p s k = k := by simp [onPort, h]

theorem onDirection_eq {d side e : Nat} {s : State} (h : d < 16) (he : neighbourDie d side = some e) (k : Nat → Result) :
    onDirection d side s k = k e := by
  have : ¬ 16 ≤ d := by omega
  simp [onDirection, this, he]

theorem onMessage_eq {p vc : Nat} {s : State} (h : p < 7) (hl : s.receives p = true)
    (hv : permVc (s.port p).peer.entry vc = true) (k : Result) : onMessage p vc s k = k := by
  simp [onMessage, onPort_eq h, hl, hv]

/-- A message on a channel that the entry does not permit is policed (R336). -/
theorem onMessage_policed {p vc : Nat} {s : State} (h : p < 7) (hl : s.receives p = true)
    (hv : permVc (s.port p).peer.entry vc = false) (k : Result) : onMessage p vc s k = .next (s.police p policedVc) := by
  simp [onMessage, onPort_eq h, hl, hv]

theorem onCore_eq {core c : Nat} {s : State} (h : core < 16) (hp : s.pkg ≠ pkgOff) (hs : s.pkg ≠ pkgShutdown)
    (hc : s.contextOfCore core = some c) (k : Nat → Result) : onCore core s k = k c := by
  simp [onCore, h, bne_iff_ne.mpr hp, bne_iff_ne.mpr hs, hc]

/-! ### Operations of a thread -/

/-- A thread that issues the operation runs its meaning, on the mast, the thread and the operands that it reads. -/
theorem issue_eq {s : State} {m t op : Nat} (h : s.issues m t op = true) (k : Mast → Thread → Operands → Result) :
    issue m t op s k = k (s.mast m) ((s.mast m).thread t) (s.operands m t) := by
  have h' : guardEvent (s.issues m t op) s (k (s.mast m) ((s.mast m).thread t) (s.operands m t)) =
      k (s.mast m) ((s.mast m).thread t) (s.operands m t) := by rw [h]; rfl
  exact h'

/-- Where no thread issues the operation, nothing happens. -/
theorem issue_idle {s : State} {m t op : Nat} (h : s.issues m t op = false) (k : Mast → Thread → Operands → Result) :
    issue m t op s k = .next s := by
  have h' : guardEvent (s.issues m t op) s (k (s.mast m) ((s.mast m).thread t) (s.operands m t)) = .next s := by rw [h]; rfl
  exact h'

/-- The register operations of Table 3.4: d takes f of sa and sb + IMM, and the thread moves on. -/
theorem alu_eq {s : State} {m t op : Nat} (h : s.issues m t op = true) (f : Word64 → Word64 → Word64) :
    alu m t op f s = .next (retire m t s (s.mast m)
      ((((s.mast m).thread t).setReg (s.operands m t).d (f (s.operands m t).sa (s.operands m t).v)).advance)) :=
  issue_eq h _

@[simp] theorem retire_mast (m t : Nat) (s : State) (x : Mast) (th : Thread) :
    (retire m t s x th).mast m = (x.setThread t th).issued t := State.mast_setMast_same ..

theorem retire_other {m n : Nat} (t : Nat) (s : State) (x : Mast) (th : Thread) (h : n ≠ m) :
    (retire m t s x th).mast n = s.mast n := by
  rw [retire, State.mast_setMast, if_neg h]

/-! ### Descriptors -/

/-- A descriptor at the head of an idle engine's queue leaves the queue and runs its meaning. -/
theorem startOp_eq {s : State} {m e op : Nat} {p : Posted} (h : s.headOf m e op = some p) (k : Mast → Posted → Result) :
    startOp m e op s k = k (s.started m e) p := by
  unfold State.headOf at h
  dsimp only at h
  split at h
  · cases h
  · next q rest hq =>
    split at h
    · next hc =>
      cases h
      simp only [Bool.and_eq_true] at hc
      obtain ⟨⟨⟨⟨⟨hm, -⟩, hd⟩, hr⟩, ha⟩, hb⟩ := hc
      simp only [startOp, hq, hm, hd, hr, ha, hb, Bool.and_self, guardEvent_true, State.started, List.tail_cons]
    · cases h

/-! ### Register writes -/

/-- A write to a powered package is answered by its status (R402); sessions close after it where R391 says. -/
theorem State.writeAs_eq {s : State} (h : s.pkg ≠ pkgOff) (who : Who) (i j : Nat) (v : Octets) :
    s.writeAs who i j v =
      .next (((s.writeObject who i j v).2.emit .status (whoTag who) (s.writeObject who i j v).1 ⟨0, 0⟩).settleAddress i j
        (s.writeObject who i j v).1) := by
  simp [State.writeAs, bne_iff_ne.mpr h]

/-- A peer never writes. -/
theorem State.writeObject_peer (s : State) (p i j : Nat) (v : Octets) : s.writeObject (.peer p) i j v = (4, s) := rfl

/-! ### The home of an address (R187, R194, R195) -/

theorem matVec_lt (n : Nat) (entry : Nat → Nat → Bool) (v : Nat) : matVec n entry v < 2 ^ n := by
  unfold matVec
  have key : ∀ (f : Nat → Bool) (k : Nat),
      (List.range k).foldl (fun acc i => acc + (if f i then 2 ^ i else 0)) 0 < 2 ^ k := by
    intro f k
    induction k with
    | zero => simp
    | succ k ih =>
      rw [List.range_succ, List.foldl_append]
      simp only [List.foldl_cons, List.foldl_nil]
      have : 2 ^ (k + 1) = 2 ^ k + 2 ^ k := by rw [Nat.pow_succ]; omega
      split <;> omega
  exact key (fun i => (List.range n).foldl (fun x j => x != (entry i j && bitOf v j)) false) n

theorem field_lt (w hi lo : Nat) : field w hi lo < 2 ^ (hi + 1 - lo) := Nat.mod_lt _ (Nat.pos_of_ne_zero (by simp))

theorem hashT_lt (kb v : Nat) : hashT kb v < 2 ^ 11 := matVec_lt 11 _ _

theorem channelOf_lt (key a : Nat) : channelOf key false a < 2 ^ 11 := by
  simp only [channelOf, Bool.false_eq_true, if_false]
  exact Nat.xor_lt_two_pow (Nat.xor_lt_two_pow (Nat.xor_lt_two_pow (field_lt a 18 8) (field_lt _ 230 220))
    (hashT_lt _ _)) (hashT_lt _ _)

/-- The home of an address is one of the sixteen base dies. -/
theorem State.home_lt (s : State) (a : Nat) : s.home a < 16 := by
  have key : ∀ q, s.placing a = q → s.home a < 16 := by
    rintro ⟨k, st⟩ hq
    rw [State.home.eq_1, hq]
    cases st
    · have := channelOf_lt k a
      simp only [Bool.false_eq_true, if_false]
      omega
    · exact field_lt a 26 23
  exact key _ rfl

end Sys2Proof.Machine
end

