-- ==== Sys2Proof/Laws/PerInstr.lean ====
section
/-! SUPPORT. Per-command facts: in a well-formed command every unit number is below the number of such units in the
package (R1 to R5). -/
namespace Sys2Proof.Laws.WellFormedUnits

/-- The unit numbers that a command carries, each with the number of such units. -/
def unitsOf : Instr → List (Nat × Nat)
  | .nop a b | .add a b | .sub a b | .and a b | .or a b | .xor a b | .shl a b | .shr a b | .sar a b | .mul a b
  | .slt a b | .sltu a b | .seq a b | .min a b | .max a b | .lds a b | .sts a b | .ldm a b | .stm a b | .amadd a b
  | .amswap a b | .br a b | .bz a b | .bnz a b | .jal a b | .post a b | .waitc a b | .watch a b | .fetchw a b
  | .cinc a b | .cclr a b | .start a b | .halt a b | .rdsys a b | .mastThreadFault a b | .memoryResultReturn a b
  | .watchChange a b | .watchTimeout a b | .watchEntryFree a b | .postSlotFree a b => [(a, 3072), (b, 512)]
  | .copyIn a b | .copyOut a b | .mesh a b | .localCopy a b | .addOut a b | .halyardComplete a b | .meshArrival a b
  | .meshAck a b => [(a, 3072), (b, 2)]
  | .matmul a | .aclr a | .adapt a | .send a | .mainsailComplete a | .copy a | .jibAdd a | .jibSub a | .jibMul a
  | .fma a | .jibMin a | .jibMax a | .mul3 a | .exp a | .log a | .recip a | .rsqrt a | .sqrt a | .reluGrad a
  | .geluGrad a | .siluGrad a | .sigmoidGrad a | .rsum a | .rsumsq a | .rmax a | .rmaxabs a | .rmstat a | .rmsstat a
  | .norm a | .skip a | .jibComplete a | .launchCopyDone a | .shutterEntry a | .shutteredWake a | .mastPowerDown a
  | .wickWakeDone a | .darkWakeDone a | .grantRequest a => [(a, 3072)]
  | .mastPowerRequest _ a _ => [(a, 3072)]
  | .directoryRequest a _ _ => [(a, 18)]
  | .fillArrival a _ | .forwardedRead a _ | .invalidate a _ => [(a, 18)]
  | .memAccessComplete a _ => [(a, 2048)]
  | .trackerGrantTimeout a => [(a, 2048)]
  | .patrolScrub a _ | .hbmTempSample a _ => [(a, 32)]
  | .hotWindowEnd a | .lanternFlush a | .trimCheck a | .bondWindowEnd a | .mailboxAlloc a | .domainForceDark a
  | .domainOff a | .domainOn a | .domainResetTimeout a => [(a, 16)]
  | .heldDrainStart a b c | .paneDrainEnd a b c => [(a, 16), (b, 16), (c, 2)]
  | .trimHeldRecheck a b | .trimUpdateComplete a b => [(a, 16), (b, 65536)]
  | .bondBeatReceive a _ _ _ _ => [(a, 3072)]
  | .ratlineDataFlit a b _ _ => [(a, 16), (b, 4)]
  | .ratlineNak a b | .ratlineCredit a b | .ratlineRetire a b | .ratlineRetryTimeout a b | .ratlineControlResend a b
  | .ratlineLaneWindowEnd a b | .ratlineMapExchangeDone a b | .ratlineMapTimeout a b
  | .ratlineTrainingFramesSeen a b | .ratlineIdle a b => [(a, 16), (b, 4)]
  | .ratlineSwitch a b _ | .ratlineWidth a b _ | .ratlineElectricalDone a b _ => [(a, 16), (b, 4)]
  | .ratlineLinkOff a => [(a, 24)]
  | .stayPresenceDetected a | .stayRateAlternate a | .stayPartnerLost a | .stayRetryTimeout a | .stayKeyRefresh a
  | .stayTagWindowEnd a | .stayShutdownEnd a | .discoverySend a | .stayControlResend a => [(a, 7)]
  | .stayElectricalDone a _ _ _ => [(a, 7)]
  | .capability a _ | .identity a _ | .keying a _ | .stayDataFlit a _ | .idle a _ | .nak a _ | .credit a _
  | .width a _ | .switch a _ | .keyswitch a _ | .stayRetrainDone a _ | .discovery a _ | .postedWrite a _
  | .readReq a _ | .readResp a _ | .writeReq a _ | .writeAck a _ => [(a, 7)]
  | .stayFecWindowEnd a _ _ | .dictRequest a _ _ _ | .backupRequest a _ _ | .backupRelease a _ _ | .chunk a _ _ => [(a, 7)]
  | .stayCreditStarved a b => [(a, 7), (b, 16)]
  | .discoveryStale a | .phaseTrigger a | .phaseComplete a | .deadlineMissed a | .planAbortDone a => [(a, 64)]
  | .chunkHoldExpiry _ | .claim _ | .close _ | .powerOn _ | .thermalWindowEnd _ | .inputUndervoltage _
  | .inputOvervoltage _ | .resetreq _ | .recoveryImage _ | .mgmtLinkAttempt _ => []
  | .planAbort _ a _ => [(a, 64)]
  | .deferredFlip | .hello | .commitChecksDone | .pilotRestarted | .powerLoss | .capEvaluate | .debugLifeExpiry => []
  | .discover _ _ | .sessionConfirm _ _ | .eventAck _ _ | .subscribe _ _ | .commitRequest _ _ | .stagingDiscard _ _
  | .powerSample _ _ | .powerCapWrite _ _ | .startupStep _ _ | .hostReady _ _ | .packageReset _ _
  | .resetComplete _ _ | .attestationNonce _ _ | .debugToken _ _ | .debugRelock _ _ => []
  | .sessionInit _ _ _ _ _ => []
  | .read _ a b _ | .write _ a b _ | .registerWrite _ a b _ => [(a, 65536), (b, 256)]
  | .readSeg _ a b _ _ _ | .writeSeg _ a b _ _ _ => [(a, 65536), (b, 256)]
  | .list _ a b => [(a, 65536), (b, 65536)]
  | .describe _ a b => [(a, 65536), (b, 256)]
  | .eventRead _ _ _ | .portReset _ _ _ => []
  | .sessionTimeout a => [(a, 9)]
  | .eventRingOverflow a => [(a, 17)]
  | .snapshotPost a => [(a, 65536)]
  | .mailboxSubmit a _ | .mailboxFree a _ => [(a, 16)]
  | .rdidxWrite a b _ => [(a, 16), (b, 16)]
  | .thermalThrottle a _ | .thermalShutdown a _ => [(a, 384)]
  | .partitionReset _ a _ | .domainReset _ a _ | .partitionStop _ a _ => [(a, 16)]
  | .firmwareImageWrite _ a _ | .svnRaise _ a _ => [(a, 2)]
  | .lamplighterAccess a _ _ _ _ => [(a, 16)]
  | .dynamicAddress a => [(a, 128)]

/-- Every unit that a well-formed command names exists. -/
def Statement (i : Instr) : Prop := i.wellFormed = true → ∀ u ∈ unitsOf i, u.1 < u.2

/-! The shapes that a command's checks take. -/

theorem shapeOne {a x : Nat} (h : decide (a < x) = true) : ∀ u ∈ [(a, x)], u.1 < u.2 := by simpa using h

theorem shapeOneMore {a x : Nat} {r : Bool} (h : (decide (a < x) && r) = true) : ∀ u ∈ [(a, x)], u.1 < u.2 :=
  shapeOne (Bool.and_elim_left h)

theorem shapeOneMore2 {a x : Nat} {r r' : Bool} (h : (decide (a < x) && r && r') = true) :
    ∀ u ∈ [(a, x)], u.1 < u.2 := shapeOneMore (Bool.and_elim_left h)

theorem shapeOneMore3 {a x : Nat} {r r' q : Bool} (h : (decide (a < x) && r && r' && q) = true) :
    ∀ u ∈ [(a, x)], u.1 < u.2 := shapeOneMore2 (Bool.and_elim_left h)

theorem shapeLastOne {a x : Nat} {r : Bool} (h : (r && decide (a < x)) = true) : ∀ u ∈ [(a, x)], u.1 < u.2 :=
  shapeOne (Bool.and_elim_right h)

theorem shapeTwo {a b x y : Nat} (h : (decide (a < x) && decide (b < y)) = true) :
    ∀ u ∈ [(a, x), (b, y)], u.1 < u.2 := by simpa using h

theorem shapeTwoMore {a b x y : Nat} {r : Bool} (h : (decide (a < x) && decide (b < y) && r) = true) :
    ∀ u ∈ [(a, x), (b, y)], u.1 < u.2 := shapeTwo (Bool.and_elim_left h)

theorem shapeThree {a b c x y z : Nat} (h : (decide (a < x) && decide (b < y) && decide (c < z)) = true) :
    ∀ u ∈ [(a, x), (b, y), (c, z)], u.1 < u.2 := by simpa [and_assoc] using h

theorem nop (m t : Nat) : Statement (.nop m t) := fun h => shapeTwo h

theorem add (m t : Nat) : Statement (.add m t) := fun h => shapeTwo h

theorem sub (m t : Nat) : Statement (.sub m t) := fun h => shapeTwo h

theorem and (m t : Nat) : Statement (.and m t) := fun h => shapeTwo h

theorem or (m t : Nat) : Statement (.or m t) := fun h => shapeTwo h

theorem xor (m t : Nat) : Statement (.xor m t) := fun h => shapeTwo h

theorem shl (m t : Nat) : Statement (.shl m t) := fun h => shapeTwo h

theorem shr (m t : Nat) : Statement (.shr m t) := fun h => shapeTwo h

theorem sar (m t : Nat) : Statement (.sar m t) := fun h => shapeTwo h

theorem mul (m t : Nat) : Statement (.mul m t) := fun h => shapeTwo h

theorem slt (m t : Nat) : Statement (.slt m t) := fun h => shapeTwo h

theorem sltu (m t : Nat) : Statement (.sltu m t) := fun h => shapeTwo h

theorem seq (m t : Nat) : Statement (.seq m t) := fun h => shapeTwo h

theorem min (m t : Nat) : Statement (.min m t) := fun h => shapeTwo h

theorem max (m t : Nat) : Statement (.max m t) := fun h => shapeTwo h

theorem lds (m t : Nat) : Statement (.lds m t) := fun h => shapeTwo h

theorem sts (m t : Nat) : Statement (.sts m t) := fun h => shapeTwo h

theorem ldm (m t : Nat) : Statement (.ldm m t) := fun h => shapeTwo h

theorem stm (m t : Nat) : Statement (.stm m t) := fun h => shapeTwo h

theorem amadd (m t : Nat) : Statement (.amadd m t) := fun h => shapeTwo h

theorem amswap (m t : Nat) : Statement (.amswap m t) := fun h => shapeTwo h

theorem br (m t : Nat) : Statement (.br m t) := fun h => shapeTwo h

theorem bz (m t : Nat) : Statement (.bz m t) := fun h => shapeTwo h

theorem bnz (m t : Nat) : Statement (.bnz m t) := fun h => shapeTwo h

theorem jal (m t : Nat) : Statement (.jal m t) := fun h => shapeTwo h

theorem post (m t : Nat) : Statement (.post m t) := fun h => shapeTwo h

theorem waitc (m t : Nat) : Statement (.waitc m t) := fun h => shapeTwo h

theorem watch (m t : Nat) : Statement (.watch m t) := fun h => shapeTwo h

theorem fetchw (m t : Nat) : Statement (.fetchw m t) := fun h => shapeTwo h

theorem cinc (m t : Nat) : Statement (.cinc m t) := fun h => shapeTwo h

theorem cclr (m t : Nat) : Statement (.cclr m t) := fun h => shapeTwo h

theorem start (m t : Nat) : Statement (.start m t) := fun h => shapeTwo h

theorem halt (m t : Nat) : Statement (.halt m t) := fun h => shapeTwo h

theorem rdsys (m t : Nat) : Statement (.rdsys m t) := fun h => shapeTwo h

theorem mastThreadFault (m t : Nat) : Statement (.mastThreadFault m t) := fun h => shapeTwo h

theorem memoryResultReturn (m t : Nat) : Statement (.memoryResultReturn m t) := fun h => shapeTwo h

theorem watchChange (m t : Nat) : Statement (.watchChange m t) := fun h => shapeTwo h

theorem watchTimeout (m t : Nat) : Statement (.watchTimeout m t) := fun h => shapeTwo h

theorem watchEntryFree (m t : Nat) : Statement (.watchEntryFree m t) := fun h => shapeTwo h

theorem postSlotFree (m t : Nat) : Statement (.postSlotFree m t) := fun h => shapeTwo h

theorem copyIn (m k : Nat) : Statement (.copyIn m k) := fun h => shapeTwo h

theorem copyOut (m k : Nat) : Statement (.copyOut m k) := fun h => shapeTwo h

theorem mesh (m k : Nat) : Statement (.mesh m k) := fun h => shapeTwo h

theorem localCopy (m k : Nat) : Statement (.localCopy m k) := fun h => shapeTwo h

theorem addOut (m k : Nat) : Statement (.addOut m k) := fun h => shapeTwo h

theorem halyardComplete (m k : Nat) : Statement (.halyardComplete m k) := fun h => shapeTwo h

theorem meshArrival (m k : Nat) : Statement (.meshArrival m k) := fun h => shapeTwo h

theorem meshAck (m k : Nat) : Statement (.meshAck m k) := fun h => shapeTwo h

theorem matmul (m : Nat) : Statement (.matmul m) := fun h => shapeOne h

theorem aclr (m : Nat) : Statement (.aclr m) := fun h => shapeOne h

theorem adapt (m : Nat) : Statement (.adapt m) := fun h => shapeOne h

theorem send (m : Nat) : Statement (.send m) := fun h => shapeOne h

theorem mainsailComplete (m : Nat) : Statement (.mainsailComplete m) := fun h => shapeOne h

theorem copy (m : Nat) : Statement (.copy m) := fun h => shapeOne h

theorem jibAdd (m : Nat) : Statement (.jibAdd m) := fun h => shapeOne h

theorem jibSub (m : Nat) : Statement (.jibSub m) := fun h => shapeOne h

theorem jibMul (m : Nat) : Statement (.jibMul m) := fun h => shapeOne h

theorem fma (m : Nat) : Statement (.fma m) := fun h => shapeOne h

theorem jibMin (m : Nat) : Statement (.jibMin m) := fun h => shapeOne h

theorem jibMax (m : Nat) : Statement (.jibMax m) := fun h => shapeOne h

theorem mul3 (m : Nat) : Statement (.mul3 m) := fun h => shapeOne h

theorem exp (m : Nat) : Statement (.exp m) := fun h => shapeOne h

theorem log (m : Nat) : Statement (.log m) := fun h => shapeOne h

theorem recip (m : Nat) : Statement (.recip m) := fun h => shapeOne h

theorem rsqrt (m : Nat) : Statement (.rsqrt m) := fun h => shapeOne h

theorem sqrt (m : Nat) : Statement (.sqrt m) := fun h => shapeOne h

theorem reluGrad (m : Nat) : Statement (.reluGrad m) := fun h => shapeOne h

theorem geluGrad (m : Nat) : Statement (.geluGrad m) := fun h => shapeOne h

theorem siluGrad (m : Nat) : Statement (.siluGrad m) := fun h => shapeOne h

theorem sigmoidGrad (m : Nat) : Statement (.sigmoidGrad m) := fun h => shapeOne h

theorem rsum (m : Nat) : Statement (.rsum m) := fun h => shapeOne h

theorem rsumsq (m : Nat) : Statement (.rsumsq m) := fun h => shapeOne h

theorem rmax (m : Nat) : Statement (.rmax m) := fun h => shapeOne h

theorem rmaxabs (m : Nat) : Statement (.rmaxabs m) := fun h => shapeOne h

theorem rmstat (m : Nat) : Statement (.rmstat m) := fun h => shapeOne h

theorem rmsstat (m : Nat) : Statement (.rmsstat m) := fun h => shapeOne h

theorem norm (m : Nat) : Statement (.norm m) := fun h => shapeOne h

theorem skip (m : Nat) : Statement (.skip m) := fun h => shapeOne h

theorem jibComplete (m : Nat) : Statement (.jibComplete m) := fun h => shapeOne h

theorem launchCopyDone (m : Nat) : Statement (.launchCopyDone m) := fun h => shapeOne h

theorem shutterEntry (m : Nat) : Statement (.shutterEntry m) := fun h => shapeOne h

theorem shutteredWake (m : Nat) : Statement (.shutteredWake m) := fun h => shapeOne h

theorem mastPowerRequest (who : Who) (m value : Nat) : Statement (.mastPowerRequest who m value) :=
  fun h => shapeLastOne h

theorem mastPowerDown (m : Nat) : Statement (.mastPowerDown m) := fun h => shapeOne h

theorem wickWakeDone (m : Nat) : Statement (.wickWakeDone m) := fun h => shapeOne h

theorem darkWakeDone (m : Nat) : Statement (.darkWakeDone m) := fun h => shapeOne h

theorem directoryRequest (agent line : Nat) (ask : LineAsk) : Statement (.directoryRequest agent line ask) :=
  fun h => shapeOneMore h

theorem fillArrival (agent line : Nat) : Statement (.fillArrival agent line) := fun h => shapeOneMore h

theorem forwardedRead (agent line : Nat) : Statement (.forwardedRead agent line) := fun h => shapeOneMore h

theorem invalidate (agent line : Nat) : Statement (.invalidate agent line) := fun h => shapeOneMore h

theorem memAccessComplete (channel wrong : Nat) : Statement (.memAccessComplete channel wrong) := fun h => shapeOneMore h

theorem trackerGrantTimeout (channel : Nat) : Statement (.trackerGrantTimeout channel) := fun h => shapeOne h

theorem patrolScrub (stack wrong : Nat) : Statement (.patrolScrub stack wrong) := fun h => shapeOneMore h

theorem hbmTempSample (stack temp : Nat) : Statement (.hbmTempSample stack temp) := fun h => shapeOne h

theorem hotWindowEnd (d : Nat) : Statement (.hotWindowEnd d) := fun h => shapeOne h

theorem heldDrainStart (d p pane : Nat) : Statement (.heldDrainStart d p pane) := fun h => shapeThree h

theorem paneDrainEnd (d p pane : Nat) : Statement (.paneDrainEnd d p pane) := fun h => shapeThree h

theorem lanternFlush (d : Nat) : Statement (.lanternFlush d) := fun h => shapeOne h

theorem trimCheck (d : Nat) : Statement (.trimCheck d) := fun h => shapeOne h

theorem trimHeldRecheck (p e : Nat) : Statement (.trimHeldRecheck p e) := fun h => shapeTwo h

theorem trimUpdateComplete (p e : Nat) : Statement (.trimUpdateComplete p e) := fun h => shapeTwo h

theorem bondBeatReceive (m : Nat) (upward : Bool) (beat : Option Nat) (flips : Nat) (sidebandBad : Bool) :
    Statement (.bondBeatReceive m upward beat flips sidebandBad) :=
  fun h => shapeOneMore2 h

theorem bondWindowEnd (d : Nat) : Statement (.bondWindowEnd d) := fun h => shapeOne h

theorem ratlineDataFlit (d side : Nat) (fresh : Option RatBody) (flips : Nat) :
    Statement (.ratlineDataFlit d side fresh flips) :=
  fun h => shapeTwoMore h

theorem ratlineNak (d side : Nat) : Statement (.ratlineNak d side) := fun h => shapeTwo h

theorem ratlineCredit (d side : Nat) : Statement (.ratlineCredit d side) := fun h => shapeTwo h

theorem ratlineRetire (d side : Nat) : Statement (.ratlineRetire d side) := fun h => shapeTwo h

theorem ratlineSwitch (d side : Nat) (spareLocks : Bool) : Statement (.ratlineSwitch d side spareLocks) :=
  fun h => shapeTwo h

theorem ratlineWidth (d side : Nat) (word : WidthWord) : Statement (.ratlineWidth d side word) := fun h => shapeTwo h

theorem ratlineRetryTimeout (d side : Nat) : Statement (.ratlineRetryTimeout d side) := fun h => shapeTwo h

theorem ratlineControlResend (d side : Nat) : Statement (.ratlineControlResend d side) := fun h => shapeTwo h

theorem ratlineLaneWindowEnd (d side : Nat) : Statement (.ratlineLaneWindowEnd d side) := fun h => shapeTwo h

theorem ratlineElectricalDone (d side bad : Nat) :
    Statement (.ratlineElectricalDone d side bad) := fun h => shapeTwo h

theorem ratlineMapExchangeDone (d side : Nat) : Statement (.ratlineMapExchangeDone d side) := fun h => shapeTwo h

theorem ratlineMapTimeout (d side : Nat) : Statement (.ratlineMapTimeout d side) := fun h => shapeTwo h

theorem ratlineLinkOff (link : Nat) : Statement (.ratlineLinkOff link) := fun h => shapeOne h

theorem stayPresenceDetected (p : Nat) : Statement (.stayPresenceDetected p) := fun h => shapeOne h

theorem stayRateAlternate (p : Nat) : Statement (.stayRateAlternate p) := fun h => shapeOne h

theorem stayElectricalDone (p healthy roundTripNs : Nat) (word : WidthWord) :
    Statement (.stayElectricalDone p healthy roundTripNs word) :=
  fun h => shapeOne h

theorem capability (p : Nat) (msg : CapabilityMsg) : Statement (.capability p msg) := fun h => shapeOneMore2 h

theorem identity (p : Nat) (msg : IdentityMsg) : Statement (.identity p msg) := fun h => shapeOneMore3 h

theorem keying (p : Nat) (msg : KeyingMsg) : Statement (.keying p msg) := fun h => shapeOneMore2 h

theorem stayPartnerLost (p : Nat) : Statement (.stayPartnerLost p) := fun h => shapeOne h

theorem stayDataFlit (p : Nat) (flit : StayFlit) : Statement (.stayDataFlit p flit) := fun h => shapeOneMore h

theorem idle (p : Nat) (flit : StayFlit) : Statement (.idle p flit) := fun h => shapeOneMore h

theorem nak (p : Nat) (flit : StayFlit) : Statement (.nak p flit) := fun h => shapeOneMore h

theorem credit (p : Nat) (flit : StayFlit) : Statement (.credit p flit) := fun h => shapeOneMore h

theorem width (p : Nat) (flit : StayFlit) : Statement (.width p flit) := fun h => shapeOneMore h

theorem switch (p : Nat) (flit : StayFlit) : Statement (.switch p flit) := fun h => shapeOneMore h

theorem keyswitch (p : Nat) (flit : StayFlit) : Statement (.keyswitch p flit) := fun h => shapeOneMore h

theorem stayRetryTimeout (p : Nat) : Statement (.stayRetryTimeout p) := fun h => shapeOne h

theorem stayKeyRefresh (p : Nat) : Statement (.stayKeyRefresh p) := fun h => shapeOne h

theorem stayFecWindowEnd (p : Nat) (uncorrectable : List Nat) (corrected : Nat) :
    Statement (.stayFecWindowEnd p uncorrectable corrected) :=
  fun h => shapeOne h

theorem stayRetrainDone (p : Nat) (word : WidthWord) : Statement (.stayRetrainDone p word) := fun h => shapeOne h

theorem stayTagWindowEnd (p : Nat) : Statement (.stayTagWindowEnd p) := fun h => shapeOne h

theorem stayCreditStarved (p vc : Nat) : Statement (.stayCreditStarved p vc) := fun h => shapeTwo h

theorem stayShutdownEnd (p : Nat) : Statement (.stayShutdownEnd p) := fun h => shapeOne h

theorem discoverySend (p : Nat) : Statement (.discoverySend p) := fun h => shapeOne h

theorem discovery (p : Nat) (msg : DiscoveryMsg) : Statement (.discovery p msg) := fun h => shapeOneMore h

theorem discoveryStale (entry : Nat) : Statement (.discoveryStale entry) := fun h => shapeOne h

theorem dictRequest (p src tid : Nat) (datagram : Octets) : Statement (.dictRequest p src tid datagram) :=
  fun h => shapeOneMore3 h

theorem backupRequest (p src : Nat) (msg : BackupMsg) :
    Statement (.backupRequest p src msg) := fun h => shapeOneMore h

theorem backupRelease (p src : Nat) (msg : BackupMsg) :
    Statement (.backupRelease p src msg) := fun h => shapeOneMore h

theorem chunk (p src : Nat) (c : Chunk) : Statement (.chunk p src c) := fun h => shapeOneMore2 h

theorem chunkHoldExpiry (n : Nat) : Statement (.chunkHoldExpiry n) := fun _ _ h => nomatch h

theorem postedWrite (p : Nat) (msg : RemoteMsg) : Statement (.postedWrite p msg) := fun h => shapeOneMore2 h

theorem readReq (p : Nat) (msg : RemoteMsg) : Statement (.readReq p msg) := fun h => shapeOneMore2 h

theorem readResp (p : Nat) (msg : RemoteMsg) : Statement (.readResp p msg) := fun h => shapeOneMore2 h

theorem writeReq (p : Nat) (msg : RemoteMsg) : Statement (.writeReq p msg) := fun h => shapeOneMore2 h

theorem writeAck (p : Nat) (msg : RemoteMsg) : Statement (.writeAck p msg) := fun h => shapeOneMore2 h

theorem phaseTrigger (s : Nat) : Statement (.phaseTrigger s) := fun h => shapeOne h

theorem phaseComplete (s : Nat) : Statement (.phaseComplete s) := fun h => shapeOne h

theorem deadlineMissed (s : Nat) : Statement (.deadlineMissed s) := fun h => shapeOne h

theorem planAbort (who : Who) (s value : Nat) : Statement (.planAbort who s value) := fun h => shapeLastOne h

theorem planAbortDone (s : Nat) : Statement (.planAbortDone s) := fun h => shapeOne h

theorem deferredFlip : Statement (.deferredFlip) := fun _ _ h => nomatch h

theorem hello : Statement (.hello) := fun _ _ h => nomatch h

theorem discover (fromAddr seq : Nat) : Statement (.discover fromAddr seq) := fun _ _ h => nomatch h

theorem sessionInit (fromAddr seq : Nat) (nonce key chain : Octets) :
    Statement (.sessionInit fromAddr seq nonce key chain) :=
  fun _ _ h => nomatch h

theorem sessionConfirm (env : Envelope) (sig : Octets) : Statement (.sessionConfirm env sig) := fun _ _ h => nomatch h

theorem claim (env : Envelope) : Statement (.claim env) := fun _ _ h => nomatch h

theorem close (env : Envelope) : Statement (.close env) := fun _ _ h => nomatch h

theorem read (env : Envelope) (index sub : Nat) (staged : Bool) : Statement (.read env index sub staged) :=
  fun h => shapeTwo h

theorem write (env : Envelope) (index sub : Nat) (value : Octets) : Statement (.write env index sub value) :=
  fun h => shapeTwoMore h

theorem readSeg (env : Envelope) (index sub offset length : Nat) (staged : Bool) :
    Statement (.readSeg env index sub offset length staged) :=
  fun h => shapeTwo h

theorem writeSeg (env : Envelope) (index sub offset : Nat) (data : Octets) (fin : Bool) :
    Statement (.writeSeg env index sub offset data fin) :=
  fun h => shapeTwoMore h

theorem list (env : Envelope) (first count : Nat) : Statement (.list env first count) := fun h => shapeTwo h

theorem describe (env : Envelope) (index sub : Nat) : Statement (.describe env index sub) := fun h => shapeTwo h

theorem eventRead (env : Envelope) (rseq count : Nat) :
    Statement (.eventRead env rseq count) := fun _ _ h => nomatch h

theorem eventAck (env : Envelope) (rseq : Nat) : Statement (.eventAck env rseq) := fun _ _ h => nomatch h

theorem subscribe (env : Envelope) (on : Bool) : Statement (.subscribe env on) := fun _ _ h => nomatch h

theorem sessionTimeout (session : Nat) : Statement (.sessionTimeout session) :=
  fun h => shapeOne (decide_eq_true (Nat.lt_succ_of_le (of_decide_eq_true (Bool.and_elim_right h))))

theorem eventRingOverflow (ring : Nat) : Statement (.eventRingOverflow ring) := fun h => shapeOne h

theorem snapshotPost (index : Nat) : Statement (.snapshotPost index) := fun h => shapeOne h

theorem mailboxAlloc (core : Nat) : Statement (.mailboxAlloc core) := fun h => shapeOne h

theorem mailboxSubmit (core slot : Nat) : Statement (.mailboxSubmit core slot) := fun h => shapeOne h

theorem mailboxFree (core slot : Nat) : Statement (.mailboxFree core slot) := fun h => shapeOne h

theorem commitRequest (who : Who) (token : Nat) : Statement (.commitRequest who token) := fun _ _ h => nomatch h

theorem commitChecksDone : Statement (.commitChecksDone) := fun _ _ h => nomatch h

theorem stagingDiscard (who : Who) (value : Nat) : Statement (.stagingDiscard who value) := fun _ _ h => nomatch h

theorem rdidxWrite (core ring value : Nat) : Statement (.rdidxWrite core ring value) := fun h => shapeTwo h

theorem registerWrite (who : Who) (index sub : Nat) (value : Octets) :
    Statement (.registerWrite who index sub value) := by
  intro h
  have h : (who.fits && index < 65536 && sub < 256 && value.fits) = true := h
  change ∀ u ∈ [(index, 65536), (sub, 256)], u.1 < u.2
  simp at h ⊢
  omega

theorem grantRequest (m : Nat) : Statement (.grantRequest m) := fun h => shapeOne h

theorem pilotRestarted : Statement (.pilotRestarted) := fun _ _ h => nomatch h

theorem powerOn (tPilot : Nat) : Statement (.powerOn tPilot) := fun _ _ h => nomatch h

theorem powerLoss : Statement (.powerLoss) := fun _ _ h => nomatch h

theorem powerSample (watts millivolts : Nat) : Statement (.powerSample watts millivolts) := fun _ _ h => nomatch h

theorem capEvaluate : Statement (.capEvaluate) := fun _ _ h => nomatch h

theorem powerCapWrite (who : Who) (watts : Nat) : Statement (.powerCapWrite who watts) := fun _ _ h => nomatch h

theorem thermalThrottle (sensor reading : Nat) : Statement (.thermalThrottle sensor reading) := fun h => shapeOne h

theorem thermalWindowEnd (readings : List (Nat × Nat)) : Statement (.thermalWindowEnd readings) :=
  fun _ _ h => nomatch h

theorem thermalShutdown (sensor reading : Nat) : Statement (.thermalShutdown sensor reading) := fun h => shapeOne h

theorem inputUndervoltage (millivolts : Nat) : Statement (.inputUndervoltage millivolts) := fun _ _ h => nomatch h

theorem inputOvervoltage (millivolts : Nat) : Statement (.inputOvervoltage millivolts) := fun _ _ h => nomatch h

theorem domainForceDark (d : Nat) : Statement (.domainForceDark d) := fun h => shapeOne h

theorem domainOff (d : Nat) : Statement (.domainOff d) := fun h => shapeOne h

theorem domainOn (d : Nat) : Statement (.domainOn d) := fun h => shapeOne h

theorem startupStep (fails : Bool) (cause : Nat) : Statement (.startupStep fails cause) := fun _ _ h => nomatch h

theorem hostReady (who : Who) (value : Nat) : Statement (.hostReady who value) := fun _ _ h => nomatch h

theorem packageReset (who : Who) (value : Nat) : Statement (.packageReset who value) := fun _ _ h => nomatch h

theorem partitionReset (who : Who) (p value : Nat) :
    Statement (.partitionReset who p value) := fun h => shapeLastOne h

theorem domainReset (who : Who) (d value : Nat) : Statement (.domainReset who d value) := fun h => shapeLastOne h

theorem portReset (who : Who) (sub value : Nat) : Statement (.portReset who sub value) := fun _ _ h => nomatch h

theorem resetComplete (kind scope : Nat) : Statement (.resetComplete kind scope) := fun _ _ h => nomatch h

theorem domainResetTimeout (d : Nat) : Statement (.domainResetTimeout d) := fun h => shapeOne h

theorem resetreq (value : Nat) : Statement (.resetreq value) := fun _ _ h => nomatch h

theorem recoveryImage (image : Octets) : Statement (.recoveryImage image) := fun _ _ h => nomatch h

theorem firmwareImageWrite (who : Who) (kind : Nat) (image : Octets) :
    Statement (.firmwareImageWrite who kind image) := by
  intro h
  have h : (who.fits && kind < 2 && image.fits) = true := h
  change ∀ u ∈ [(kind, 2)], u.1 < u.2
  simp at h ⊢
  omega

theorem svnRaise (who : Who) (kind value : Nat) : Statement (.svnRaise who kind value) := fun h => shapeLastOne h

theorem attestationNonce (who : Who) (nonce : Octets) : Statement (.attestationNonce who nonce) :=
  fun _ _ h => nomatch h

theorem debugToken (who : Who) (token : Octets) : Statement (.debugToken who token) := fun _ _ h => nomatch h

theorem debugRelock (who : Who) (value : Nat) : Statement (.debugRelock who value) := fun _ _ h => nomatch h

theorem debugLifeExpiry : Statement (.debugLifeExpiry) := fun _ _ h => nomatch h

theorem partitionStop (who : Who) (p value : Nat) : Statement (.partitionStop who p value) := fun h => shapeLastOne h

theorem lamplighterAccess (core : Nat) (store : Bool) (addr len data : Nat) :
    Statement (.lamplighterAccess core store addr len data) :=
  fun h => shapeOneMore3 h

theorem mgmtLinkAttempt (links : Bool) : Statement (.mgmtLinkAttempt links) := fun _ _ h => nomatch h

theorem ratlineTrainingFramesSeen (d side : Nat) :
    Statement (.ratlineTrainingFramesSeen d side) := fun h => shapeTwo h

theorem stayControlResend (p : Nat) : Statement (.stayControlResend p) := fun h => shapeOne h

theorem ratlineIdle (d side : Nat) : Statement (.ratlineIdle d side) := fun h => shapeTwo h

theorem dynamicAddress (addr : Nat) : Statement (.dynamicAddress addr) := fun h => shapeOne h

end Sys2Proof.Laws.WellFormedUnits
end

