-- ==== Sys2Proof/Tests/Slice0.lean ====
section
/-! SUPPORT. The author's own tests: ill-formed terms that the checks refuse, a state and operands for the hypotheses of
each statement, and single steps on small states whose results are worked out from the spec. -/
namespace Sys2Proof.Tests
set_option Elab.async false
open Sys2Proof.Machine

/-! ### Ill-formed commands, one for each check -/

def okFlit : StayFlit := ⟨0, 0, 0, 0, 0, false, 0, 0, 0, 0, 0, 0, 0, 0, 0⟩
def okChunk : Chunk := ⟨0, 0, 0, 0, 0, 0, 0, false, 0, false, false, 0, 0, 0, 0, 0, false⟩
def okMsg : RemoteMsg := ⟨10, false, 0, 0, 0, 0, 0, 0⟩
def okEnv : Envelope := ⟨1, 1, 0⟩

/-- No mast 3072, thread 512, stream 2, die 16, port 7, side 4, core 16, agent 18, channel 2048, stack 32 (R1 to R5). -/
theorem test_illFormed_units :
    [Instr.add 3072 0, .add 0 512, .copyIn 0 2, .hotWindowEnd 16, .keying 7 ⟨0, ⟨0, 0⟩, ⟨0, 0⟩⟩, .ratlineNak 0 4,
     .mailboxAlloc 16, .fillArrival 18 0, .trackerGrantTimeout 2048, .patrolScrub 32 0, .patrolScrub 0 73, .memAccessComplete 2048 0, .ratlineLinkOff 24,
     .matmul 3072, .phaseTrigger 64, .sessionTimeout 0, .sessionTimeout 9, .eventRingOverflow 17, .thermalShutdown 384 0,
     .partitionStop (.host 0) 16 1, .discoveryStale 64, .dynamicAddress 128, .mastPowerRequest (.host 16) 0 0,
     .mastPowerRequest (.operator 8) 0 0, .mastPowerRequest (.peer 7) 0 0, .heldDrainStart 0 16 0, .paneDrainEnd 0 0 2,
     .trimHeldRecheck 0 65536, .fillArrival 0 (2 ^ 34), .resetComplete 6 0, .svnRaise (.operator 0) 2 0,
     .stayCreditStarved 0 16].all (fun i => !i.wellFormed) = true := by decide +kernel

/-- A field wider than the spec gives it. -/
theorem test_illFormed_fields :
    [Instr.stayDataFlit 0 { okFlit with hops := 128 }, .stayDataFlit 0 { okFlit with seq := 4096 },
     .idle 0 { okFlit with vc := 16 }, .ratlineDataFlit 0 0 (some ⟨16, 0, 0, false, false, .other⟩) 0, .ratlineDataFlit 0 0 (some ⟨0, 57, 0, false, false, .other⟩) 0,
     .ratlineDataFlit 0 0 (some ⟨13, 0, 0, true, false, .other⟩) 0,
     .chunk 0 0 { okChunk with rank := 64 }, .chunk 0 0 { okChunk with len := 2 ^ 20 + 1 }, .chunk 0 (2 ^ 18) okChunk,
     .postedWrite 0 { okMsg with data := 1 }, .readReq 0 { okMsg with src := 2 ^ 18 }, .write okEnv 65536 0 ⟨0, 0⟩,
     .write okEnv 0 256 ⟨0, 0⟩, .write okEnv 0 0 ⟨1, 256⟩, .list okEnv 65536 0, .lamplighterAccess 0 false 0 65 0,
     .lamplighterAccess 0 false (2 ^ 52) 8 0, .bondBeatReceive 0 true (some (2 ^ 1024)) 0 false,
     .bondBeatReceive 0 true none (2 ^ 1024) false, .capability 0 ⟨2 ^ 64, ⟨0, 0⟩, 0⟩, .identity 0 ⟨2 ^ 32, 0, ⟨0, 0⟩, ⟨0, 0⟩⟩,
     .discovery 0 ⟨0, 2 ^ 32, 0, 0, 0⟩, .thermalWindowEnd [(384, 0)], .recoveryImage ⟨0, 1⟩,
     .dictRequest 0 0 0 ⟨1, 256⟩, .dictRequest 0 0 65536 ⟨0, 0⟩].all (fun i => !i.wellFormed) = true := by decide +kernel

/-- The same commands with values that fit are well formed. -/
theorem test_wellFormed :
    [Instr.add 3071 511, .copyIn 0 1, .ratlineNak 15 3, .stayDataFlit 6 okFlit, .chunk 0 0 okChunk, .postedWrite 0 okMsg,
     .ratlineDataFlit 0 0 (some ⟨15, 56, 0, false, false, .other⟩) 0, .write okEnv 65535 255 ⟨1, 255⟩, .patrolScrub 31 72,
     .lamplighterAccess 15 true 0 64 (2 ^ 512 - 1), .discover 0 0, .powerLoss].all Instr.wellFormed = true := by decide +kernel

/-- The manual's own example of R479, Y+ lane 9, and its example of R494, sensor 166; a corner die has 8 lanes, die 1
12. -/
theorem test_lands_and_sensors :
    (localLanes 14)[1]? = some (2, 9) ∧ laneLands 14 1 = [(94, 54), (94, 55), (92, 54), (92, 55)] ∧
    (localLanes 1).length = 12 ∧ (localLanes 12).length = 8 ∧ (localLanes 13).length = 8 ∧
    sensorPlace 166 = (10, .inl (3, 8)) ∧ sensorPlace 383 = (15, .inr 7) := by decide +kernel

/-- The I3C registers at reset (Table 15.6): ID 3216h, variant T, generation 2; STATE 1 (Standby). -/
theorem test_i3c_reset : ({} : State).i3cRegs.slice 0 5 = ⟨5, 0x0102003216⟩ := by decide +kernel

/-- No row of the table has bits, so no word spells a command and the queue stays as it is. -/
theorem test_no_word (n w : Nat) (s : State) : decodeTableWord n w = none ∧ s.withFetchWord n w = s := ⟨rfl, rfl⟩

/-! ### States with one thread -/

/-- A control-core word (Table 3.3). -/
def code (op : Nat) (d : Nat := 0) (sa : Nat := 0) (sb : Nat := 0) (imm : Nat := 0) : Nat :=
  op * 2 ^ 56 + d * 2 ^ 51 + sa * 2 ^ 46 + sb * 2 ^ 41 + imm % 2 ^ 41

/-- Mast 0 Lit with thread 0 Ready at the word `w` at address 0, and registers. -/
def lone (w : Nat) (regs : FMap Word64 := []) : Mast :=
  { power := .lit, threads := [(0, { run := .ready, regs := regs })], pad := FMap.writeLE [] 0 8 w }

def core (w : Nat) (regs : FMap Word64 := []) : State := { masts := [(0, lone w regs)] }

/-- Register `r` of thread 0 of mast 0 after a step. -/
def regAfter (r : Nat) (x : Result) : Option Word64 :=
  match x with | .next t => some (((t.mast 0).thread 0).reg r) | _ => none

/-- Its program counter. -/
def pcAfter (x : Result) : Option (BitVec 20) :=
  match x with | .next t => some ((t.mast 0).thread 0).pc | _ => none

/-- A value of the dictionary after a step. -/
def valAfter (i j : Nat) (x : Result) : Option Nat := match x with | .next t => some (t.val i j) | _ => none

/-- A partition 0 that owns mast 0, with one window from address 0, 2^19 bytes long, with every right. -/
def withPart (s : State) : State :=
  { s with parts := [(0, { st := .live })],
           dict := [(0x711001, ⟨8, 2 ^ 23 + 31 * 2 ^ 50⟩), (0x712001, ⟨384, 1⟩)] }

/-! ### Witnesses of the control core -/

theorem wit_AluResults : ∀ row ∈ aluRows, (core (code row.2.1)).issues 0 0 row.2.1 = true := by decide +kernel

theorem wit_Branches : ∀ op ∈ [0x00, 0x20, 0x21, 0x22, 0x23, 0x10, 0x11], (core (code op)).issues 0 0 op = true := by
  decide +kernel

/-- LDS at the last address, at the first outside, and the same of STS. -/
theorem wit_Scratchpad :
    ∀ op ∈ [0x10, 0x11],
      let in' := core (code op (sa := 1)) [(1, 0xFFFFF#64)]
      let out := core (code op (sa := 1)) [(1, 0x100000#64)]
      (in'.issues 0 0 op = true ∧ ((in'.operands 0 0).sa + (in'.operands 0 0).imm).toNat = 2 ^ 20 - 1) ∧
      (out.issues 0 0 op = true ∧ 2 ^ 20 = ((out.operands 0 0).sa + (out.operands 0 0).imm).toNat) := by decide +kernel

/-- Waits of thread 0: a word on its way, a watched word, a WATCH that has no entry. -/
def waiting (run : ThreadState) (w : Wait) : State := { masts := [(0, { power := .lit, threads := [(0, { run, wait := w })] })] }

theorem wit_MemoryWords :
    (core (code 0x12)).issues 0 0 0x12 = true ∧ (core (code 0x13)).issues 0 0 0x13 = true ∧
    (∀ a ∈ [none, some 8], let s := waiting .stalled (.result 1 5#64 a)
      ((s.mast 0).thread 0).wait = .result 1 5#64 a ∧ s.awaits (threadWho 0 0) = false) ∧
    ((withPart (core 0)).admits (some 0) 0 8 [rightRd] && !(withPart (core 0)).badRange 0 8) = true := by decide +kernel

theorem wit_AtomicWords : (core (code 0x14)).issues 0 0 0x14 = true ∧ (core (code 0x15)).issues 0 0 0x15 = true := by
  decide +kernel

/-- A mast whose thread 0 posts the 64 bytes at 64, with a queue `q` of engine `e`. -/
def posting (desc e : Nat) (q : List Posted) : State :=
  let x := lone (code 0x30 (imm := 64))
  { masts := [(0, { x with pad := FMap.writeLE x.pad 64 64 desc, queues := FMap.set [] e [] q })] }

def filler : Posted := { desc := 2, thread := 9, num := 0, compat := false }

theorem wit_PostDescriptors :
    (∀ ed ∈ [(0, 2), (1, 2 + 2 ^ 463), (2, 2 + 64), (3, 2 + 128)], ∀ full ∈ [false, true],
      let s := posting ed.2 ed.1 (if full then List.replicate (queueSize ed.1) filler else [])
      let a := ((s.operands 0 0).sa + (s.operands 0 0).imm).toNat
      let desc := (s.mast 0).padRead a 64
      s.issues 0 0 0x30 = true ∧ a < 2 ^ 20 ∧ a % 64 = 0 ∧ headerBad desc = false ∧ engineOf desc = some ed.1 ∧
        field desc 147 128 % 64 = 0 ∧
        decide (((s.mast 0).queue ed.1).length < queueSize ed.1) = !full ∧
        (s.mast 0).earlierStalled ed.1 (s.mast 0).posts = false) ∧
    (let s := waiting .stalled (.slot filler)
     ((s.mast 0).thread 0).stalledPost = some (0, filler) ∧ (s.mast 0).earlierStalled 0 filler.num = false ∧
        ((s.mast 0).queue 0).length < queueSize 0) := by decide +kernel

/-- A descriptor at no multiple of 64, and one of a reserved version. -/
theorem wit_PostDescriptors_bad :
    (let s := core (code 0x30 (imm := 8))
     s.issues 0 0 0x30 = true ∧ ((s.operands 0 0).sa + (s.operands 0 0).imm).toNat % 64 ≠ 0) ∧
    (let s := posting 0 0 []
     s.issues 0 0 0x30 = true ∧ headerBad ((s.mast 0).padRead 64 64) = true) := by decide +kernel

/-- An earlier POST of thread 1 to the same engine that is stalled. -/
theorem wit_PostDescriptors_order :
    let x : Mast := { power := .lit, posts := 4, threads := [(1, { run := .stalled, wait := .slot filler })] }
    x.earlierStalled 0 x.posts = true := by decide +kernel

theorem wit_CompletionCounters :
    (∀ op ∈ [0x31, 0x34, 0x35], (core (code op)).issues 0 0 op = true) ∧
    (let s := core (code 0x31 (sb := 1)) [(1, 1#64)]
     s.issues 0 0 0x31 = true ∧ (((s.mast 0).counter 0).val - (s.operands 0 0).sb.setWidth 32).toInt < 0) ∧
    0 ≤ (((core 0).mast 0).counter 0).val.toInt := by decide +kernel

/-- A mast with `n` threads that watch. -/
def watchers (n : Nat) (w : Nat) : State :=
  let x := lone w
  { masts := [(0, { x with threads := x.threads ++ (List.range n).map fun k =>
      (k + 1, ({ run := .watching, wait := .watch 0 0#64 none 0 false } : Thread)) })] }

theorem wit_Watches :
    ((watchers 15 (code 0x32)).issues 0 0 0x32 = true ∧ ((watchers 15 0).mast 0).watchers < 16) ∧
    ((watchers 16 (code 0x32)).issues 0 0 0x32 = true ∧ 16 ≤ ((watchers 16 0).mast 0).watchers) ∧
    (let s := withPart (waiting .watching (.watch 0 7#64 (some 0) 1 true))
     ((s.mast 0).thread 0).wait = .watch 0 7#64 (some 0) 1 true ∧ (s.admits (s.partOfMast 0) 0 8 [rightRd] &&
       !s.badRange 0 8) = true ∧ (BitVec.ofNat 64 (s.load 0 8) == 7#64) = false ∧ 0 ≤ s.tick) ∧
    (let s := withPart (waiting .watching (.watch 0 0#64 (some 0) 1 true))
     (s.admits (s.partOfMast 0) 0 8 [rightRd] && !s.badRange 0 8) = true ∧ (BitVec.ofNat 64 (s.load 0 8) == 0#64) = true) ∧
    (let s := waiting .watching (.watch 0 0#64 none 1 true)
     (s.admits (s.partOfMast 0) 0 8 [rightRd] && !s.badRange 0 8) = false) ∧
    ((waiting .stalled (.entry 0 0#64 0 1)).mast 0).watchers < 16 := by decide +kernel

theorem wit_FetchWork :
    (core (code 0x33)).issues 0 0 0x33 = true ∧
    (let s := waiting .stalled (.fetched 2 0#64 0)
     ((s.mast 0).thread 0).wait = .fetched 2 0#64 0 ∧ s.awaits (threadWho 0 0) = false) ∧
    (let s := { withPart (core (code 0x33)) with mem := [(0, 1#8)] }
     (s.admits (s.partOfMast 0) 128 8 [rightAt] && s.admits (s.partOfMast 0) 0 8 [rightAt] && !s.badRange 0 8 &&
        !s.badRange 128 8 && decide (s.load 128 8 < s.load 0 8) && (s.mast 0).goal.isNone) = true) := by decide +kernel

/-- START of an Empty thread 1, START of itself (Ready), HALT, and each selector of RDSYS with a value. -/
theorem wit_ThreadControl :
    (let s := core (code 0x36 (imm := 1))
     s.issues 0 0 0x36 = true ∧ (s.operands 0 0).imm.toNat % 512 = 1 ∧ ((s.mast 0).thread 1).run = .empty ∧
       (s.mast 0).goal = none) ∧
    ((core (code 0x36)).issues 0 0 0x36 = true ∧ (((core 0).mast 0).thread 0).run = .ready) ∧
    (core (code 0x37)).issues 0 0 0x37 = true ∧
    (∀ n ∈ [0, 1, 2, 3, 4, 5, 6, 7, 255], (core (code 0x38 (imm := n))).issues 0 0 0x38 = true ∧
      ((core (code 0x38 (imm := n))).operands 0 0).imm.toNat % 256 = n) ∧
    (withPart (core 0)).partOfMast 0 = some 0 := by decide +kernel

theorem wit_ThreadFault :
    ((core (code 0xFF)).mast 0).mayIssue 0 = true ∧
    definedOpcode (((core (code 0xFF)).mast 0).fetch (((core (code 0xFF)).mast 0).thread 0)) = false ∧
    ((core 0).ring 0).owed = 0 ∧ ((core 0).ring 0).used < 16384 := by decide +kernel

/-- A number, a NaN and an E2M1 value. -/
theorem wit_WideningIsExact :
    fpFormatOf 2 = some b16Format ∧ 0x7FC0 < 2 ^ b16Format.width ∧ fpFormatOf 6 = some e2m1Format ∧ 7 < 2 ^ e2m1Format.width ∧
    b16Format.decode 0x7FC0 = .nan ∧ b16Format.decode 0x3F80 ≠ .nan := by decide +kernel

/-- The two largest and the tie between two integers. -/
theorem wit_IntegerConversion :
    (narrowInt 8 (.fin ⟨false, 5, -1⟩)).bits = 2 ∧ (narrowInt 8 (.fin ⟨false, 255, -1⟩)).note = .saturated ∧
    (narrowInt 8 (.fin ⟨true, 257, -1⟩)).bits = 0x80 ∧ (narrowInt 32 .nan).note = .nanZero := by decide +kernel

/-! ### Witnesses of the engines and of a mast's power -/

/-- Descriptor `desc` at the head of engine `e` of mast 0. -/
def headed (e desc : Nat) : State :=
  { masts := [(0, { power := .lit, queues := [(e, [{ desc, thread := 0, num := 0, compat := false }])] })] }

def headPost (desc : Nat) : Posted := { desc, thread := 0, num := 0, compat := false }

/-- One row of `n` bytes from 64 to 128 of the scratchpad, or of memory where the operation says so. -/
def rowDesc (op n : Nat) : Nat := 2 + op * 2 ^ 8 + 2 ^ 304 + 2 ^ 288 + n * 2 ^ 256 + 128 * 2 ^ 192 + 64 * 2 ^ 128

/-- One row of each operation; a COPY_IN whose row runs past the scratchpad. -/
theorem wit_HalyardStarts :
    (∀ op ∈ [0, 1, 2, 3, 4],
      let s := headed 1 (rowDesc op 8)
      let t := transferOf (rowDesc op 8)
      s.headOf 0 1 op = some (headPost (rowDesc op 8)) ∧ t.bad (rowDesc op 8) true = false ∧
        t.bad (rowDesc op 8) false = false ∧ t.dmast < 192 ∧ t.padReadsOk = true ∧ t.padWritesOk = true ∧ t.fmt = 0 ∧
        t.n2 = 1 ∧ t.n1 = 1 ∧ t.tr = false ∧
        (t.rows.any fun r => field (addr64 r.1) 63 62 = 1 || field (addr64 r.2) 63 62 = 1) = false) ∧
    (let d := rowDesc 0 8 + (2 ^ 20 - 132) * 2 ^ 192
     (headed 0 d).headOf 0 0 0 = some (headPost d) ∧ (transferOf d).bad d true = false ∧
       (transferOf d).padWritesOk = false) := by decide +kernel

/-- A descriptor of engine `e` of mast 0 in execution, and mast 5 of the same die Lit. -/
def running (e : Nat) (r : Running) : State :=
  { masts := [(0, { power := .lit, running := [(e, r)] }), (5, { power := .lit })] }

def meshRun (arrived : Bool) : Running := { post := headPost (rowDesc 2 8 + 5 * 2 ^ 448), arrived }

theorem wit_HalyardEnds :
    (let s := running 0 { post := headPost (rowDesc 0 8) }
     (s.mast 0).run 0 = some { post := headPost (rowDesc 0 8) } ∧ (s.mast 0).wild = none ∧ descOp (rowDesc 0 8) ≠ 2 ∧
       s.awaits (streamWho 0 0) = false) ∧
    (let s := running 1 (meshRun true)
     descOp (meshRun true).post.desc = 2 ∧ (s.mast 0).run 1 = some (meshRun true) ∧ (s.mast 0).wild = none ∧
       (meshRun true).arrived = true) ∧
    (let s : State := { running 1 (meshRun false) with parts := [(0, { st := .live })], dict := [(0x712001, ⟨384, 33⟩)] }
     (s.mast 0).run 1 = some (meshRun false) ∧ s.partOfMast 0 ≠ none ∧ s.partOfMast 5 = s.partOfMast 0 ∧
       (transferOf (meshRun false).post.desc).dmast = 5 ∧ (s.mast 5).power = .lit ∧ (s.mast 5).goal = none ∧
       (meshRun false).arrived = false) ∧
    (running 1 (meshRun false)).partOfMast 0 = none ∧
    (let s : State := { running 1 (meshRun false) with parts := [(0, { st := .live })], dict := [(0x712001, ⟨384, 1⟩)] }
     s.partOfMast 0 = some 0 ∧ s.partOfMast 5 ≠ s.partOfMast 0) := by decide +kernel

/-- A mainsail descriptor of one row, one group and the format `f` on both sides, with SHEET set or not. -/
def sailDesc (op f sheet : Nat) : Nat := 2 + 64 + op * 2 ^ 8 + f * 2 ^ 288 + f * 2 ^ 292 + sheet * 2 ^ 298

/-- Each operation with its rows free; a MATMUL whose operands run past the scratchpad; one that finds its row held. -/
theorem wit_MainsailDescriptors :
    (∀ op ∈ [0, 1, 2, 3], ∀ sheet ∈ [0, 1],
      let d := sailDesc op 2 sheet
      let s := headed 2 d
      let x := s.started 0 2
      let q := sailOf (headPost d)
      s.headOf 0 2 op = some (headPost d) ∧ sailReserved d = false ∧ x.anyHeld (accRows q.arb q.mr) = false ∧
        x.sheet.length < 16 ∧ q.sheet = (sheet == 1) ∧ matmulCheck q x = none ∧ adaptCheck q x = none ∧
        x.anyHeld (accRows q.arb q.mr ++ (if q.um ≠ 0 ∨ q.fin = true then q.interRows else [])) = false) ∧
    (∀ rec ∈ [none, some 7],
      let s := running 2 { post := headPost (sailDesc 0 2 0), record := rec }
      (s.mast 0).run 2 = some { post := headPost (sailDesc 0 2 0), record := rec } ∧ (s.mast 0).wild = none) := by
  decide +kernel

/-- A jib descriptor over one element at 0, F32 throughout, with its result at 1,024. -/
def jibDesc (op : Nat) : Nat := 2 + 128 + op * 2 ^ 8 + 1024 * 2 ^ 148

/-- Each operation; a COPY whose result would stand past the scratchpad. -/
theorem wit_JibDescriptors :
    (∀ row ∈ jibRows,
      let s := headed 3 (jibDesc row.2)
      let p := headPost (jibDesc row.2)
      s.headOf 0 3 row.2 = some p ∧ jibReserved p = false ∧ p.waitsForSheet (s.started 0 3) = false ∧
        (s.started 0 3).jibCheck (jibOf p) ((s.mast 0).sheet.take (jibOf p).shn) = none) ∧
    (let s := running 3 { post := headPost (jibDesc 0) }
     (s.mast 0).run 3 = some { post := headPost (jibDesc 0) } ∧ (s.mast 0).wild = none) := by decide +kernel

/-- Mast 0 in a power state. -/
def powered (x : Mast) : State := { masts := [(0, x)] }

theorem wit_MastLaunches :
    (∀ cause ∈ [0, 1, 3], ∀ valid ∈ [false, true],
      let l : Launch := { entry := 0, src := 0, len := 8, valid, pc0 := 8, arg := 1, cause }
      let s := powered { power := .lit, launch := some l }
      (s.mast 0).launch = some l ∧ (s.mast 0).wild = none ∧ s.awaits (streamWho 0 0) = false ∧ s.launchCause l = cause) ∧
    (∀ p ∈ [MastPower.wakingWick, .wakingDark, .wakingToWick], ((powered { power := p }).mast 0).power = p) := by
  decide +kernel

theorem wit_MastPowerStates :
    (powered { power := .lit }).mayShutter 0 = true ∧
    (let s := powered { power := .shuttered, threads := [(3, { run := .ready })] }
     (s.mast 0).power = .shuttered ∧ ((s.mast 0).threads.any fun e => e.2.run == .ready) = true) ∧
    (let s := powered { power := .shuttered, goal := some .dark }
     (s.mast 0).power = .shuttered ∧ (s.mast 0).goal.isSome = true) ∧
    (∀ g ∈ [MastPower.wick, .dark], ∀ held ∈ [false, true],
      let s := powered { power := .lit, goal := some g, held }
      (s.mast 0).goal = some g ∧ s.mayPowerDown 0 = true) ∧
    (∀ pkg ∈ [1, 3],
      let s : State := { masts := [(0, { power := .wick })], dict := [(0x200001, ⟨1, pkg⟩), (0x232001, ⟨1, 0⟩)] }
      (s.mast 0).goal = none ∧ (s.mast 0).power = .wick ∧ s.mastRequest 0 = 0 ∧ 0 ∉ s.grants ∧
        (s.pkg == pkgReady && !(s.mast 0).fenced && !s.domainDown 0 && !s.stopHolds 0) = (pkg == 3)) ∧
    (let s : State := { masts := [(0, { power := .dark })], dict := [(0x232001, ⟨1, 1⟩)] }
     (s.mast 0).goal = none ∧ (s.mast 0).power = .dark ∧ s.mastRequest 0 < 2) := by decide +kernel

/-- Host errors: a pairing that is not in Table 2.5, and an activation 7; and a row that a record in the sheet queue holds. -/
theorem wit_hostErrors :
    (let d := sailDesc 0 8 0
     (headed 2 d).headOf 0 2 0 = some (headPost d) ∧ sailReserved d = false ∧
       matmulCheck (sailOf (headPost d)) ((headed 2 d).started 0 2) = some (157, 2)) ∧
    (∀ row ∈ jibRows,
      let d := jibDesc row.2 + 7 * 2 ^ 446
      (headed 3 d).headOf 0 3 row.2 = some (headPost d) ∧ jibReserved (headPost d) = false ∧
        (headPost d).waitsForSheet ((headed 3 d).started 0 3) = false ∧
        ((headed 3 d).started 0 3).jibCheck (jibOf (headPost d)) [] = some (185, 1) ∧ ((headed 3 d).mast 0).sheet = []) ∧
    (let d := sailDesc 0 2 0
     let x : Mast := { power := .lit, sheet := [0], queues := [(2, [headPost d])] }
     let s : State := { masts := [(0, x)] }
     s.headOf 0 2 0 = some (headPost d) ∧ (s.started 0 2).anyHeld (accRows 0 1) = true ∧
       accRows (sailOf (headPost d)).arb (sailOf (headPost d)).mr = accRows 0 1) := by decide +kernel

/-! ### Witnesses of memory, the training state, the bond and the ratlines -/

/-- Line 4 in cache 3, and what its home knows of it. -/
def lineIn (st : Option LineState) (e : DirEntry) : State :=
  { directory := [(4, e)], lines := match st with | some x => [(3 * 2 ^ 34 + 4, { st := x, stamp := 0 })] | none => [] }

def asking (ask : LineAsk) : LineReq := { agent := 3, ask, who := cacheWho 3, stamp := 0, halves := lineHalves 4 }

theorem wit_CoherenceKeepsData :
    (∀ st ∈ [LineState.e, .s, .f, .m], let s := lineIn (some st) {}
      (s.line 3 4).map Line.st = some st ∧ s.heldReqs = []) ∧
    (lineIn none { busy := some (asking .read) }).dirEntry 4 = { busy := some (asking .read) } ∧
    (let s : State := {}
     s.dirEntry 4 = {} ∧ s.heldReqs = [] ∧ s.refusal (s.lineChannel 4) (cacheWho 3) 2 = none) ∧
    (∀ ask ∈ [LineAsk.read, .prefetch, .own, .ownWhole, .atHome .read], ∀ st ∈ [LineState.pending false false false,
        .pending true false false, .pending true true false],
      let s := lineIn (some st) { busy := some (asking ask) }
      (s.dirEntry 4).busy = some (asking ask) ∧ (s.dirEntry 4).waiting = [] ∧ s.fillReady 4 (asking ask) = true ∧
        s.remote = [] ∧ s.line 3 4 = some { st, stamp := 0 }) := by decide +kernel

def oneAccess (read : Bool) : Access := { half := 2048 * 9, who := 0, pref := false, read, since := 0 }

theorem wit_MemoryDeviceEvents :
    (∀ read ∈ [false, true],
      let s : State := { trackers := [(2047, { order := [oneAccess read] })] }
      s.nextAccess 2047 = some (oneAccess read) ∧ s.val 0x2410 (2047 / 128 + 1) ≠ 5 ∧ s.remote = []) ∧
    (let w : Waiter := { stamp := 1, who := 3, need := 2 }
     let s : State := { trackers := [(2047, { granted := [w] })], tick := 5 }
     (s.tracker 2047).granted = [w] ∧ w.since + 5 ≤ s.tick) ∧
    (let s : State := { tick := 25000 }
     (FMap.get s.hbm 31 {}).since + msTicks ≤ s.tick ∧ FMap.get s.hotSince 15 0 + msTicks ≤ s.tick ∧
       s.val 0x3000 8 ≤ 200 ∧ 0 + 5 ≤ s.val 0x3000 8) := by decide +kernel

/-- Slot 63 with a one-phase plan in a state; `x` is the phase entry's word. -/
def planned (st x : Nat) (y : Plan := {}) : State :=
  { plans := [(63, { y with st })], dict := [(0x503F01, ⟨12, 2 ^ 57⟩), (0x503F02, ⟨64, x⟩)], tick := 10 }

/-- A pane that drains, one that holds a start of a phase that is over, and one whose phase, within the package over two
dies, is Active and waits for the other die's values. -/
theorem wit_TrainingEvents :
    (let s : State := { panes := [((15 * 16 + 15) * 2 + 1, { st := .draining 3 2, held := [(4, 1)] })] }
     (s.pane 15 15 1).draining = true) ∧
    (let s : State := { panes := [(0, { held := [(4, 1)] })] }
     (s.pane 0 0 0).held = (4, 1) :: [] ∧ (s.pane 0 0 0).draining = false ∧ (s.plan 4).st ≠ 3) ∧
    (let s : State := { planned 3 (3 * 2 ^ 18 + 2 ^ 10) with panes := [(0, { held := [(63, 0)] })] }
     let x := s.phase 63 0
     (s.pane 0 0 0).held = (63, 0) :: [] ∧ (s.pane 0 0 0).draining = false ∧ (s.plan 63).st = 3 ∧ (s.plan 63).phase = 0 ∧
       x.axis = 0 ∧ ((s.setPane 0 0 0 { s.pane 0 0 0 with held := [] }).drainPane 63 0 0 (s.head 63) x).insideReady 63 x
         (maskDies x.mask) = false) := by decide +kernel

/-- A dense entry 0 of partition 0 with every array at address 0, in a trim state. -/
def trimming (st : TrimState) (mem : FMap Byte) (flags : Nat := 0) : State :=
  { withPart {} with trims := [(0, { st, words := List.replicate 8 0, flags })], mem := mem }

theorem wit_TrimEvents :
    (∀ mem ∈ [[], [(0, 1#8)]],
      let s := trimming .checking mem
      s.nextCheck 0 = some (0, 0) ∧ s.trimsRunning 0 < 4 ∧ s.trimHostError 0 0 (s.trim 0 0) = none ∧
        (s.load (trimRecord (s.trim 0 0).words + 8 * s.targetSlot (trimRecord (s.trim 0 0).words)) 8 % 2 ^ 32 = 0 ↔ mem = [])) ∧
    (let s : State := { withPart {} with trims := [(0, { st := .checking, words := [0, 0, 0, 0, 0, 0, 3 * 2 ^ 18, 0] })] }
     s.nextCheck 0 = some (0, 0) ∧ s.trimsRunning 0 < 4 ∧ (s.trimHostError 0 0 (s.trim 0 0)).isSome = true) ∧
    (((trimming .held []).trim 0 0).st = .held ∧ (trimming .held []).load 0 8 % 2 ^ 31 = 0) ∧
    (let s := trimming .running []
     (s.trim 0 0).st = .running ∧ s.holds = [] ∧ s.plans = [] ∧ s.trimAddr 0 0 + 56 = 56 ∧
       trimRecord (s.trim 0 0).words = 0 ∧ (s.trim 0 0).slot < 2) := by decide +kernel

/-- A flip of one bit fails the CRC of a beat, no flip passes; a direction that waits for a replay. -/
theorem wit_BondEvents :
    (let s := powered { power := .lit }
     (s.mast 0).bonded = true ∧ ((s.mast 0).bond.dir true).back = 0) ∧
    (let s := powered { power := .lit, bond := { up := { held := [7, 5], back := 2 } } }
     (s.mast 0).bonded = true ∧ ((s.mast 0).bond.dir true).back = 2) ∧
    (crc16 (0 ^^^ 1 % 2 ^ 1024) 128 != crc16 0 128) = true ∧ (crc16 (5 ^^^ 0) 128 != crc16 5 128) = false ∧
    (FMap.get ({ tick := 25000000 } : State).bondSince 15 0 + 25000000 ≤ ({ tick := 25000000 } : State).tick) := by
  decide +kernel

/-- The direction into die 0 from the east, with its flow. -/
def ratState (x : RatDir) (f : RatFlow := {}) : State := { rats := [(1, x)], flows := [(1, f)], tick := 25000000 }

def oneBody : RatBody := ⟨14, 56, 77, false, false, .other⟩

theorem wit_RatlineRetry :
    neighbourDie 0 1 = some 1 ∧ neighbourDie 15 0 = some 11 ∧
    (∀ asked ∈ [1, 2, 3],
      let s := ratState { st := ratLive } { nak := true, naks := [0], asked, held := [(0, oneBody)] }
      (s.rat 0 1).carries = true ∧ (s.flow 0 1).naks = 0 :: [] ∧ (s.flow 0 1).asked = asked ∧ (s.flow 0 1).held ≠ [] ∧
        (s.flow 0 1).moved + 50 ≤ s.tick) := by decide +kernel

/-- A whole flit, and one with a bit flipped; a replay of the flit expected, and of one that came before. -/
theorem wit_RatlineDataFlits :
    (let s := ratState { st := ratLive }
     s.val 0x4830 (linkOf 0 1 + 1) ≠ 1 ∧ (s.rat 0 1).live = true ∧ (s.flow 0 1).held.length < 256 ∧
       (s.flow 0 1).credit oneBody = true ∧ (s.flow 0 1).replay = [] ∧ (s.flow 0 1).sent = (s.flow 0 1).next) ∧
    (∀ next ∈ [0, 1],
      let s := ratState { st := ratLive } { replay := [(0, oneBody)], next }
      (s.flow 0 1).replay = (0, oneBody) :: [] ∧ (s.rat 0 1).carries = true) ∧
    ratCrcOk (ratFlit 0 511 false oneBody) = true ∧
    ratCrcOk (ratFlit 0 511 false oneBody ^^^ 1 % 2 ^ 512) = false := by decide +kernel

theorem wit_RatlineStates :
    (let x : RatDir := { st := ratElectrical }
     ((ratState x).rat 0 1).st = ratElectrical ∧ 16 ≤ popCount ({ x with bad := 2 ^ 18 - 1 } : RatDir).healthy 34 ∧
       popCount ({ x with bad := 2 ^ 19 - 1 } : RatDir).healthy 34 < 16 ∧ x.fails < 2) ∧
    (let s := ratState { st := ratMapping, fails := 2 } { claimed := some ⟨2, 16, allLanes⟩ }
     (s.rat 0 1).st = ratMapping ∧ (s.rat 0 1).since + 2500 ≤ s.tick ∧ 2 ≤ (s.rat 0 1).fails ∧
       (s.rat 1 (oppositeSide 1)).st ≠ ratDown ∧
       (s.flow 0 1).claimed = some ⟨2, 16, allLanes⟩ ∧ (settleWords (s.rat 0 1).word ⟨2, 16, allLanes⟩).2 ≠ 0) ∧
    (let s := ratState { st := ratLive, map := 3, agreed := allLanes } { asked := 1, swap := some (0, 33) }
     (s.rat 0 1).live = true ∧ (s.flow 0 1).asked = 1 ∧ (s.flow 0 1).swap = some (0, 33) ∧
       (s.flow 0 1).swapSeq ≤ (s.flow 0 1).sent ∧ (s.rat 0 1).window + 25000000 ≤ s.tick ∧
       ((lanesIn (s.rat 0 1).map).filter fun n => decide (s.val 0x4820 1 ≤ FMap.get (s.rat 0 1).errors n 0)) = []) ∧
    (∀ agreed ∈ [allLanes, 2 ^ 20 - 1],
      let s := ratState { st := ratLive, map := 2 ^ 20 - 1, agreed, errors := [(1, 1000000)] }
      ((lanesIn (s.rat 0 1).map).filter fun n => decide (s.val 0x4820 1 ≤ FMap.get (s.rat 0 1).errors n 0)) = 1 :: [] ∧
        (s.rat 0 1).spare.isSome = (agreed == allLanes) ∧
        16 ≤ popCount (without (without agreed (laneMask [1])) 0) 34) ∧
    (let s := ratState { st := ratSwitching, agreed := allLanes } { asked := 3, swap := some (0, 33) }
     (s.flow 0 1).asked = 3 ∧ (s.flow 0 1).swap = some (0, 33) ∧ (s.flow 0 1).waiting = [] ∧
       16 ≤ popCount (without (without allLanes (laneMask [0, 33])) 0) 34) ∧
    (let s : State := { ratState { st := ratLive } with dict := [(0x483001, ⟨1, 1⟩)] }
     s.val 0x4830 1 = 1 ∧ s.resetting 4 8 = false ∧
       ((linkDirs 0).any fun n => (s.rat n.1 n.2).st != ratOff && (s.rat n.1 n.2).st != ratDown) = true ∧
       ((linkDirs 0).all fun n => (s.flow n.1 n.2).held.isEmpty && (s.rat n.1 n.2).st != ratPending) = true) := by
  decide +kernel

/-! ### Witnesses of the ports -/

/-- Port 2 in a link state. -/
def portIn (st : Nat) : State := { ports := [(2, { link := { st } })], tick := 2160000000000 }

/-- Port 2 as given, late in time. -/
def portOf (x : Port) : State := { ports := [(2, x)], tick := 2160000000000 }

/-- A flit that waits for its acknowledgement. -/
def keptFlit : Nat × Queued := (0, { flit := okFlit, inp := 7, last := true })

theorem wit_StayTraining :
    ((portIn portPresence).port 2).link.st = portPresence ∧
    (∀ trials ∈ [2, 3], ∀ again ∈ [0, 1, 2], ∀ fails ∈ [1, 2],
      let x := (portOf { link := { st := portElectrical, trials, again, fails } }).port 2
      x.link.st = portElectrical ∧ x.since + 1250000 ≤ 2160000000000 ∧ (x.link.trials < 3 ↔ trials = 2) ∧
        (x.link.again = 1 ↔ again = 1) ∧ (x.link.fails < 2 ↔ fails = 1)) ∧
    (let s := portIn portElectrical
     let own := s.portWord 2 (2 ^ 16 - 1)
     (settlePort 2 own { own with gen := own.gen }).2 = 16 ∧ (settlePort 2 own { own with map := 0, claim := 0 }).2 = 0) ∧
    600 < (1200 + 1) / 2 + 1 ∧ ¬600 < (1200 + 1) / 2 := by decide +kernel

/-- A partner with the package's own word has a common generation and rate, and both could run faster; one without a rate
has none; a word of this side that is not acknowledged yet. -/
theorem wit_StayAgreement :
    ((portIn portCapability).port 2).link.st = portCapability ∧ ((portIn portIdentity).port 2).link.st = portIdentity ∧
    ((portIn portKeying).port 2).link.st = portKeying ∧
    capGmin (capabilityWord 2) ≤ min (capGmax (capabilityWord 2)) (capGmax (capabilityWord 0)) ∧
    (capRates (capabilityWord 2) &&& capRates (capabilityWord 0)) % 4 ≠ 0 ∧
    (capRates (capabilityWord 2) &&& capRates 0) % 4 = 0 ∧
    (∀ again ∈ [0, 1],
      let x := (portOf { link := { st := portCapability, rate := 200, again } }).port 2
      (bitOf (capRates (capabilityWord 2)) 1 && x.link.rate == 200 && x.link.again == 0) = (again == 0) ∧
        x.tx.held = [] ∧ x.tx.queue = []) ∧
    ((portOf { link := { st := portCapability }, tx := { held := [(0, { keptFlit.2 with head := 2 })] } }).port 2).tx.held.any
      (fun q => headKind q.2.head == 2) = true ∧
    (let x := (portOf { link := { st := portLive }, peer := { feat := 1 }, keys := { out := ⟨32, 7⟩, epoch := 1, asked := true } }).port 2
     x.link.st = portLive ∧ x.tagged = true ∧ x.keys.asked = true ∧ 1 = x.keys.epoch) := by decide +kernel

/-- A flit with its CRC, and with another word in its place. -/
theorem crc_right (f : StayFlit) (g : Bool) :
    stayCrcOk g { f with crc := stayCrc g f, crcN := 2 ^ 32 - 1 - stayCrc g f } = true ∧
    stayCrcOk g { f with crc := stayCrc g f + 1 } = false := by
  have h (a b : Nat) : stayCrc g { f with crc := a, crcN := b } = stayCrc g f := rfl
  simp [stayCrcOk, h]

/-- A control or idle flit of a kind with count 1, a word and its CRC, on a VC. -/
def control (kind vc word : Nat) (ackv : Bool := false) : StayFlit :=
  let f := { okFlit with typ := if kind = 0 then 1 else 2, vc, ackv, body := kind + 2 ^ 64 + word * 2 ^ 128 }
  { f with crc := stayCrc true f, crcN := 2 ^ 32 - 1 - stayCrc true f }

/-- Each kind on VC 14 and on the reserved VC; a count that was accepted before; a port with tags, where a flit's tag is right or
wrong. -/
theorem wit_StayControls :
    (∀ row ∈ controlRows, ∀ vc ∈ [14, 15],
      let s := portIn portLive
      let f := control row.2 vc 0
      (s.port 2).carries = true ∧ f.typ = (if row.2 = 0 then 1 else 2) ∧ f.body % 256 = row.2 ∧ stayCrcOk true f = true ∧
        (s.port 2).gen1 = true ∧ (s.port 2).tagged = false ∧ (s.port 2).rx.any = false ∧ field f.body 127 64 = 1 ∧
        stayCrcOk true { f with crc := f.crc + 1 } = false) ∧
    ((portIn portQuarantined).port 2).carries = true ∧
    (let x := (portOf { link := { st := portLive }, rx := { any := true, ctl := 1 } }).port 2
     x.rx.any = true ∧ field (control 0 0 0).body 127 64 ≤ x.rx.ctl) ∧
    ((portOf { link := { st := portLive }, peer := { feat := 1 }, keys := { out := ⟨32, 7⟩ } }).port 2).tagged = true := by
  decide +kernel

/-- What the accepted words find: a flit held under the number that is acknowledged or asked for, a Live port of the word's
generation, a SWITCH that is asked for, a key that was agreed. -/
theorem wit_StayControls_words :
    (let x := (portOf { link := { st := portLive }, tx := { held := [keptFlit], tries := 15 }, ask := 2,
                        keys := { nextInn := ⟨32, 9⟩ } }).port 2
     (x.tx.held.find? fun q => q.1 % 4096 = (control 0 0 0 true).ack % 4096) = some keptFlit ∧ x.tx.queue = [] ∧
       x.link.st ≠ portCapability ∧
       (x.tx.held.find? fun q => q.1 % 4096 = (control 1 0 0).body / 2 ^ 128 % 4096) = some keptFlit ∧ x.tx.tries < 16 ∧
       bitOf x.ask 1 = true ∧ x.keys.nextInn.len ≠ 0 ∧ x.link.st = portLive ∧
       (widthWordOf ((control 3 0 0).body / 2 ^ 128)).gen = x.link.gen) := by decide +kernel

/-- Port 2 with a flit held for a partner that gives no credit, and an old tag failure. -/
def worn (st tries : Nat) : State :=
  portOf { link := { st, map := 3 }, ask := 3, peer := { feat := 1 }, keys := { out := ⟨32, 7⟩ },
           tx := { used := [(56, 20000)], held := [keptFlit], queue := [{ keptFlit.2 with flit := { okFlit with vc := 14 } }], tries },
           rx := { wait := [(14, 1)], tagFail := 3 } }

theorem wit_StayUpkeep :
    (∀ tries ∈ [15, 16], ∀ st ∈ [portLive, portQuarantined, portClosing],
      let x := (worn st tries).port 2
      x.carries = true ∧ x.tx.held ≠ [] ∧ x.tx.moved + 100 ≤ (worn st tries).tick ∧ x.link.st = st ∧
        (x.tx.tries < 16 ↔ tries = 15) ∧ x.tagged = true ∧ x.keys.asked = false ∧
        x.keys.keyed + 2160000000000 ≤ (worn st tries).tick) ∧
    ¬(portLive = portQuarantined ∨ portDown ≤ portLive) ∧
    (let s := worn portLive 0
     14 ∈ s.starvedVcs 2 ∧ FMap.get (s.port 2).rx.wait 14 0 ≠ 0 ∧ FMap.get (s.port 2).rx.wait 14 0 + msTicks ≤ s.tick + 1) ∧
    (∀ word ∈ [99, 100],
      let s := worn portLive 0
      let x := s.port 2
      x.fecAt + 25000000 ≤ s.tick ∧ x.tagAt + 25000000 ≤ s.tick ∧
        (without (laneMask ((lanesIn (portLanes 2)).filter fun l => bitOf x.link.map l &&
          decide (s.val 0x4020 1 ≤ [word].getD l 0))) (s.deadLanes 2) = 0 ↔ word < s.val 0x4020 1)) ∧
    ((portIn portRetrain).port 2).link.st = portRetrain ∧ (∀ st ∈ [1, portRetrain], 1 ≤ st ∧ st ≤ portRetrain) ∧
    (let s := portIn portLive
     (s.port 2).rx.tagFail < s.val 0x4020 2 ∧
       s.val 0x4020 2 ≤ (portOf { link := { st := portLive }, rx := { tagFail := s.val 0x4020 2 } } |>.port 2).rx.tagFail) ∧
    (let s := portIn portClosing
     (s.port 2).link.st = portClosing ∧ (s.port 2).tx.held = [] ∧ s.resetting 4 3 = false) ∧
    (let s : State := { portIn portPending with dict := [(0x200001, ⟨1, 3⟩), (0x401201, ⟨1, 1⟩), (0x400005, ⟨1, 2⟩)] }
     (s.port 2).link.st = portPending ∧ (s.port 2).tx.held = [] ∧ s.hasAxis 2 = true ∧ s.val 0x4012 1 = 1 ∧ s.pkg = pkgReady) := by
  decide +kernel

/-- The flit expected, the next one and the one before, over the wrap of SEQ; a whole message that comes by the bowsprit. -/
theorem wit_StayDataFlits :
    (let s := portOf { link := { st := portLive }, rx := { next := 4096 } }
     (s.port 2).carries = true ∧ okFlit.typ = 0 ∧ okFlit.seq % 4096 = (s.port 2).rx.next % 4096 ∧ (s.port 2).tagged = false ∧
       4096 < flitNumber 4096 1 ∧ flitNumber 4096 4095 < 4096) ∧
    (let body := 0x0E04 + 16 * 2 ^ 32
     let f := { okFlit with fill := 16, body, vc := 14 }
     let s : State := { ports := [(6, { link := { st := portLive }, peer := { entry := 2 ^ 104 - 1 } })] }
     let f := { f with crc := stayCrc true f, crcN := 2 ^ 32 - 1 - stayCrc true f }
     (s.port 6).carries = true ∧ (s.port 6).link.st = portLive ∧ stayCrcOk (s.port 6).gen1 f = true ∧ f.vc ≤ 14 ∧
       4 * f.vc + f.cls ∉ (s.port 6).rx.cut ∧ s.policeRule 6 f = 0 ∧ FMap.get (s.port 6).rx.left (4 * f.vc + f.cls) 0 = 0 ∧
       field f.body 63 32 ≤ f.fill ∧ messageOk 6 f.vc ⟨f.fill, f.body % 2 ^ (8 * f.fill)⟩ = true) := by decide +kernel

theorem wit_Discovery :
    (∀ st ∈ [portLive, portQuarantined], (portIn st).portState 2 = st ∧ ((portIn st).port 2).heard = 0) ∧
    (let e : Nat × Heard := (63, ⟨2, 1, 0, 0, 0, 0, false⟩)
     let s : State := { heard := [e], tick := 75000000 }
     (s.heard.find? fun y => y.1 == 63) = some e ∧ e.2.stale = false ∧ e.2.tick + 75000000 ≤ s.tick) := by decide +kernel

/-- The bowsprit Live to a partner that may use every channel and partition 0, with one open window. -/
def bowsprit (entry : Nat) : State := { withPart {} with ports := [(6, { link := { st := portLive }, peer := { entry } })] }

/-- A posted write whose line is on its way. -/
def posted : Remote := { id := 1, port := 6, kind := 0, msg := { okMsg with len := 8 }, part := 0, under := true }

theorem wit_RemoteMemory :
    (∀ vc ∈ [10, 13],
      let s := bowsprit (2 ^ 104 - 1)
      let m : RemoteMsg := { okMsg with vc, len := 8 }
      s.receives 6 = true ∧ s.remote = [] ∧ permVc (s.port 6).peer.entry m.vc = true ∧ permVc (s.port 6).peer.entry 14 = true ∧
        remoteFits m = true ∧ s.remotePart 6 m rightWr = some 0 ∧ s.remotePart 6 m rightRd = some 0 ∧ s.val 0x7180 1 = 0 ∧
        s.badRange m.addr m.len = false) ∧
    remoteFits { okMsg with len := 4 } = false ∧ permVc ((bowsprit 0).port 6).peer.entry 14 = false ∧
    (bowsprit (2 ^ 104 - 1)).remotePart 6 { okMsg with addr := 2 ^ 40, len := 8 } rightWr = none ∧
    (bowsprit (2 ^ 104 - 1)).remotePart 6 { okMsg with addr := 2 ^ 40, len := 8 } rightRd = none := by decide +kernel

theorem wit_RemoteMemory_fill :
    let q : LineReq := { agent := 17, ask := .own, who := portWho 6 1, stamp := 0, halves := [] }
    let s : State := { directory := [(4, { busy := some q })], remote := [posted],
                       lines := [(17 * 2 ^ 34 + 4, { st := .pending true false false, stamp := 0 })] }
    (s.dirEntry 4).busy = some q ∧ s.fillReady 4 q = true ∧ s.remote = [posted] ∧ posted.kind = 0 ∧ posted.under = true ∧
      (s.fill 4 q).awaits (portWho posted.port posted.id) = false := by decide +kernel

/-- The mailbox with 63 and with 64 requests; a chunk of no plan, of a loaded one by a package that is in its group and by one
that is not, and of an earlier step; the backup of a plan. -/
theorem wit_PortMessages :
    (∀ n ∈ [63, 64],
      let s : State := { bowsprit (2 ^ 104 - 1) with peerMail := List.replicate n ⟨6, 0, 0, ⟨0, 0⟩⟩ }
      s.receives 6 = true ∧ permVc (s.port 6).peer.entry 0 = true ∧ (s.peerMail.length < 64 ↔ n = 63)) ∧
    permVc ((bowsprit 0).port 6).peer.entry 0 = false ∧ (portIn portLive).receives 2 = true ∧
    (portIn portLive).slotOf 0 = none ∧ (portIn portLive).backupWork ⟨0, 0, 0, 0⟩ = none ∧
    (let e : Nat × HeldChunk := (5, ⟨2, 0, okChunk, 0, true, false⟩)
     let s : State := { holds := [e], tick := 25000000 }
     (s.holds.find? fun y => y.1 = 5) = some e ∧ s.slotOf e.2.c.planId = none ∧ e.2.since + 25000000 ≤ s.tick) := by
  decide +kernel

/-- A plan of one member, this package, in step 1. -/
theorem wit_PortMessages_chunks :
    let x := 1 + 2 ^ 4 + 2 ^ 6 * 2 ^ 18
    let s := { planned 3 x { step := 1 } with ports := [(2, { link := { st := portLive } })] }
    let h := s.head 63
    let ms := s.members h (s.phase 63 0)
    s.receives 2 = true ∧ s.slotOf h.id = some 63 ∧ s.mayContribute h ms 0 okChunk = true ∧
      s.mayContribute h ms 1 okChunk = false ∧ stepDiff 0 (s.plan 63).step < 0 := by decide +kernel

/-! ### Witnesses of the plans -/

theorem wit_PlanPhases :
    (let s := planned 2 0
     (s.plan 63).st = 2 ∧ s.triggered 63 = true ∧ s.awaited 63 = false ∧ s.badSplit (s.phase 63 0) = false) ∧
    (let s := planned 2 (2 ^ 323 + 2 ^ 104 + 2 ^ 18)
     s.triggered 63 = true ∧ s.badSplit (s.phase 63 0) = true) ∧
    (let s : State := { planned 2 0 with deferred := [⟨1, 0x503F01, ⟨12, 0⟩⟩] }
     s.triggered 63 = true ∧ s.awaited 63 = true ∧ (s.plan 63).phase = 0) := by decide +kernel

/-- The last phase of a plan, the one before it, and the tick at which a deadline has just passed. -/
theorem wit_PlanPhases_ends :
    (let s := planned 3 (5 * 2 ^ 72) { fired := 5, vals := [(0, ⟨0, 0⟩)] }
     (s.plan 63).st = 3 ∧ s.phaseDone 63 = true ∧ (s.head 63).nph ≤ (s.plan 63).phase + 1 ∧ (s.phase 63 0).deadline = 5 ∧
       (s.plan 63).missed = false ∧ (s.plan 63).fired + (s.phase 63 0).deadline ≤ s.tick) ∧
    (let s : State := { planned 3 0 { vals := [(0, ⟨0, 0⟩)] } with dict := [(0x503F01, ⟨12, 2 ^ 57 + 2 ^ 30⟩), (0x503F02, ⟨128, 0⟩)] }
     s.phaseDone 63 = true ∧ (s.plan 63).phase + 1 < (s.head 63).nph) := by decide +kernel

theorem wit_PlanAborts :
    (∀ st ∈ [4, 5], ((planned st 0).plan 63).st = st ∧
      ((planned st 0).panes.any fun e => match e.2.st with | .draining j _ => j == 63 | _ => false) = false) ∧
    (let s : State := { deferred := [⟨1, 0x350001, ⟨1, 0⟩⟩] }
     (s.deferred.any fun d => !s.held d.key) = true ∧ s.passed = []) ∧
    (let q : CommitReq := { stager := 0, num := 1, token := 1, since := 0, set := [(0x220001, ⟨1, 90⟩)], expect := 0, passed := true }
     let s : State := { commits := [q] }
     s.resetHolds = false ∧ s.passed = [q]) := by decide +kernel

/-- A standby backup of rank 2 whose data-axis reduction is Active finds its work. -/
theorem wit_backupWork :
    let s : State := { planned 3 (3 * 16) with dict := [(0x503F01, ⟨12, 2 ^ 57 + 2 ^ 56 + 5⟩), (0x503F02, ⟨64, 3 * 16⟩),
                                                        (0x504001, ⟨4, 7 * 2 ^ 24 + 2⟩)] }
    s.backupWork ⟨5, 0, 0, 2⟩ = some (63, ⟨true, true, 0, 2⟩) ∧ ((s.plan 63).asked || (s.plan 63).freed) = false ∧
      s.backupWork ⟨5, 0, 0, 3⟩ = none := by decide +kernel

/-! ### Witnesses of Choan, the dictionary and commits -/

/-- A Ready package past step 2 of start-up. -/
def ready : State := { dict := [(0x200001, ⟨1, 3⟩), (0x250001, ⟨1, 6⟩)], tick := 1500000000 }

/-- The envelope with the tag that a session makes of a request (R394). -/
def sealed (x : Session) (n seq type flags : Nat) (body : Octets) : Envelope :=
  ⟨n, seq, (kmac256 x.keyIn (choanHead type flags n seq body) 8 "ZV-CHOAN").bits⟩

theorem sealed_right (x : Session) (n seq type flags : Nat) (body : Octets) :
    tagRight x (sealed x n seq type flags body) type flags body = true := by simp [tagRight, sealed]

/-- The same with another tag. -/
theorem sealed_wrong (x : Session) (n seq type flags : Nat) (body : Octets) :
    tagRight x { sealed x n seq type flags body with tag := (sealed x n seq type flags body).tag + 1 } type flags body = false := by
  simp [tagRight, sealed]

/-- A session in place 1. -/
def speaking (x : Session) : State := { ready with sessions := [(0, x)] }

/-- Places 1 and 8 free, and none; a session not confirmed; one whose confirmation was answered. -/
theorem wit_SessionSetup :
    ready.choanUp = true ∧ ready.claimed = false ∧ ready.hellos = 0 ∧
    ((List.range 8).find? fun i => (ready.session (i + 1)).isNone) = some 0 ∧
    (let s : State := { ready with sessions := (List.range 7).map fun i => (i, ({} : Session)) }
     ((List.range 8).find? fun i => (s.session (i + 1)).isNone) = some 7) ∧
    (let s : State := { ready with sessions := (List.range 8).map fun i => (i, ({} : Session)) }
     ((List.range 8).find? fun i => (s.session (i + 1)).isNone) = none) ∧
    (speaking {}).session 1 = some {} ∧ (speaking {}).session 2 = none ∧
    (let x : Session := { confirmed := true, replies := [(0, ⟨0, 0⟩)] }
     (speaking x).session 1 = some x ∧ (x.replies.find? fun e => e.1 == 0) = some (0, ⟨0, 0⟩)) := by decide +kernel

/-- Every request has a form, and a session answers it for the first time, again, and as one too old; on a package that is
claimed and on one that is not. -/
theorem wit_SessionRequests :
    (∀ c ∈ [Instr.claim okEnv, .close okEnv, .read okEnv 0 0 false, .write okEnv 0 0 ⟨0, 0⟩, .readSeg okEnv 0 0 0 0 true,
        .writeSeg okEnv 0 0 0 ⟨0, 0⟩ true, .list okEnv 0 0, .describe okEnv 0 0, .eventRead okEnv 0 0, .eventAck okEnv 0,
        .subscribe okEnv true], (choanForm c).isSome = true) ∧
    (speaking {}).session 2 = none ∧ (speaking {}).session 1 = some {} ∧
    (let x : Session := { confirmed := true, replies := [(1, ⟨0, 0⟩)], seen := true, top := 65 }
     (speaking x).choanUp = true ∧ (speaking x).session 1 = some x ∧
       (x.replies.find? fun e => e.1 == 1) = some (1, ⟨0, 0⟩) ∧ (x.replies.find? fun e => e.1 == 2) = none ∧
       1 + 64 ≤ x.top ∧ x.top < 2 + 64) ∧
    (speaking {}).claimed = false ∧ ({ speaking {} with dict := (0x103001, ⟨16, 9⟩) :: ready.dict } : State).claimed = true := by
  decide +kernel

theorem wit_ClaimTakesPackage :
    let x : Session := { confirmed := true, ident := 5 }
    (speaking x).choanUp = true ∧ (speaking x).session 1 = some x ∧ (x.replies.find? fun e => e.1 == 1) = none ∧
      x.seen = false ∧ (speaking x).claimed = false ∧
      ({ speaking x with dict := (0x103001, ⟨16, 9⟩) :: ready.dict } : State).claimed = true := by decide +kernel

/-- Rings 0 and 16 with a drop owed; units that have posted and units that have not; a core of the host and of a context that
owns no ring. -/
theorem wit_RingsAndSessions :
    ((speaking {}).session 1 = some {} ∧ 0 + 1500000000 ≤ (speaking {}).tick) ∧
    (let s : State := { rings := [(0, { drops := 3, owed := 3 }), (16, { drops := 3, owed := 3 })] }
     (s.ring 16).owed ≠ 0 ∧ (s.ring 16).used < ringSize 16 ∧ (s.ring 0).owed ≠ 0 ∧ (s.ring 0).used < ringSize 0) ∧
    (snapshotSubs 0x3000 ≠ [] ∧ (ready.snapRing.last.find? fun e => e.1 == 0x3000) = none ∧
      ({ ready with snapRing := { last := [(0x3000, 1499975000)] } } : State).snapshotDue 0x3000 = true) ∧
    (ready.pkg ≠ pkgOff ∧ ready.pkg ≠ pkgShutdown ∧ ready.contextOfCore 15 = some 0 ∧
      ctxOwns (ready.context 0) 15 = true) := by decide +kernel

/-- A context 1 of core 15 that owns nothing, beside slots of the mailbox that contexts 0 and 1 hold. -/
def tenant : State :=
  { ready with dict := ready.dict ++ [(0x703001, ⟨16, 0⟩), (0x703002, ⟨16, 2 ^ 127⟩)], mailSlots := [(62, ⟨1⟩), (63, ⟨0⟩)],
               mailbox := FMap.writeLE [] (2048 * 62) 8 (0x10 * 2 ^ 16) }

theorem wit_CoreAccesses :
    tenant.contextOfCore 15 = some 1 ∧ tenant.mailOwner 63 = some 0 ∧ tenant.mailOwner 62 = some 1 ∧
    tenant.mailOwner 0 = none ∧ ((List.range 64).find? fun j => (tenant.mailOwner j).isNone) = some 0 ∧
    tenant.choanUp = true ∧ datagram (tenant.mailRequest 62) = none ∧
    ({ tenant with dict := tenant.dict ++ [(0x250005, ⟨1, 1⟩)], fw := { recovery := true } } : State).choanUp = false ∧
    tenant.coreAdmits 1 0 8 true = false ∧ ctxOwns (tenant.context 1) 0 = false ∧
    (mailBase + 2048 * 62 - mailBase) / 2048 = 62 ∧ (mailBase + 2048 * 63 - mailBase) / 2048 = 63 ∧
    64 / 128 = (64 + 64 - 1) / 128 ∧ 0 < mailBase := by decide +kernel

/-- The host's context over its slice of memory, a store at its last word, and the same with the die pair of its home fenced. -/
theorem wit_CoreAccesses_memory :
    let s : State := { ready with carve := 1 }
    s.contextOfCore 0 = some 0 ∧ s.coreAdmits 0 (2 ^ 30 - 8) 8 true = true ∧ s.coreAdmits 0 (2 ^ 30 - 8) 8 false = true ∧
      s.homeFenced (2 ^ 30 - 8) = false ∧ s.badRange (2 ^ 30 - 8) 8 = false ∧
      ({ s with dict := s.dict ++ [(0x718001, ⟨2, 65535⟩)] } : State).homeFenced (2 ^ 30 - 8) = true := by decide +kernel

theorem wit_RegisterChecks :
    (∀ c ∈ [Instr.commitRequest (.host 0) 1, .stagingDiscard (.host 0) 1, .planAbort (.host 0) 63 1,
        .mastPowerRequest (.host 0) 3071 0, .powerCapWrite (.host 0) 2800, .hostReady (.host 0) 1, .packageReset (.host 0) 1,
        .partitionReset (.host 0) 15 1, .domainReset (.host 0) 15 1, .portReset (.host 0) 31 1, .partitionStop (.host 0) 15 1,
        .firmwareImageWrite (.host 0) 1 ⟨0, 0⟩, .svnRaise (.host 0) 1 1, .attestationNonce (.host 0) ⟨32, 0⟩,
        .debugToken (.host 0) ⟨0, 0⟩, .debugRelock (.host 0) 1, .registerWrite (.host 0) 0x2200 1 ⟨1, 90⟩],
      (writeForm c).isSome = true) ∧ ready.pkg ≠ pkgOff ∧
    (ready.findObject (.operator 0) 0x9000 1).2 = none ∧
    (ready.findObject (.operator 0) 0x1000 3).2.map (·.access) = some 1 ∧
    ((ready.findObject (.operator 0) 0x2100 1).2.all fun r => r.access != 1 && r.access != 3 &&
      !lengthOk r 0x2100 1 ⟨3, 0⟩ && lengthOk r 0x2100 1 ⟨2, 2801⟩ && ready.valueStatus r 0x2100 1 ⟨2, 2801⟩ != 0) = true ∧
    (ready.findObject (.host 0) 0x3290 1).2.isSome = true ∧ mayWrite (.host 0) 0x3290 = false ∧
    mayWrite (.host 0) 0x2320 = true ∧ ready.ownerOk (.host 0) 0x2320 1 = false := by decide +kernel

theorem wit_AcceptedWrites :
    (let s := ready
     s.pkg ≠ pkgOff ∧ s.inChecks 0 = false ∧ s.running = true ∧ s.resets = [] ∧
       ((s.findObject (.operator 0) 0x2200 1).2.all fun r => r.access == 3 && lengthOk r 0x2200 1 ⟨1, 90⟩) = true ∧
       s.val 0x7180 1 = 0 ∧ (s.mast 3071).fenced = false ∧ s.imageFault 1 ⟨0, 0⟩ ≠ 0 ∧ s.tokenGood ⟨0, 0⟩ = false ∧
       FMap.get s.fw.raises 1 0 < 64 ∧ s.val 0x7080 4 = 0) ∧
    (({ ready with stagers := [(0, { set := [(0x220001, ⟨1, 90⟩)] })] } : State).stager 0).set ≠ [] ∧
    ({ ready with stagers := [(0, { records := [{ status := 1 }] })] } : State).inChecks 0 = true ∧
    (withPart ready).partExists 0 = true ∧ (∀ st ∈ [2, 3], ((planned st 0).plan 63).st = st) ∧
    (let s : State := { ready with masts := [(0, { power := .lit, fenced := true }), (1, { power := .lit }),
                                             (2, { power := .lit, goal := some .dark })] }
     (s.mast 0).fenced = true ∧ (s.mast 1).fenced = false ∧ (s.mast 1).power = .lit ∧ (s.mast 2).goal.isSome = true ∧
       (s.mast 2).held = false) ∧
    (let s : State := { ready with dict := ready.dict ++ [(0x700006, ⟨2, 7⟩), (0x708004, ⟨1, 1⟩)] }
     s.val 0x7000 (5 + 1) = 7 ∧ s.val 0x7000 (3 + 1) < 7 ∧ s.val 0x7080 4 ≠ 0) := by decide +kernel

theorem wit_PartitionStops :
    (withPart {}).pkg ≠ pkgOff ∧ (withPart {}).partExists 0 = true ∧ (withPart {}).partExists 1 = false ∧
    ((withPart {}).part 0).st ≠ .stopped ∧ bitOf ((withPart {}).val 0x7120 1) 0 = true := by decide +kernel

/-- A commit of one value that passes, and one that is refused since the value expected is another. -/
theorem wit_CommitChecks :
    let q : CommitReq := { stager := 0, num := 1, token := 1, since := 0, set := [(0x220001, ⟨1, 90⟩)], expect := 0 }
    (({ commits := [q] } : State).commits.find? fun c => !c.passed) = some q := by decide +kernel

/-! ### Witnesses of power, start-up, resets and security -/

theorem wit_PowerResets :
    ({ dict := [(0x200001, ⟨1, 0⟩)] } : State).pkg = pkgOff ∧ ready.pkg ≠ pkgOff ∧ (0x59 : Nat) ≠ 0x5A := by decide +kernel

/-- A sample 25 ticks after the last, an edge a multiple of 625 ticks after the last, the caps at the ends of their range, a
sensor at the threshold, a window's end in a package that runs. -/
theorem wit_IssueCeilings :
    (let s : State := { ready with power := { sampled := 1499999975, edge := 1499999375, window := 1499975000 } }
     s.pkg ≠ pkgOff ∧ s.power.sampled + 25 ≤ s.tick ∧ s.running = true ∧ s.power.edge < s.tick ∧
       (s.tick - s.power.edge) % 625 = 0 ∧ s.tick % 25000 = 0 ∧ s.power.window < s.tick ∧ s.val 0x2200 1 ≤ s.val 0x2200 1) ∧
    (∀ watts ∈ [2800, 5600], 2800 ≤ watts ∧ watts ≤ 5600 ∧ watts % 50 = 0) := by decide +kernel

theorem wit_ProtectiveShutdown : ready.running = true ∧ ready.pkg ≠ pkgOff ∧ ready.pkg ≠ pkgShutdown ∧ 105 ≤ 105 ∧ 39999 < 40000 ∧ 60000 < 60001 := by decide +kernel

theorem wit_DomainEvents :
    (∀ code ∈ [1, 4],
      let s : State := { ready with dict := ready.dict ++ [(0x241010, ⟨1, code⟩)],
                                    masts := [(2880, { power := .lit })], domains := [(15, (0, 0))] }
      s.domain 15 = code ∧ s.awake 15 ≠ [] ∧ (FMap.get s.domains 15 (0, 0)).1 + 25000 ≤ s.tick ∧
        ({ s with masts := [] } : State).awake 15 = []) ∧
    (let s : State := { ready with dict := ready.dict ++ [(0x241010, ⟨1, 3⟩)] }
     s.domain 15 = 3 ∧ s.pkg = pkgReady) ∧
    (let r : Reset := { kind := 3, scope := 15, since := 0 }
     let s : State := { ready with resets := [r] }
     (s.resets.find? fun q => q.kind == 3 && q.scope == 15) = some r ∧ r.since + 125000 ≤ s.tick) := by decide +kernel

/-- Each step of start-up, with the factory banks that run and with an image that the commitments of 7000h turn away; a package
whose step 5 has ended and whose host has asked for Ready. -/
theorem wit_StartUp :
    (∀ n ∈ [0, 1, 2, 3, 4],
      let pkg := if n < 2 then pkgStandby else pkgBooting
      let s : State := { dict := [(0x200001, ⟨1, pkg⟩), (0x250001, ⟨1, n⟩)], tick := 25000000 }
      s.pkg = pkg ∧ s.val 0x2500 2 = 0 ∧ s.fw.recovery = false ∧ s.val 0x2500 1 = n ∧ s.inputOk = true ∧
        s.fw.bringUp + 25000000 ≤ s.tick) ∧
    (∀ mv ∈ [39999, 40000, 60000, 60001],
      ({ dict := [(0x200006, ⟨4, mv⟩)] } : State).inputOk = (mv == 40000 || mv == 60000)) ∧
    ({} : State).bankToRun 0 = some 0 ∧ ({} : State).bankToRun 1 = some 0 ∧
    ({ dict := [(0x700003, ⟨2, 1⟩), (0x700004, ⟨2, 1⟩)] } : State).bankToRun 0 = none ∧
    ({ dict := [(0x700003, ⟨2, 1⟩), (0x700004, ⟨2, 1⟩)] } : State).bankToRun 1 = none ∧
    (let s : State := { dict := [(0x200001, ⟨1, 2⟩), (0x250001, ⟨1, 5⟩)], fw := { ready := true } }
     s.pkg = pkgBooting ∧ s.val 0x2500 1 = 5 ∧ s.fw.ready = true ∧ s.pending = []) := by decide +kernel

/-- Such a package has nothing that waits for the edge but the host's Ready; nor has the package after reset. -/
theorem wit_quietEdge :
    quietEdge { ({ dict := [(0x200001, ⟨1, 2⟩), (0x250001, ⟨1, 5⟩)], fw := { ready := true } } : State) with fw := { ready := false } } ∧
    quietEdge {} := by unfold quietEdge; decide +kernel

theorem wit_ResetCompletes :
    (∀ k ∈ [1, 3],
      let r : Reset := { kind := k, scope := 0, since := 0, before := 2 }
      let s : State := { ready with resets := [r] }
      (s.resets.find? fun q => q.kind == k && q.scope == 0) = some r ∧ s.resetEnds r = true ∧ s.deferred = [] ∧
        s.passed = []) ∧
    (let r : Reset := { kind := 2, scope := 0, since := 0 }
     let s : State := { withPart ready with parts := [(0, { st := .resetting })], resets := [r] }
     (s.resets.find? fun q => q.kind == 2 && q.scope == 0) = some r ∧ s.resetEnds r = true) := by decide +kernel

theorem wit_FirmwareEvents :
    (∀ step ∈ [1, 2],
      let s : State := { dict := [(0x250001, ⟨1, step⟩)], fw := { recovery := true } }
      s.fw.recovery = true ∧ s.imageFault 0 ⟨0, 0⟩ ≠ 0 ∧ s.val 0x2500 1 = step) ∧
    (let s : State := { fw := { life := some 0 } }
     s.fw.life = some 0 ∧ 0 ≤ s.tick ∧ s.resets = []) ∧
    (let q : CommitReq := { stager := 0, num := 1, token := 1, since := 0, set := [], expect := 0 }
     let s : State := { ready with commits := [q], fw := { serviced := 1499975000 } }
     s.choanUp = true ∧ s.fw.serviced + 25000 ≤ s.tick ∧ (s.commits.find? fun c => !c.passed) = some q ∧
       s.bankToRun 0 = some 0) := by decide +kernel

theorem wit_ManagementPort :
    ready.pkg ≠ pkgOff ∧ ready.val 0x1020 9 = 0 ∧ ready.mgmtSince + 50000000 ≤ ready.tick := by decide +kernel

/-- A sound state, from which a step goes on; a package that is Off, and one that is not. -/
theorem wit_Machine :
    (({} : State).pending = [] ∧ ({} : State).pkg ≠ pkgOff ∧ ({ dict := [(0x200001, ⟨1, 0⟩)] } : State).pkg = pkgOff) ∧
    ready.sound ∧ goesOn (Sys2Proof.Machine.step { ready with pending := [.resetreq 0] }) ∧
    goesOn (Sys2Proof.Machine.exec (.resetreq 0) ready) :=
  ⟨by decide +kernel, ⟨rfl, rfl, rfl, fun _ => by simp [ready, State.ring, Ring.sound, Ring.used]⟩, ⟨_, rfl⟩, ⟨_, rfl⟩⟩

/-! ### Arithmetic: the worked examples of the spec -/

/-- The exact-group examples of R82: 2^24 + 1 − 2^24 is 1; 2^40 − 2^40 + 1.5 × 2^−15 keeps 2^−15. -/
theorem test_groupSum :
    (toF32Bits false (groupSum 55 [(decodeElem 2 0x4580, decodeElem 2 0x4580), (decodeElem 2 0x3F80, decodeElem 2 0x3F80),
        (decodeElem 2 0xC580, decodeElem 2 0x4580)]).1 = 0x3F800000#32) ∧
    (toF32Bits false (groupSum 55 [(decodeElem 2 0x4980, decodeElem 2 0x4980), (decodeElem 2 0xC980, decodeElem 2 0x4980),
        (decodeElem 2 0x3BC0, decodeElem 2 0x3C00)]).1 = 0x38000000#32) := by decide +kernel

/-- Table 2.8: natively 2^30 − 2^30 + 2^−12 is 2^−12; the second compatibility group, −2^30 and 2^−12, gives −2^30. -/
theorem test_groupSum_modes :
    (toF32Bits false (groupSum 55 [(decodeElem 2 0x4700, decodeElem 2 0x4700), (decodeElem 2 0xC700, decodeElem 2 0x4700),
        (decodeElem 2 0x3C80, decodeElem 2 0x3C80)]).1 = 0x39800000#32) ∧
    (toF32Bits true (groupSum 39 [(decodeElem 2 0xC700, decodeElem 2 0x4700),
        (decodeElem 2 0x3C80, decodeElem 2 0x3C80)]).1 = 0xCE800000#32) := by decide +kernel

/-- The block of R68's example: the largest magnitude 0.0137 takes the scale byte 71h, and its element is 76h. -/
theorem test_chooseScale :
    (chooseScale e4m3Format [f32 0x3C607604#32]).s = 0x71 ∧
    (e4m3Format.narrow false true false ((f32 0x3C607604#32).scale 14)).bits = 0x76 := by decide +kernel

/-- Ties go to the even value, and E4M3 saturates where it has no infinity (R59). -/
theorem test_narrow :
    (b16Format.narrow false true false (f32 0x3F808000#32)).bits = 0x3F80 ∧
    (b16Format.narrow false true false (f32 0x3F818000#32)).bits = 0x3F82 ∧
    (e4m3Format.narrow false true false (f32 0x7F000000#32)).note = .saturated ∧
    (e5m2Format.narrow false true false (f32 0x7F000000#32)).bits = 0x7C := by decide +kernel

/-- Table 8.8: the element ends with the compute copy 3D7Fh and its second moment at 2^−16. -/
theorem test_trimElem :
    let cs := [0x3F9D4952, 0x3F666666, 0x3DCCCCCD, 0x3F7FBE77, 0x3A83126F, 0x3F800000, 0, 0x322BCC77, 0, 0x3DCCCCCD, 0x3F800000]
    let e := trimElem cs 0x1F 2 10 (-12) 2 (biasFactor true (coef cs 1) 1000) (biasFactor true (coef cs 3) 1000) 0x4080
      (f32 0x3D800000#32) (f32 0x3B000000#32) (f32 0x37800000#32)
    e.copy = 0x3D7F ∧ e.stagnant = false ∧ e.badW = false := by decide +kernel

/-- Mast 2,000 lies on compute die 10 as local mast 80 (R27). -/
theorem test_mastNumber : mastDie 2000 = 10 ∧ mastLocal 2000 = 80 := by decide

/-- The die-stripe example of R195: slot 8,456, home die 12. -/
theorem test_slot : slotOf true 0x10E042300 = 8456 ∧ field 0x10E042300 26 23 = 12 := by decide +kernel

/-- R197 of that slot, 2108h: granule 0 of its row, bank 2, row 132; and q[21:18] moves the bank of slot 2^18 to 1. -/
theorem test_place :
    (slotGranule 8456, slotBank 8456, slotRow 8456) = (0, 2, 132) ∧ slotBank (2 ^ 18) = 1 := by decide +kernel

/-- Table 13.4: 4,700 W against 4,000 W takes the ceiling from 64 to 47; 3,918 W and 3,850 W hold it; 3,300 W adds 1. -/
theorem test_capStep :
    capStep 4000 64 0 4700 1 = (47, 1) ∧ capStep 4000 47 1 (2 * 4700 + 23 * 3850) 25 = (47, 0) ∧
    capStep 4000 47 0 3850 1 = (47, 0) ∧ capStep 4000 47 0 3300 1 = (48, 0) := by decide

/-- The CRC-32 of IEEE 802.3 over the nine bytes of its check value. -/
theorem test_crc32 : crc32 (octets [0x31, 0x32, 0x33, 0x34, 0x35, 0x36, 0x37, 0x38, 0x39]).bits 9 = 0xCBF43926 := by
  decide +kernel

/-! ### The control core -/

/-- ADD wraps; SUB borrows; a shift uses v[5:0]; SAR keeps the sign. -/
theorem test_alu_arith :
    regAfter 2 (Sys2Proof.Machine.exec (.add 0 0) (core (code 0x01 2 1 0 2) [(1, -1#64)])) = some 1#64 ∧
    regAfter 2 (Sys2Proof.Machine.exec (.sub 0 0) (core (code 0x02 2 0 0 1))) = some (-1#64) ∧
    regAfter 2 (Sys2Proof.Machine.exec (.shl 0 0) (core (code 0x06 2 1 0 65) [(1, 3#64)])) = some 6#64 ∧
    regAfter 2 (Sys2Proof.Machine.exec (.sar 0 0) (core (code 0x08 2 1 0 1) [(1, -4#64)])) = some (-2#64) := by
  decide +kernel

/-- SLT is signed, SLTU unsigned; MIN is signed; IMM is sign-extended. -/
theorem test_alu_compare :
    regAfter 2 (Sys2Proof.Machine.exec (.slt 0 0) (core (code 0x0A 2 1) [(1, -1#64)])) = some 1#64 ∧
    regAfter 2 (Sys2Proof.Machine.exec (.sltu 0 0) (core (code 0x0B 2 1) [(1, -1#64)])) = some 0#64 ∧
    regAfter 2 (Sys2Proof.Machine.exec (.min 0 0) (core (code 0x0D 2 1) [(1, -5#64)])) = some (-5#64) ∧
    regAfter 2 (Sys2Proof.Machine.exec (.or 0 0) (core (code 0x04 2 0 0 (2 ^ 41 - 1)))) = some (-1#64) := by decide +kernel

/-- A write to s0 is discarded and the program counter advances all the same. -/
theorem test_s0 :
    regAfter 0 (Sys2Proof.Machine.exec (.add 0 0) (core (code 0x01 0 0 0 7))) = some 0#64 ∧
    pcAfter (Sys2Proof.Machine.exec (.add 0 0) (core (code 0x01 0 0 0 7))) = some 8#20 := by decide +kernel

/-- A branch back by 8 from 0 wraps in 20 bits; JAL links the next word. -/
theorem test_branches :
    pcAfter (Sys2Proof.Machine.exec (.br 0 0) (core (code 0x20 0 0 0 (2 ^ 41 - 8)))) = some 0xFFFF8#20 ∧
    pcAfter (Sys2Proof.Machine.exec (.bz 0 0) (core (code 0x21 0 1 0 64) [(1, 1#64)])) = some 8#20 ∧
    pcAfter (Sys2Proof.Machine.exec (.jal 0 0) (core (code 0x23 5 1 0 16) [(1, 32#64)])) = some 48#20 ∧
    regAfter 5 (Sys2Proof.Machine.exec (.jal 0 0) (core (code 0x23 5 1 0 16) [(1, 32#64)])) = some 8#64 := by decide +kernel

/-- LDS ignores the low three address bits. -/
theorem test_lds : regAfter 2 (Sys2Proof.Machine.exec (.lds 0 0) (core (code 0x10 2 0 0 7))) = some (BitVec.ofNat 64 (code 0x10 2 0 0 7)) := by
  decide +kernel

/-- CINC wakes a thread whose target is reached exactly, with the counter word in its register. -/
theorem test_cinc :
    (match Sys2Proof.Machine.exec (.cinc 0 0)
        { masts := [(0, { lone (code 0x34 0 0 1 9) [(1, 5#64)] with
            threads := [(0, { run := .ready, regs := [(1, 5#64)] }), (1, { run := .stalled, wait := .counter 9 3 5#32 })] })] } with
     | .next t => some (((t.mast 0).thread 1).run, ((t.mast 0).thread 1).reg 3)
     | _ => none) = some (.ready, 5#64) := by decide +kernel

/-- RDSYS: the mast's number on its die, and its die. -/
theorem test_rdsys :
    let s := fun (n : Nat) => ({ masts := [(2000, lone (code 0x38 2 0 0 n))] } : State)
    let r := fun (x : Result) => match x with | .next t => some (((t.mast 2000).thread 0).reg 2) | _ => none
    r (Sys2Proof.Machine.exec (.rdsys 2000 0) (s 1)) = some 80#64 ∧
    r (Sys2Proof.Machine.exec (.rdsys 2000 0) (s 2)) = some 10#64 := by decide +kernel

/-- FETCHW of a mast of no partition claims nothing: 2^63 is on its way. -/
theorem test_fetchw :
    (match Sys2Proof.Machine.exec (.fetchw 0 0) (core (code 0x33 2)) with
     | .next t => some ((t.mast 0).thread 0).wait | _ => none) =
      some (.fetched 2 0x8000000000000000#64 0) := by decide +kernel

/-! ### Engines -/

/-- LOCAL moves eight bytes from 64 to 128. -/
theorem test_local :
    let s : State := { masts := [(0, { power := .lit, pad := [(64, 7#8), (71, 9#8)], queues := [(0, [headPost (rowDesc 3 8)])] })] }
    (match Sys2Proof.Machine.exec (.localCopy 0 0) s with
     | .next t => some ((t.mast 0).byte 128, (t.mast 0).byte 135, (t.mast 0).byte 136) | _ => none) =
      some (7#8, 9#8, 0#8) := by decide +kernel

/-- A jib operation of one F32 element over A at 0 and B at 4, result at 1,024. -/
def jibAt (op a b : Nat) : State :=
  { masts := [(0, { power := .lit, pad := FMap.writeLE (FMap.writeLE [] 0 4 a) 4 4 b,
                    queues := [(3, [headPost (jibDesc op + 4 * 2 ^ 188)])] })] }

def jibResult (x : Result) : Option Nat := match x with | .next t => some ((t.mast 0).padRead 1024 4) | _ => none

/-- 1 + 2, 3 × 3, the root of 4, the reciprocal of 2. -/
theorem test_jib_arith :
    jibResult (Sys2Proof.Machine.exec (.jibAdd 0) (jibAt 0x01 0x3F800000 0x40000000)) = some 0x40400000 ∧
    jibResult (Sys2Proof.Machine.exec (.jibMul 0) (jibAt 0x03 0x40400000 0x40400000)) = some 0x41100000 ∧
    jibResult (Sys2Proof.Machine.exec (.sqrt 0) (jibAt 0x0C 0x40800000 0)) = some 0x40000000 ∧
    jibResult (Sys2Proof.Machine.exec (.recip 0) (jibAt 0x0A 0x40000000 0)) = some 0x3F000000 := by decide +kernel

/-- The exponential of 0, and of −∞; the logarithm of 1. -/
theorem test_jib_functions :
    jibResult (Sys2Proof.Machine.exec (.exp 0) (jibAt 0x08 0 0)) = some 0x3F800000 ∧
    jibResult (Sys2Proof.Machine.exec (.exp 0) (jibAt 0x08 0xFF800000 0)) = some 0 ∧
    jibResult (Sys2Proof.Machine.exec (.log 0) (jibAt 0x09 0x3F800000 0)) = some 0 := by decide +kernel

/-- A mast that wakes from Wick is Lit and counted; from Dark it is Lit with nothing in its accumulator. -/
theorem test_wakes :
    (match Sys2Proof.Machine.exec (.darkWakeDone 5) { masts := [(5, { power := .wakingDark, acc := [(0, 1#32)] })] } with
     | .next t => some ((t.mast 5).power, (t.mast 5).acc, t.val 0x3800 6) | _ => none) = some (.lit, [], 1) ∧
    goesOn (Sys2Proof.Machine.exec (.shutterEntry 0) (powered { power := .lit })) :=
  ⟨by decide +kernel, ⟨_, rfl⟩⟩

/-! ### The package -/

/-- A package without power is Off; the pilot tick of a package that is on advances on an empty queue. -/
theorem test_power_and_tick :
    (match Sys2Proof.Machine.exec .powerLoss ready with | .next t => some t.pkg | _ => none) = some pkgOff ∧
    (match Sys2Proof.Machine.step { ready with tick := 5 } with | .next t => some t.tick | _ => none) = some 6 := by decide +kernel

/-- A sensor at 95 °C brings the thermal ceiling to 32. -/
theorem test_thermal :
    valAfter 0x2200 5 (Sys2Proof.Machine.exec (.thermalThrottle 7 95) ready) = some 32 ∧
    valAfter 0x2100 2 (Sys2Proof.Machine.exec (.thermalThrottle 7 95) ready) = some 32 := by decide +kernel

/-- A cap of 2,850 W waits for the edge, and is live after it; 2,801 W is not a step of 50 W and waits for nothing. -/
theorem test_powerCap :
    (match Sys2Proof.Machine.exec (.powerCapWrite (.operator 0) 2850) ready with
     | .next t => some (t.writes, t.val 0x2100 1) | _ => none) = some ([(0x2100, 1, 2850)], 5600) ∧
    (match Sys2Proof.Machine.exec (.powerCapWrite (.operator 0) 2801) ready with
     | .next t => some t.writes | _ => none) = some [] ∧
    (ready.liveWrite (0x2100, 1, 2850)).val 0x2100 1 = 2850 := by decide +kernel

/-- An operator's write to a staged object goes to its staging set, not to the committed value. -/
theorem test_staged :
    (match Sys2Proof.Machine.exec (.registerWrite (.operator 0) 0x2200 1 ⟨1, 90⟩) ready with
     | .next t => some ((t.stager 0).set, t.val 0x2200 1) | _ => none) = some ([(0x220001, ⟨1, 90⟩)], 95) := by
  decide +kernel

/-- Step 1 of start-up ends from reset; a package that is Off has no start-up and stays as it is. -/
theorem test_startup :
    valAfter 0x2500 1 (Sys2Proof.Machine.exec (.startupStep false 0) {}) = some 1 ∧
    valAfter 0x2500 1 (Sys2Proof.Machine.exec (.startupStep false 0) { dict := [(0x200001, ⟨1, 0⟩)] }) = some 0 := by
  decide +kernel

/-- A message on a Live port whose entry permits no channel is counted as policed. -/
theorem test_policed :
    valAfter 0x4016 0xF (Sys2Proof.Machine.exec (.readReq 6 { okMsg with len := 8 }) (bowsprit 0)) = some 1 := by
  decide +kernel

/-- Table 15.3: every lane of a port leaves from one die; Y+ lane 9 from die 14 (R479); R480 and Table 15.4: with die 0
fenced, a Live X- port goes into Retrain and offers 12 lanes. -/
theorem test_fencedLanes :
    (∀ p ∈ List.range 7, (List.range 16).foldl (fun n d => n + dieLanes p d) 0 = portLanes p) ∧ bitOf (dieLanes 2 14) 9 = true ∧
    (let s : State := { ports := [(1, { link := { st := portLive, width := 16, map := 0xFFFF } })], dict := [(0x718001, ⟨2, 1⟩)] }
     ((s.loseDieLanes 0).portState 1, (s.portWord 1 0xFFFF).claim) = (portRetrain, 12)) := by decide +kernel

/-- The first command of the queue runs on the state with the rest. -/
theorem test_queue :
    (match Sys2Proof.Machine.step { pending := [.dynamicAddress 9, .powerLoss] } with
     | .next t => some (t.i3cAddr, t.pending) | _ => none) = some (9, [.powerLoss]) := by decide +kernel

end Sys2Proof.Tests
end

/-! SUPPORT. What every command leaves as it was: the waiting commands and what the fuses say of the variant (O6).

`State.kept` is the part of the state that no command touches, and each operation of the model has one lemma that says so:
`(s.op …).kept = s.kept` for an operation on states, `(execOp … s).kept = some s.kept` for a command, which says at once that
the command goes on. The lemmas stand in the order of the model's files. They are rewriting rules that apply before the
terms inside are visited (`simp ↓`): `simp` peels an operation's body from the outside, one operation it is built from at a
time, and does not look at the values that are written. What needs a step of its own stays visible: a body that branches on
data is split, one that repeats itself goes by induction on its fuel, and one that continues with an operation passed to it
takes the hypothesis that this operation keeps the two pieces. (`-Nat.reducePow`: a modulus too large to be computed.) -/

namespace Sys2Proof.Machine

-- One proof at a time: each waits for the lemmas that it rewrites by, and threads that wait take the check's memory.
set_option Elab.async false

/-! ### What is kept -/

/-- The pieces that no command touches: the waiting commands and what the fuses say of the variant (R1). -/
def State.kept (s : State) : List Instr × Identity := (s.pending, s.ident)

/-- What the state that an outcome goes on with keeps; an outcome that stops keeps nothing. -/
def Result.kept : Result → Option (List Instr × Identity)
  | .next s => some s.kept
  | .fault _ => none
  | .refused _ => none

@[simp ↓] theorem Result.kept_next (s : State) : Result.kept (.next s) = some s.kept := by simp only [Result.kept]

/-- Only an outcome that goes on keeps anything. -/
theorem Result.exists_next_of_kept {r : Result} {x : List Instr × Identity} (h : r.kept = some x) :
    ∃ t, r = .next t ∧ t.kept = x := by
  cases r with
  | next t => exact ⟨t, rfl, by simpa using h⟩
  | fault f => cases h
  | refused f => cases h

/-- A frame that names neither of the two pieces keeps them. -/
theorem changesOnly.kept {fs : List Piece} {s t : State} (h : changesOnly fs s t)
    (hp : Piece.pending ∉ fs := by decide) (hi : Piece.ident ∉ fs := by decide) : t.kept = s.kept :=
  Prod.ext (h .pending hp) (h .ident hi)

/-- The state of a pair, under a name that a `match` gave it. -/
theorem State.kept_of_eq {α : Type} {p : α × State} {a : α} {t : State} (h : p = (a, t)) : t.kept = p.2.kept := by
  rw [h]

/-- The state that an operation leaves, where it leaves one, keeps what `s` keeps. -/
def State.keptIn (s : State) (o : Option State) : Prop := ∀ t ∈ o, t.kept = s.kept

@[simp] theorem State.keptIn_none (s : State) : s.keptIn none := by simp [State.keptIn]

@[simp] theorem State.keptIn_some (s t : State) : s.keptIn (some t) ↔ t.kept = s.kept := by simp [State.keptIn]

/-! ### What is kept through updates, branches and folds

The first two rules turn an update of other fields into the state that it began from. (They are no `rfl` lemmas, for `simp`
must find a proof term where it proves the hypothesis of `State.kept_foldl` by them.) -/

@[simp ↓] theorem State.kept_mk
    {pending tick free draws outbox ident mem poisoned grad panes trims masts parts lines uses directory trackers
     streams openRows heldReqs hot hotSince hbm lantern silent dict snaps snapRing writes rings limits sessions
     stagers commits commitNum deferred accepted plans holds holdNum sent sentNum ports heard remote remoteNum rats
     flows bondSince coreLoads mailSlots mailbox peerMail resets grants domains power fw mgmtRate mgmtSince i3cAddr
     ibien hellos carve} :
    (State.mk pending tick free draws outbox ident mem poisoned grad panes trims masts parts lines uses
      directory trackers streams openRows heldReqs hot hotSince hbm lantern silent dict snaps snapRing
      writes rings limits sessions stagers commits commitNum deferred accepted plans holds holdNum sent
      sentNum ports heard remote remoteNum rats flows bondSince coreLoads mailSlots mailbox peerMail
      resets grants domains power fw mgmtRate mgmtSince i3cAddr ibien hellos carve).kept =
      (pending, ident) := Prod.ext rfl rfl

@[simp ↓] theorem State.kept_pair (s : State) : (s.pending, s.ident) = s.kept := Prod.ext rfl rfl

@[simp ↓] theorem State.kept_ite {c : Prop} [Decidable c] (s t : State) :
    (if c then s else t).kept = if c then s.kept else t.kept := apply_ite ..

/-- The same for one branch at a time, where the branches need proofs of their own. -/
theorem State.ite_kept {c : Prop} [Decidable c] {s t u : State} (ht : t.kept = s.kept) (hu : u.kept = s.kept) :
    (if c then t else u).kept = s.kept := by
  split <;> assumption

@[simp ↓] theorem State.kept_ite_snd {α : Type} {c : Prop} [Decidable c] (a b : α × State) :
    (if c then a else b).2.kept = if c then a.2.kept else b.2.kept := apply_ite (fun x : α × State => x.2.kept) ..

@[simp ↓] theorem Result.kept_ite {c : Prop} [Decidable c] (r r' : Result) :
    Result.kept (if c then r else r') = if c then r.kept else r'.kept := apply_ite ..

@[simp ↓] theorem State.kept_foldl {β : Type} (f : State → β → State) (hf : ∀ s b, (f s b).kept = s.kept)
    (l : List β) (s : State) : (l.foldl f s).kept = s.kept := by
  induction l generalizing s with
  | nil => rfl
  | cons b l ih => exact (ih (f s b)).trans (hf s b)

/-- The same for a fold that carries a value beside the state. -/
@[simp ↓] theorem State.kept_foldl_snd {α β : Type} (f : α × State → β → α × State)
    (hf : ∀ a b, (f a b).2.kept = a.2.kept) (l : List β) (a : α × State) : (l.foldl f a).2.kept = a.2.kept := by
  induction l generalizing a with
  | nil => rfl
  | cons b l ih => exact (ih (f a b)).trans (hf a b)

@[simp ↓] theorem State.kept_forRange (n : Nat) (s : State) (f : Nat → State → State)
    (hf : ∀ i s, (f i s).kept = s.kept) : (forRange n s f).kept = s.kept :=
  State.kept_foldl _ (fun s i => hf i s) _ s

@[simp ↓] theorem guardEvent_kept (ok : Bool) (s : State) (k : Result) :
    (guardEvent ok s k).kept = if ok then k.kept else some s.kept := by
  cases ok <;> simp

/-! ### The named operations over the state -/

section
variable (s : State) (n a idx sub bits v m : Nat) (e : Event) (r : Requester)

@[simp ↓] theorem State.emit_kept (kind : OutKind) (b : Nat) (data : Octets) :
    (s.emit kind a b data).kept = s.kept := (s.emit_frame kind a b data).kept

@[simp ↓] theorem State.open_kept : (s.open bits).2.kept = s.kept := (s.open_frame bits).kept
@[simp ↓] theorem State.draw_kept : (s.draw bits).2.kept = s.kept := (s.draw_frame bits).kept

@[simp ↓] theorem State.setObj_kept (v : Octets) :
    (s.setObj idx sub v).kept = s.kept := (s.setObj_frame idx sub v).kept

@[simp ↓] theorem State.setVal_kept : (s.setVal idx sub v).kept = s.kept := (s.setVal_frame idx sub v).kept
@[simp ↓] theorem State.bump_kept : (s.bump idx sub n).kept = s.kept := (s.bump_frame idx sub n).kept

@[simp ↓] theorem State.setPart_kept (p : Nat) (x : Part) :
    (s.setPart p x).kept = s.kept := (s.setPart_frame p x).kept

@[simp ↓] theorem State.setRing_kept (g : Ring) : (s.setRing n g).kept = s.kept := (s.setRing_frame n g).kept
@[simp ↓] theorem State.pushNew_kept : s.pushNew.kept = s.kept := s.pushNew_frame.kept
@[simp ↓] theorem State.post_kept : (s.post e).kept = s.kept := (s.post_frame e).kept

@[simp ↓] theorem State.postLimited_kept (id gap : Nat) :
    (s.postLimited id gap e).kept = s.kept := (s.postLimited_frame id gap e).kept

@[simp ↓] theorem State.store_kept : (s.store a n v).kept = s.kept := (s.store_frame a n v).kept
@[simp ↓] theorem State.zeroMem_kept : (s.zeroMem a n).kept = s.kept := (s.zeroMem_frame a n).kept
@[simp ↓] theorem State.poisonHalf_kept (h : Nat) : (s.poisonHalf h).kept = s.kept := by simp [State.poisonHalf]

@[simp ↓] theorem State.blockedFor_kept (parts : List Nat) :
    (s.blockedFor r parts a n).kept = s.kept := (s.blockedFor_frame r parts a n).kept

@[simp ↓] theorem State.blocked_kept (part : Option Nat) :
    (s.blocked r part a n).kept = s.kept := (s.blocked_frame r part a n).kept

@[simp ↓] theorem State.setMast_kept (x : Mast) : (s.setMast m x).kept = s.kept := (s.setMast_frame m x).kept

@[simp ↓] theorem State.hostError_kept (rule item : Nat) : (s.hostError m rule item).kept = s.kept := by
  simp [State.hostError]

end

/-! ### External ports: flits, credit and routing -/

section
variable (s : State) (p vc cls : Nat) (q : Queued) (msg : Octets)

@[simp ↓] theorem State.setPort_kept (x : Port) : (s.setPort p x).kept = s.kept := (s.setPort_frame p x).kept
@[simp ↓] theorem State.portGo_kept (st : Nat) : (s.portGo p st).kept = s.kept := by simp [State.portGo]
@[simp ↓] theorem State.emitFlit_kept (f : StayFlit) : (s.emitFlit p f).kept = s.kept := by simp [State.emitFlit]

@[simp ↓] theorem State.sendControl_kept (kind contents : Nat) : (s.sendControl p kind contents).kept = s.kept := by
  simp [State.sendControl]

@[simp ↓] theorem State.grantShared_kept : (s.grantShared p).kept = s.kept := by
  unfold State.grantShared; dsimp only; split <;> simp

@[simp ↓] theorem State.sendCredit_kept : (s.sendCredit p).kept = s.kept := by simp [State.sendCredit]

@[simp ↓] theorem State.freeCredit_kept (n : Nat) : (s.freeCredit p vc cls n).kept = s.kept := by
  simp [State.freeCredit]

@[simp ↓] theorem State.takePlace_kept : (s.takePlace p vc cls).kept = s.kept := by simp [State.takePlace]
@[simp ↓] theorem State.shareOut_kept : (s.shareOut p).kept = s.kept := by simp [State.shareOut]
@[simp ↓] theorem State.police_kept (cause : Nat) : (s.police p cause).kept = s.kept := by simp [State.police]
@[simp ↓] theorem State.sendPiece_kept : (s.sendPiece p q).kept = s.kept := by simp [State.sendPiece]
@[simp ↓] theorem State.sendFlit_kept : (s.sendFlit p q).kept = s.kept := by simp [State.sendFlit]

@[simp ↓] theorem State.pumpFrom_kept (fuel : Nat) : (s.pumpFrom p fuel).kept = s.kept := by
  induction fuel generalizing s with
  | zero => rfl
  | succ n ih => unfold State.pumpFrom; dsimp only; (repeat' split) <;> simp [ih]

@[simp ↓] theorem State.noteStarved_kept : (s.noteStarved p).kept = s.kept := by simp [State.noteStarved]
@[simp ↓] theorem State.pump_kept : (s.pump p).kept = s.kept := by simp [State.pump]
@[simp ↓] theorem State.enqueue_kept (qs : List Queued) : (s.enqueue p qs).kept = s.kept := by simp [State.enqueue]
@[simp ↓] theorem State.sendPort_kept : (s.sendPort p vc msg).kept = s.kept := by simp [State.sendPort]

@[simp ↓] theorem State.sendTo_kept (dst mark : Nat) : (s.sendTo vc dst mark msg).kept = s.kept := by
  unfold State.sendTo; split <;> simp

end

/-! ### The ratline array -/

section
variable (s : State) (side d : Nat)

@[simp ↓] theorem State.setRat_kept (x : RatDir) : (s.setRat d side x).kept = s.kept := (s.setRat_frame d side x).kept

@[simp ↓] theorem State.setFlow_kept (x : RatFlow) :
    (s.setFlow d side x).kept = s.kept := (s.setFlow_frame d side x).kept

end

/-! ### Far caches, directory and trackers -/

section
variable (s : State) (l g c who n w d a wrong h stack half k : Nat) (q : LineReq) (st : LineState) (x : DirEntry)
  (halves : List Nat) (ask : LineAsk) (whole write : Bool)

@[simp ↓] theorem State.setLine_kept (x : Line) : (s.setLine g l x).kept = s.kept := by simp [State.setLine]
@[simp ↓] theorem State.dropLine_kept : (s.dropLine g l).kept = s.kept := by simp [State.dropLine]
@[simp ↓] theorem State.touchLine_kept : (s.touchLine g l st).kept = s.kept := by simp [State.touchLine]
@[simp ↓] theorem State.setDir_kept : (s.setDir l x).kept = s.kept := by simp [State.setDir]

@[simp ↓] theorem State.countCache_kept (idx sub : Nat) : (s.countCache g idx sub).kept = s.kept := by
  simp [State.countCache]

@[simp ↓] theorem State.alertWatches_kept : (s.alertWatches g l).kept = s.kept := by simp [State.alertWatches]
@[simp ↓] theorem State.openRow_kept : (s.openRow c h).kept = s.kept := by simp [State.openRow]
@[simp ↓] theorem State.setTracker_kept (x : Tracker) : (s.setTracker n x).kept = s.kept := by simp [State.setTracker]
@[simp ↓] theorem State.received_kept : (s.received c halves).kept = s.kept := by simp [State.received]
@[simp ↓] theorem State.noteUse_kept : (s.noteUse c).kept = s.kept := by simp [State.noteUse]

@[simp ↓] theorem State.takeEntries_kept (pref read : Bool) : (s.takeEntries c q pref read).kept = s.kept := by
  simp [State.takeEntries]

@[simp ↓] theorem State.refuseEntry_kept (why : Nat) : (s.refuseEntry c l q why).kept = s.kept := by
  simp [State.refuseEntry]

@[simp ↓] theorem State.recallHolder_kept : (s.recallHolder g l).kept = s.kept := by
  unfold State.recallHolder; dsimp only; (repeat' split) <;> simp

@[simp ↓] theorem State.recall_kept (home keep : Nat) : (s.recall home keep l).kept = s.kept := by simp [State.recall]
@[simp ↓] theorem State.dirRoom_kept : (s.dirRoom l).kept = s.kept := by simp [State.dirRoom]
@[simp ↓] theorem State.shareHome_kept : (s.shareHome h l).kept = s.kept := by unfold State.shareHome; split <;> simp

@[simp ↓] theorem State.serveLine_kept : (s.serveLine l q).kept = s.kept := by
  unfold State.serveLine; dsimp only; (repeat' split) <;> simp

@[simp ↓] theorem State.reach_kept : (s.reach l q).kept = s.kept := by simp [State.reach]

@[simp ↓] theorem State.serveNext_kept (fuel : Nat) : (s.serveNext l fuel).kept = s.kept := by
  induction fuel generalizing s with
  | zero => rfl
  | succ n ih => unfold State.serveNext; dsimp only; (repeat' split) <;> simp [ih]

@[simp ↓] theorem State.endTransaction_kept : (s.endTransaction l x).kept = s.kept := by simp [State.endTransaction]
@[simp ↓] theorem State.sendLine_kept : (s.sendLine l g ask who halves).kept = s.kept := by simp [State.sendLine]

@[simp ↓] theorem State.accessHome_kept (op : HomeOp) : (s.accessHome who op a n).kept = s.kept := by
  simp [State.accessHome]

@[simp ↓] theorem State.adaptDepth_kept (grow : Bool) : (s.adaptDepth g l grow).kept = s.kept := by
  simp [State.adaptDepth]

@[simp ↓] theorem State.prefetchLine_kept : (s.prefetchLine g w l).kept = s.kept := by simp [State.prefetchLine]

@[simp ↓] theorem State.trainPrefetch_kept : (s.trainPrefetch g w l).kept = s.kept := by
  unfold State.trainPrefetch; dsimp only; (repeat' split) <;> simp

@[simp ↓] theorem State.upgrade_kept : (s.upgrade g l who whole).kept = s.kept := by simp [State.upgrade]

@[simp ↓] theorem State.demandLine_kept : (s.demandLine g w who write whole l).kept = s.kept := by
  unfold State.demandLine; (repeat' split) <;> simp

@[simp ↓] theorem State.demand_kept : (s.demand g w who a n write).kept = s.kept := by simp [State.demand]

@[simp ↓] theorem State.keepShared_kept : (s.keepShared g l).kept = s.kept := by
  unfold State.keepShared; (repeat' split) <;> simp

@[simp ↓] theorem State.evictLine_kept : (s.evictLine g l st).kept = s.kept := by
  unfold State.evictLine; split <;> simp

@[simp ↓] theorem State.lineRoom_kept : (s.lineRoom g l).kept = s.kept := by
  unfold State.lineRoom; dsimp only; (repeat' split) <;> simp

@[simp ↓] theorem execDirectoryRequest_kept : (execDirectoryRequest g l ask s).kept = some s.kept := by
  unfold execDirectoryRequest; (repeat' split) <;> simp

@[simp ↓] theorem State.fillLine_kept : (s.fillLine g l st x).kept = s.kept := by simp [State.fillLine]

@[simp ↓] theorem State.fill_kept : (s.fill l q).kept = s.kept := by
  unfold State.fill; dsimp only; (repeat' split) <;> simp

@[simp ↓] theorem execForwardedRead_kept : (execForwardedRead g l s).kept = some s.kept := by
  unfold execForwardedRead; (repeat' split) <;> simp

@[simp ↓] theorem execInvalidate_kept : (execInvalidate g l s).kept = some s.kept := by
  unfold execInvalidate; dsimp only; (repeat' split) <;> simp

@[simp ↓] theorem State.uncorrectable_kept : (s.uncorrectable stack half).kept = s.kept := by
  simp [State.uncorrectable]

@[simp ↓] theorem State.decodeHalf_kept : (s.decodeHalf stack half wrong).kept = s.kept := by simp [State.decodeHalf]

@[simp ↓] theorem State.accessDone_kept (a : Access) : (s.accessDone c a wrong).kept = s.kept := by
  simp [State.accessDone]

@[simp ↓] theorem execTrackerGrantTimeout_kept : (execTrackerGrantTimeout c s).kept = some s.kept := by
  unfold execTrackerGrantTimeout; dsimp only; split <;> simp

@[simp ↓] theorem execPatrolScrub_kept : (execPatrolScrub k wrong s).kept = some s.kept := by simp [execPatrolScrub]

@[simp ↓] theorem execHbmTempSample_kept (temp : Nat) : (execHbmTempSample k temp s).kept = some s.kept := by
  simp [execHbmTempSample]

@[simp ↓] theorem State.postHot_kept (parts : Nat) : (s.postHot d c parts).kept = s.kept := by simp [State.postHot]

@[simp ↓] theorem State.hotChannelEnd_kept (total : Nat) : (s.hotChannelEnd d total c).kept = s.kept := by
  simp [State.hotChannelEnd]

@[simp ↓] theorem execHotWindowEnd_kept : (execHotWindowEnd d s).kept = some s.kept := by simp [execHotWindowEnd]
@[simp ↓] theorem State.loseLine_kept : (s.loseLine l).kept = s.kept := by simp [State.loseLine]
@[simp ↓] theorem State.dropLines_kept : (s.dropLines a n).kept = s.kept := by simp [State.dropLines]
@[simp ↓] theorem State.flushAgent_kept : (s.flushAgent d).kept = s.kept := by simp [State.flushAgent]

@[simp ↓] theorem State.forgetRequests_kept (mine : Nat → Bool) :
    (s.forgetRequests mine).kept = s.kept := (s.forgetRequests_frame mine).kept

end

/-! ### Memory requests -/

section
variable (s : State) (a n v who : Nat) (part : Option Nat) (r : Requester)

@[simp ↓] theorem State.fetchFor_kept (write : Bool) : (s.fetchFor r part a n write).kept = s.kept := by
  unfold State.fetchFor; split <;> simp

@[simp ↓] theorem State.readReq_kept : (s.readReq r part a n).2.kept = s.kept := by simp [State.readReq]
@[simp ↓] theorem State.writeReq_kept : (s.writeReq r part a n v).2.kept = s.kept := by simp [State.writeReq]
@[simp ↓] theorem State.readMany_kept : (s.readMany r part a n).2.kept = s.kept := by simp [State.readMany]
@[simp ↓] theorem State.writeMany_kept : (s.writeMany r part a n v).2.kept = s.kept := by simp [State.writeMany]
@[simp ↓] theorem State.engineValue_kept : (s.engineValue a n).2.kept = s.kept := by simp [State.engineValue]
@[simp ↓] theorem State.engineKeep_kept : (s.engineKeep a n v).kept = s.kept := by simp [State.engineKeep]
@[simp ↓] theorem State.engineLoad_kept : (s.engineLoad who a n).2.kept = s.kept := by simp [State.engineLoad]
@[simp ↓] theorem State.engineStore_kept : (s.engineStore who a n v).kept = s.kept := by simp [State.engineStore]
@[simp ↓] theorem State.homeAtomic_kept : (s.homeAtomic who a).kept = s.kept := by simp [State.homeAtomic]
@[simp ↓] theorem State.atomicWord_kept : (s.atomicWord r part a).2.kept = s.kept := by simp [State.atomicWord]

end

/-! ### Training state on the base dies -/

section
variable (s : State) (part : Option Nat) (n die d tag p a k off fmt utag key v reg : Nat) (r : Requester) (g : Region)
  (xs : List Fp)

@[simp ↓] theorem State.formatSlot_kept (rec : Nat) : (s.formatSlot die rec fmt).2.kept = s.kept := by
  unfold State.formatSlot; dsimp only; split <;> simp

@[simp ↓] theorem State.lanternAdd_kept : (s.lanternAdd key n).kept = s.kept := by simp [State.lanternAdd]

@[simp ↓] theorem State.countValue_kept (w : Written) : (s.countValue die part tag fmt w).kept = s.kept := by
  unfold State.countValue; dsimp only; (repeat' split) <;> simp

@[simp ↓] theorem State.countAll_kept (ws : List Written) : (s.countAll die part tag fmt ws).kept = s.kept := by
  simp [State.countAll]

@[simp ↓] theorem State.tagFigure_kept (word : Nat) : (s.tagFigure die part tag word n).kept = s.kept := by
  unfold State.tagFigure; split <;> simp

@[simp ↓] theorem State.tagError_kept (e : Nat) : (s.tagError die part tag e).kept = s.kept := by
  unfold State.tagError; split <;> simp

@[simp ↓] theorem State.countInto_kept (most : Bool) : (s.countInto die p a n most).kept = s.kept := by
  simp [State.countInto]

@[simp ↓] theorem State.flushCount_kept : (s.flushCount key n).kept = s.kept := by
  unfold State.flushCount; dsimp only; split <;> simp

@[simp ↓] theorem execLanternFlush_kept : (execLanternFlush d s).kept = some s.kept := by simp [execLanternFlush]
@[simp ↓] theorem State.setPane_kept (x : Pane) : (s.setPane p d k x).kept = s.kept := by simp [State.setPane]

@[simp ↓] theorem State.gradRead_kept : (s.gradRead r part a n).2.kept = s.kept := by
  unfold State.gradRead; split <;> simp

@[simp ↓] theorem State.lateWrite_kept : (s.lateWrite r p d k utag).kept = s.kept := by simp [State.lateWrite]
@[simp ↓] theorem State.openPane_kept : (s.openPane p d k).kept = s.kept := by simp [State.openPane]

@[simp ↓] theorem State.gradWrite_kept : (s.gradWrite r part utag a n v).2.kept = s.kept := by
  unfold State.gradWrite; split <;> simp

@[simp ↓] theorem State.countAdd_kept (big nan : Bool) : (s.countAdd d big nan).kept = s.kept := by
  simp [State.countAdd]

@[simp ↓] theorem State.gradAdd_kept : (s.gradAdd r part utag a xs).2.kept = s.kept := by
  unfold State.gradAdd; split <;> simp

@[simp ↓] theorem State.memAdd_kept : (s.memAdd r part a xs).2.kept = s.kept := by simp [State.memAdd]
@[simp ↓] theorem execPaneDrainEnd_kept : (execPaneDrainEnd d p k s).kept = some s.kept := by simp [execPaneDrainEnd]

@[simp ↓] theorem State.setZeroRun_kept (granule : Nat) (b : Bool) :
    (s.setZeroRun r part g granule b).2.kept = s.kept := by simp [State.setZeroRun]

@[simp ↓] theorem State.writeStored_kept : (s.writeStored r part die tag g off n v).2.kept = s.kept := by
  simp [State.writeStored, -Nat.reducePow]

@[simp ↓] theorem State.blockedView_kept : (s.blockedView r part reg off n).kept = s.kept := by
  simp [State.blockedView]

@[simp ↓] theorem State.convertOut_kept (s : State) (r : Requester) (part : Option Nat) (compat : Bool)
    (tag reg off n v : Nat) : (s.convertOut r part compat tag reg off n v).2.kept = s.kept := by
  unfold State.convertOut
  split
  · simp
  · dsimp only
    split
    · simp
    · split
      · simp only [State.countAll_kept, State.writeMany_kept, State.tagFigure_kept, State.bump_kept,
          State.writeStored_kept]
        refine (State.kept_foldl _ (fun t b => ?_) _ _).trans (by simp)
        split <;> simp
      · simp

@[simp ↓] theorem State.readStored_kept : (s.readStored r part g off n).2.kept = s.kept := by simp [State.readStored]

@[simp ↓] theorem State.convertIn_kept (compat : Bool) : (s.convertIn r part compat reg off n).2.kept = s.kept := by
  unfold State.convertIn; split <;> simp

end

/-! ### Deadline admission -/

section
variable (s : State) (k : Nat)

@[simp ↓] theorem State.noteVerdict_kept (st : Nat) (v : Verdict) : (s.noteVerdict k st v).kept = s.kept := by
  simp [State.noteVerdict]

@[simp ↓] theorem State.rejudge_kept : (s.rejudge k).kept = s.kept := by simp [State.rejudge]
@[simp ↓] theorem State.readmit_kept : s.readmit.kept = s.kept := by simp [State.readmit]

end

/-! ### The halyard -/

section
variable (s : State) (m k a e n desc : Nat) (r : Requester) (part : Option Nat) (compat : Bool)

@[simp ↓] theorem startOp_kept (m e op : Nat) (s : State) (k : Mast → Posted → Result)
    (hk : ∀ x p, (k x p).kept = some s.kept) : (startOp m e op s k).kept = some s.kept := by
  unfold startOp; dsimp only; split <;> simp [hk]

@[simp ↓] theorem State.began_kept (r : Running) : (s.began m e r).kept = s.kept := by simp [State.began]

@[simp ↓] theorem State.completeRun_kept (r : Running) : (s.completeRun m e r).kept = s.kept := by
  simp [State.completeRun]

@[simp ↓] theorem State.readRow_kept : (s.readRow r part compat a n).2.kept = s.kept := by
  unfold State.readRow; split <;> simp

@[simp ↓] theorem State.writeRow_kept (v : Nat) : (s.writeRow r part compat desc a n v).2.kept = s.kept := by
  unfold State.writeRow; split <;> simp

@[simp ↓] theorem State.addRow_kept (xs : List Fp) : (s.addRow r part desc a xs).2.kept = s.kept := by
  unfold State.addRow; split <;> simp

@[simp ↓] theorem execCopyIn_kept : (execCopyIn m k s).kept = some s.kept := by simp [execCopyIn]
@[simp ↓] theorem execCopyOut_kept : (execCopyOut m k s).kept = some s.kept := by simp [execCopyOut]
@[simp ↓] theorem execMesh_kept : (execMesh m k s).kept = some s.kept := by simp [execMesh]
@[simp ↓] theorem execLocalCopy_kept : (execLocalCopy m k s).kept = some s.kept := by simp [execLocalCopy]
@[simp ↓] theorem execAddOut_kept : (execAddOut m k s).kept = some s.kept := by simp [execAddOut]

@[simp ↓] theorem execHalyardComplete_kept : (execHalyardComplete m k s).kept = some s.kept := by
  unfold execHalyardComplete; split <;> simp

@[simp ↓] theorem execMeshArrival_kept : (execMeshArrival m k s).kept = some s.kept := by
  unfold execMeshArrival; split <;> simp

@[simp ↓] theorem execMeshAck_kept : (execMeshAck m k s).kept = some s.kept := by unfold execMeshAck; split <;> simp

end

/-! ### The mainsail -/

@[simp ↓] theorem startSail_kept (m op : Nat) (s : State) (check : Sail → Mast → Option (Nat × Nat))
    (rowsOf : Sail → List Nat) (body : Sail → Mast → Mast) (int : Sail → Mast → Bool) (steps : Sail → Nat) :
    (startSail m op s check rowsOf body int steps).kept = some s.kept := by
  unfold startSail
  refine startOp_kept _ _ _ _ _ fun x p => ?_
  dsimp only; (repeat' split) <;> simp

@[simp ↓] theorem execMainsailComplete_kept (m : Nat) (s : State) :
    (execMainsailComplete m s).kept = some s.kept := by unfold execMainsailComplete; (repeat' split) <;> simp

/-! ### The jib -/

@[simp ↓] theorem startJib_kept (m op : Nat) (s : State) : (startJib m op s).kept = some s.kept := by
  unfold startJib
  refine startOp_kept _ _ _ _ _ fun x p => ?_
  dsimp only; (repeat' split) <;> simp

@[simp ↓] theorem execJibComplete_kept (m : Nat) (s : State) : (execJibComplete m s).kept = some s.kept := by
  unfold execJibComplete; dsimp only; split <;> simp

/-! ### The control core -/

section
variable (s : State) (t m d : Nat) (th : Thread) (v : Word64)

@[simp ↓] theorem issue_kept (m t op : Nat) (s : State) (k : Mast → Thread → Operands → Result)
    (hk : ∀ x th o, (k x th o).kept = some s.kept) : (issue m t op s k).kept = some s.kept := by
  unfold issue; simp [hk]

@[simp ↓] theorem retire_kept (x : Mast) : (retire m t s x th).kept = s.kept := (retire_frame m t s x th).kept

@[simp ↓] theorem alu_kept (op : Nat) (f : Word64 → Word64 → Word64) : (alu m t op f s).kept = some s.kept := by
  simp [alu]

@[simp ↓] theorem execNop_kept : (execNop m t s).kept = some s.kept := by simp [execNop]

@[simp ↓] theorem padOperand_kept (m : Nat) (s : State) (a : Word64) (k : Nat → Result)
    (hk : ∀ n, (k n).kept = some s.kept) : (padOperand m s a k).kept = some s.kept := by
  unfold padOperand; simp [hk]

@[simp ↓] theorem execLds_kept : (execLds m t s).kept = some s.kept := by simp [execLds]
@[simp ↓] theorem execSts_kept : (execSts m t s).kept = some s.kept := by simp [execSts]

@[simp ↓] theorem awaitResult_kept (addr : Option Nat) : (awaitResult m t s th d v addr).kept = s.kept := by
  simp [awaitResult]

@[simp ↓] theorem execLdm_kept : (execLdm m t s).kept = some s.kept := by simp [execLdm]
@[simp ↓] theorem execStm_kept : (execStm m t s).kept = some s.kept := by simp [execStm]

@[simp ↓] theorem atomicOp_kept (m t op : Nat) (f : Word64 → Word64 → Word64) (s : State) :
    (atomicOp m t op f s).kept = some s.kept := by
  unfold atomicOp
  refine issue_kept _ _ _ _ _ fun _ th o => ?_
  dsimp only; split <;> next h => simp [State.kept_of_eq h]

@[simp ↓] theorem execBr_kept : (execBr m t s).kept = some s.kept := by simp [execBr]
@[simp ↓] theorem execBz_kept : (execBz m t s).kept = some s.kept := by simp [execBz]
@[simp ↓] theorem execBnz_kept : (execBnz m t s).kept = some s.kept := by simp [execBnz]
@[simp ↓] theorem execJal_kept : (execJal m t s).kept = some s.kept := by simp [execJal]

@[simp ↓] theorem execPost_kept (m t : Nat) (s : State) : (execPost m t s).kept = some s.kept := by
  unfold execPost
  refine issue_kept _ _ _ _ _ fun x th o => padOperand_kept _ _ _ _ fun a => ?_
  dsimp only; (repeat' split) <;> simp

@[simp ↓] theorem execPostSlotFree_kept : (execPostSlotFree m t s).kept = some s.kept := by
  unfold execPostSlotFree; dsimp only; split <;> simp

@[simp ↓] theorem execWaitc_kept : (execWaitc m t s).kept = some s.kept := by simp [execWaitc]

@[simp ↓] theorem State.watchWord_kept (a : Nat) (expect : Word64) (ticks : Nat) :
    (s.watchWord m t a expect ticks d th).kept = s.kept := by simp [State.watchWord]

@[simp ↓] theorem execWatch_kept : (execWatch m t s).kept = some s.kept := by simp [execWatch]

@[simp ↓] theorem execWatchEntryFree_kept : (execWatchEntryFree m t s).kept = some s.kept := by
  unfold execWatchEntryFree; dsimp only; split <;> simp

@[simp ↓] theorem State.endWatch_kept : (s.endWatch m t d v).kept = s.kept := by simp [State.endWatch]

@[simp ↓] theorem execWatchChange_kept : (execWatchChange m t s).kept = some s.kept := by
  unfold execWatchChange; dsimp only; split <;> simp

@[simp ↓] theorem execWatchTimeout_kept : (execWatchTimeout m t s).kept = some s.kept := by
  unfold execWatchTimeout; split <;> simp

@[simp ↓] theorem execFetchw_kept (m t : Nat) (s : State) : (execFetchw m t s).kept = some s.kept := by
  unfold execFetchw
  refine issue_kept _ _ _ _ _ fun x th o => ?_
  dsimp only
  split
  · simp
  · split <;> next h => simp [State.kept_of_eq h]

@[simp ↓] theorem execMemoryResultReturn_kept : (execMemoryResultReturn m t s).kept = some s.kept := by
  unfold execMemoryResultReturn; dsimp only; split <;> simp

@[simp ↓] theorem execCinc_kept : (execCinc m t s).kept = some s.kept := by simp [execCinc]
@[simp ↓] theorem execCclr_kept : (execCclr m t s).kept = some s.kept := by simp [execCclr]
@[simp ↓] theorem execStart_kept : (execStart m t s).kept = some s.kept := by simp [execStart]
@[simp ↓] theorem execHalt_kept : (execHalt m t s).kept = some s.kept := by simp [execHalt]

@[simp ↓] theorem execRdsys_kept (m t : Nat) (s : State) : (execRdsys m t s).kept = some s.kept := by
  unfold execRdsys
  refine issue_kept _ _ _ _ _ fun x th o => ?_
  dsimp only; (repeat' split) <;> simp

@[simp ↓] theorem execMastThreadFault_kept : (execMastThreadFault m t s).kept = some s.kept := by
  simp [execMastThreadFault]

end

/-! ### Launch and mast power -/

section
variable (s : State) (m : Nat)

@[simp ↓] theorem State.settleTree_kept (d : Nat) : (s.settleTree d).kept = s.kept := (s.settleTree_frame d).kept

@[simp ↓] theorem State.postHeld_kept (part code num : Nat) : (s.postHeld part code num).kept = s.kept := by
  simp [State.postHeld]

@[simp ↓] theorem State.grantMast_kept : (s.grantMast m).kept = s.kept := (s.grantMast_frame m).kept

@[simp ↓] theorem State.requestMast_kept (v : Nat) : (s.requestMast m v).kept = s.kept := by
  unfold State.requestMast; split <;> simp

@[simp ↓] theorem State.launchMast_kept : (s.launchMast m).kept = s.kept := by simp [State.launchMast]

@[simp ↓] theorem execLaunchCopyDone_kept : (execLaunchCopyDone m s).kept = some s.kept := by
  unfold execLaunchCopyDone; dsimp only; split <;> simp

@[simp ↓] theorem execShutterEntry_kept : (execShutterEntry m s).kept = some s.kept := by simp [execShutterEntry]
@[simp ↓] theorem execShutteredWake_kept : (execShutteredWake m s).kept = some s.kept := by simp [execShutteredWake]

@[simp ↓] theorem execMastPowerDown_kept : (execMastPowerDown m s).kept = some s.kept := by
  unfold execMastPowerDown; dsimp only; split <;> simp

@[simp ↓] theorem execWickWakeDone_kept : (execWickWakeDone m s).kept = some s.kept := by simp [execWickWakeDone]

@[simp ↓] theorem execDarkWakeDone_kept : (execDarkWakeDone m s).kept = some s.kept := by
  unfold execDarkWakeDone; dsimp only; split <;> simp

@[simp ↓] theorem execGrantRequest_kept : (execGrantRequest m s).kept = some s.kept := by simp [execGrantRequest]

end

/-! ### The trim unit -/

section
variable (s : State) (p e d step who cause : Nat) (x : Trim) (f : TrimFactors) (interrupted poison : Bool)

@[simp ↓] theorem State.setTrim_kept : (s.setTrim p e x).kept = s.kept := by simp [State.setTrim]
@[simp ↓] theorem State.countTrim_kept (e : TrimElem) : (s.countTrim d e).kept = s.kept := by simp [State.countTrim]

@[simp ↓] theorem State.trimFetch_kept (spans : List (Nat × Nat) × List (Nat × Nat)) :
    (s.trimFetch who spans).kept = s.kept := by simp [State.trimFetch]

@[simp ↓] theorem State.trimOne_kept (pl : TrimPlace) (keep : Nat) : (s.trimOne x f pl keep).2.kept = s.kept := by
  simp [State.trimOne]

@[simp ↓] theorem State.trimSpan_kept (slotAddr first n g j0 : Nat) :
    (s.trimSpan who x f d slotAddr first n g j0 interrupted).kept = s.kept := by simp [State.trimSpan]

@[simp ↓] theorem State.trimRun_kept : (s.trimRun p e x interrupted).kept = s.kept := by simp [State.trimRun]
@[simp ↓] theorem State.dropTrim_kept : (s.dropTrim p e).kept = s.kept := by simp [State.dropTrim]

@[simp ↓] theorem State.postRefused_kept (entry : Nat) : (s.postRefused d p entry step cause).kept = s.kept := by
  simp [State.postRefused]

@[simp ↓] theorem State.refuseTrim_kept : (s.refuseTrim p e cause).kept = s.kept := by simp [State.refuseTrim]

@[simp ↓] theorem State.trimSkew_kept (ws : List Nat) : (s.trimSkew p e x ws).kept = s.kept := by
  simp [State.trimSkew]

@[simp ↓] theorem State.startChecking_kept : (s.startChecking p e).kept = s.kept := by simp [State.startChecking]

@[simp ↓] theorem State.trimChunk_kept (fmt k : Nat) : (s.trimChunk p e step fmt k poison).kept = s.kept := by
  unfold State.trimChunk; dsimp only; split <;> simp

@[simp ↓] theorem State.trimComplete_kept (landed : Nat) (sealing : Bool) :
    (s.trimComplete p e landed sealing).kept = s.kept := by simp [State.trimComplete]

@[simp ↓] theorem State.trimSeal_kept : (s.trimSeal p step poison).kept = s.kept := by simp [State.trimSeal]

@[simp ↓] theorem State.trimAbort_kept : (s.trimAbort p step).kept = s.kept := by
  unfold State.trimAbort; dsimp only; split <;> simp

@[simp ↓] theorem State.refuseRunning_kept (es : List Nat) : (s.refuseRunning p step es).kept = s.kept := by
  unfold State.refuseRunning; split <;> simp

@[simp ↓] theorem State.trimReset_kept (hit : Nat → Nat → Trim → Bool) : (s.trimReset hit).kept = s.kept := by
  simp [State.trimReset]

@[simp ↓] theorem State.trimResetPart_kept : (s.trimResetPart p).kept = s.kept := by simp [State.trimResetPart]
@[simp ↓] theorem State.trimResetDie_kept : (s.trimResetDie d).kept = s.kept := by simp [State.trimResetDie]

@[simp ↓] theorem execTrimCheck_kept : (execTrimCheck d s).kept = some s.kept := by
  unfold execTrimCheck; dsimp only; (repeat' split) <;> simp

@[simp ↓] theorem execTrimHeldRecheck_kept : (execTrimHeldRecheck p e s).kept = some s.kept := by
  simp [execTrimHeldRecheck]

@[simp ↓] theorem State.trimFinish_kept : (s.trimFinish p e).kept = s.kept := by simp [State.trimFinish]

end

/-! ### Collective plans -/

section
variable (s : State) (k i d p n port j src dst cause half index : Nat) (h : PlanHead) (x : Phase) (c : Chunk)
  (ms dies : List Nat) (backup : Bool) (q : HeldChunk) (m : BackupMsg)

@[simp ↓] theorem State.setPlan_kept (x : Plan) : (s.setPlan k x).kept = s.kept := by simp [State.setPlan]
@[simp ↓] theorem State.setPoison_kept : (s.setPoison p cause d).kept = s.kept := by simp [State.setPoison]
@[simp ↓] theorem State.clearPoison_kept : (s.clearPoison p).kept = s.kept := by simp [State.clearPoison]

@[simp ↓] theorem State.sendChunk_kept (resend : Bool) : (s.sendChunk k h dst resend c).kept = s.kept := by
  simp [State.sendChunk]

@[simp ↓] theorem State.engineRead_kept (who a : Nat) : (s.engineRead who a n).2.kept = s.kept := by
  simp [State.engineRead]

@[simp ↓] theorem State.release_kept (ws : List Written) : (s.release k d h x ws).kept = s.kept := by
  simp [State.release]

@[simp ↓] theorem State.takeMemory_kept : (s.takeMemory k d h x).kept = s.kept := by simp [State.takeMemory]
@[simp ↓] theorem State.drainPane_kept : (s.drainPane k i d h x).kept = s.kept := by simp [State.drainPane]
@[simp ↓] theorem State.startPane_kept : (s.startPane k i d h x).kept = s.kept := by simp [State.startPane]

@[simp ↓] theorem State.takeReferences_kept (rec slot : Nat) (up : Bool) :
    (s.takeReferences k rec slot n up).kept = s.kept := by simp [State.takeReferences]

@[simp ↓] theorem State.takeShard_kept : (s.takeShard k i x n).kept = s.kept := by simp [State.takeShard]

@[simp ↓] theorem State.land_kept (res off real v : Nat) : (s.land k h x res d off real v c).kept = s.kept := by
  simp [State.land]

@[simp ↓] theorem State.useLocal_kept : (s.useLocal k h x d i half index backup).kept = s.kept := by
  simp [State.useLocal]

@[simp ↓] theorem State.compareCopies_kept (cidx : Nat) (mine theirs : Chunk) :
    (s.compareCopies k i port h cidx mine theirs).kept = s.kept := by simp [State.compareCopies]

@[simp ↓] theorem State.startRing_kept (s : State) (k i : Nat) (h : PlanHead) (x : Phase) (ms : List Nat) (j d : Nat) :
    (s.startRing k i h x ms j d).kept = s.kept := by
  unfold State.startRing
  refine State.kept_foldl _ (fun t half => ?_) _ _
  dsimp only
  split
  · rfl
  · split
    · simp
    · simp
    · simp
    · rfl
    · refine State.kept_forRange _ _ _ fun n t => ?_
      split
      · rfl
      · split <;> simp

@[simp ↓] theorem State.sendAll_kept : (s.sendAll k i h x ms j).kept = s.kept := by simp [State.sendAll]

@[simp ↓] theorem State.compareEarly_kept (s : State) (k i d : Nat) (h : PlanHead) (x : Phase) :
    (s.compareEarly k i d h x).kept = s.kept := by
  unfold State.compareEarly
  refine State.kept_foldl _ (fun t e => State.kept_foldl _ (fun u b => ?_) _ _) _ _
  dsimp only
  split
  · split <;> simp
  · rfl

@[simp ↓] theorem State.startDie_kept : (s.startDie k i h x ms j d).kept = s.kept := by
  unfold State.startDie; split <;> simp

@[simp ↓] theorem State.checkVersion_kept : (s.checkVersion k i d h x c).kept = s.kept := by simp [State.checkVersion]
@[simp ↓] theorem State.holdChunk_kept : (s.holdChunk q n).kept = s.kept := by simp [State.holdChunk]

@[simp] theorem State.takeInside_keptIn (s : State) (k i : Nat) (h : PlanHead) (x : Phase) (dies : List Nat)
    (c : Chunk) : s.keptIn (s.takeInside k i h x dies c) := by
  unfold State.takeInside; split <;> simp

@[simp ↓] theorem State.sendInside_kept (s : State) (k i : Nat) (h : PlanHead) (x : Phase) (dies : List Nat)
    (b half : Nat) (dsts : List Nat) : (s.sendInside k i h x dies b half dsts).kept = s.kept := by
  unfold State.sendInside
  dsimp only
  refine (State.kept_forRange _ _ _ fun n t => State.kept_foldl _ (fun u d => ?_) _ _).trans (by simp)
  split
  · next h => exact State.takeInside_keptIn _ _ _ _ _ _ _ _ h
  · simp

@[simp ↓] theorem State.allInside_kept : (s.allInside k h x dies).kept = s.kept := by simp [State.allInside]
@[simp ↓] theorem State.runInside_kept : (s.runInside k i h x dies).kept = s.kept := by simp [State.runInside]
@[simp ↓] theorem State.startInside_kept : (s.startInside k i h x).kept = s.kept := by simp [State.startInside]
@[simp ↓] theorem State.readBackup_kept : (s.readBackup k i h x).kept = s.kept := by simp [State.readBackup]

@[simp ↓] theorem State.sendCopies_kept (s : State) (k i : Nat) (h : PlanHead) (x : Phase) (e : BackupEntry)
    (dies : List Nat) : (s.sendCopies k i h x e dies).kept = s.kept := by
  unfold State.sendCopies
  refine State.kept_foldl _ (fun t d => State.kept_foldl _ (fun t half => ?_) _ _) _ _
  refine State.kept_forRange _ _ _ fun b t => State.kept_forRange _ _ _ fun n t => ?_
  split <;> simp

@[simp ↓] theorem State.sendBackup_kept (e : BackupEntry) : (s.sendBackup k i h x e).kept = s.kept := by
  simp [State.sendBackup]

@[simp ↓] theorem State.discardChunk_kept (part : Nat) : (s.discardChunk port src part cause).kept = s.kept := by
  simp [State.discardChunk]

@[simp ↓] theorem State.payloadOf_kept : (s.payloadOf c n).2.kept = s.kept := by simp [State.payloadOf]

@[simp ↓] theorem State.takeGather_kept : (s.takeGather k i port h x ms j c).kept = s.kept := by
  simp [State.takeGather]

@[simp ↓] theorem State.takeBlock_kept : (s.takeBlock k x h c).kept = s.kept := by simp [State.takeBlock]

@[simp ↓] theorem State.passSum_kept (die : Nat) (poison lost : Bool) (bytes : Octets) :
    (s.passSum k i h x dst j half die index poison lost bytes).kept = s.kept := by
  unfold State.passSum; dsimp only; (repeat' split) <;> simp

@[simp ↓] theorem State.takeSum_kept (own : Nat) (ownBad : Bool) :
    (s.takeSum k i h x ms j c own ownBad backup).kept = s.kept := by simp [State.takeSum]

@[simp ↓] theorem State.takeContribution_kept (s : State) (k i port : Nat) (h : PlanHead) (x : Phase) (ms : List Nat)
    (j : Nat) (c : Chunk) : (s.takeContribution k i port h x ms j c).kept = s.kept := by
  unfold State.takeContribution
  dsimp only
  refine State.ite_kept ((State.kept_foldl _ (fun t b => State.ite_kept ?_ rfl) _ _).trans (by simp)) (by simp)
  split <;> simp

@[simp ↓] theorem State.notePoison_kept : (s.notePoison port h c).kept = s.kept := by simp [State.notePoison]

@[simp] theorem State.processChunk_keptIn (s : State) (k i port : Nat) (h : PlanHead) (x : Phase) (ms : List Nat)
    (j : Nat) (c : Chunk) : s.keptIn (s.processChunk k i port h x ms j c) := by
  unfold State.processChunk; dsimp only; (repeat' split) <;> simp

@[simp] theorem State.tryChunk_keptIn (s : State) (q : HeldChunk) : s.keptIn (s.tryChunk q) := by
  unfold State.tryChunk; dsimp only; (repeat' split) <;> simp

@[simp ↓] theorem State.freeChunk_kept : (s.freeChunk q).kept = s.kept := by
  unfold State.freeChunk; dsimp only; split <;> simp

@[simp ↓] theorem State.arrive_kept (s : State) (q : HeldChunk) : (s.arrive q).kept = s.kept := by
  unfold State.arrive
  split
  · next h => simpa using s.tryChunk_keptIn q _ h
  · simp

@[simp ↓] theorem State.takeHeld_kept (s : State) : s.takeHeld.kept = s.kept := by
  unfold State.takeHeld
  refine State.kept_foldl _ (fun t e => ?_) _ _
  split
  · next h => simpa using State.tryChunk_keptIn _ _ _ h
  · simp

@[simp ↓] theorem State.armAt_kept : (s.armAt k i).kept = s.kept := by simp [State.armAt]
@[simp ↓] theorem State.arm_kept : (s.arm k).kept = s.kept := by simp [State.arm]
@[simp ↓] theorem State.disarm_kept : (s.disarm k).kept = s.kept := by simp [State.disarm]
@[simp ↓] theorem State.wakeLit_kept : (s.wakeLit h x).kept = s.kept := by simp [State.wakeLit]

@[simp ↓] theorem State.startSources_kept : (s.startSources k i h x).kept = s.kept := by
  unfold State.startSources; dsimp only; (repeat' split) <;> simp

@[simp ↓] theorem execPhaseTrigger_kept : (execPhaseTrigger k s).kept = some s.kept := by simp [execPhaseTrigger]
@[simp ↓] theorem State.resumeShards_kept : s.resumeShards.kept = s.kept := by simp [State.resumeShards]

@[simp ↓] theorem execHeldDrainStart_kept (pane : Nat) : (execHeldDrainStart d p pane s).kept = some s.kept := by
  unfold execHeldDrainStart; dsimp only; (repeat' split) <;> simp

@[simp ↓] theorem State.watchSilent_kept : (s.watchSilent k h x).kept = s.kept := by
  unfold State.watchSilent; dsimp only; (repeat' split) <;> simp

@[simp ↓] theorem State.sendBackupMsg_kept (kind id phase step rank : Nat) :
    (s.sendBackupMsg kind dst id phase step rank).kept = s.kept := by simp [State.sendBackupMsg]

@[simp ↓] theorem State.phaseEnds_kept : (s.phaseEnds k i h x).kept = s.kept := by simp [State.phaseEnds]
@[simp ↓] theorem State.sealStep_kept : (s.sealStep k h).kept = s.kept := by simp [State.sealStep]
@[simp ↓] theorem execPhaseComplete_kept : (execPhaseComplete k s).kept = some s.kept := by simp [execPhaseComplete]

@[simp ↓] theorem execDeadlineMissed_kept : (execDeadlineMissed k s).kept = some s.kept := by
  simp [execDeadlineMissed]

@[simp ↓] theorem State.postAborted_kept : (s.postAborted k).kept = s.kept := by simp [State.postAborted]
@[simp ↓] theorem State.dropUnsent_kept : (s.dropUnsent k).kept = s.kept := by simp [State.dropUnsent]
@[simp ↓] theorem State.abortPlan_kept : (s.abortPlan k).kept = s.kept := by simp [State.abortPlan]
@[simp ↓] theorem execChunk_kept : (execChunk p src c s).kept = some s.kept := by simp [execChunk]

@[simp ↓] theorem execChunkHoldExpiry_kept : (execChunkHoldExpiry n s).kept = some s.kept := by
  unfold execChunkHoldExpiry; split <;> simp

@[simp ↓] theorem execBackupRequest_kept : (execBackupRequest p src m s).kept = some s.kept := by
  unfold execBackupRequest; (repeat' split) <;> simp

@[simp ↓] theorem execBackupRelease_kept : (execBackupRelease p src m s).kept = some s.kept := by
  unfold execBackupRelease; (repeat' split) <;> simp

@[simp ↓] theorem execTrimUpdateComplete_kept (e : Nat) : (execTrimUpdateComplete p e s).kept = some s.kept := by
  simp [execTrimUpdateComplete]

@[simp ↓] theorem State.loseChunk_kept (mark : Nat) : (s.loseChunk port mark).kept = s.kept := by
  unfold State.loseChunk; split <;> simp

end

/-! ### The lanes of external ports -/

section
variable (s : State) (p kind st : Nat)

@[simp ↓] theorem State.postPort_kept (code : Nat) (detail : List (Nat × Nat)) :
    (s.postPort code p detail).kept = s.kept := by simp [State.postPort]

@[simp ↓] theorem State.setLink_kept (l : PortLink) : (s.setLink p l).kept = s.kept := by simp [State.setLink]
@[simp ↓] theorem State.climb_kept (level : Nat) : (s.climb level).kept = s.kept := by simp [State.climb]

@[simp ↓] theorem State.postCompound_kept (num : Nat) (p : FaultPair) :
    (s.postCompound kind num p).kept = s.kept := by simp [State.postCompound]

@[simp ↓] theorem State.failRequest_kept (tid src : Nat) : (s.failRequest kind tid src).kept = s.kept := by
  simp [State.failRequest]

@[simp ↓] theorem State.rerouteQueue_kept : (s.rerouteQueue p).kept = s.kept := by simp [State.rerouteQueue]

@[simp ↓] theorem State.cutMessage_kept (k lock : Nat) : (s.cutMessage p k lock).kept = s.kept := by
  simp [State.cutMessage]

@[simp ↓] theorem State.loseHeld_kept : (s.loseHeld p).kept = s.kept := by simp [State.loseHeld]
@[simp ↓] theorem State.releaseLocks_kept : (s.releaseLocks p).kept = s.kept := by simp [State.releaseLocks]

@[simp ↓] theorem State.portFalls_kept (clear : Bool) : (s.portFalls p st clear).kept = s.kept := by
  simp [State.portFalls]

@[simp ↓] theorem State.dropPort_kept : (s.dropPort p st).kept = s.kept := by simp [State.dropPort]

@[simp ↓] theorem State.portFails_kept (cause : Nat) : (s.portFails p cause).kept = s.kept := by
  simp [State.portFails]

@[simp ↓] theorem State.retrain_kept : (s.retrain p).kept = s.kept := by simp [State.retrain]
@[simp ↓] theorem State.dropLanes_kept : (s.dropLanes p).kept = s.kept := by simp [State.dropLanes]
@[simp ↓] theorem State.lanesLost_kept : (s.lanesLost p).kept = s.kept := by simp [State.lanesLost]
@[simp ↓] theorem State.loseDieLanes_kept (d : Nat) : (s.loseDieLanes d).kept = s.kept := by simp [State.loseDieLanes]

end

/-! ### Fences, stops and the effects of resets -/

section
variable (s : State) (d cause p m v l : Nat)

@[simp ↓] theorem State.darken_kept : (s.darken m).kept = s.kept := (s.darken_frame m).kept
@[simp ↓] theorem State.fenceMast_kept : (s.fenceMast m cause).kept = s.kept := by simp [State.fenceMast]
@[simp ↓] theorem State.askDark_kept : (s.askDark m).kept = s.kept := by simp [State.askDark]

@[simp ↓] theorem State.restoreMasts_kept (ms : List Nat) : (s.restoreMasts ms).kept = s.kept := by
  simp [State.restoreMasts]

@[simp ↓] theorem State.goPart_kept (st : PartState) : (s.goPart p st).kept = s.kept := by simp [State.goPart]
@[simp ↓] theorem State.zeroPanes_kept : (s.zeroPanes p d).kept = s.kept := by simp [State.zeroPanes]
@[simp ↓] theorem State.abortPlans_kept : (s.abortPlans p).kept = s.kept := by simp [State.abortPlans]

@[simp ↓] theorem State.postReset_kept (code kind scope : Nat) (count : List (Nat × Nat)) :
    (s.postReset code kind scope count).kept = s.kept := by simp [State.postReset]

@[simp ↓] theorem State.beginReset_kept (s : State) (kind scope before : Nat) (act : State → State)
    (hact : ∀ t, (act t).kept = t.kept) : (s.beginReset kind scope before act).kept = s.kept := by
  unfold State.beginReset; simp [hact]

@[simp ↓] theorem State.reportReset_kept (r : Reset) (counted : Bool) : (s.reportReset r counted).kept = s.kept := by
  simp [State.reportReset]

@[simp ↓] theorem State.clearPart_kept : (s.clearPart p).kept = s.kept := by simp [State.clearPart]
@[simp ↓] theorem State.stopPart_kept : (s.stopPart p cause).kept = s.kept := by unfold State.stopPart; split <;> simp
@[simp ↓] theorem State.goDomain_kept : (s.goDomain d v).kept = s.kept := by simp [State.goDomain]
@[simp ↓] theorem State.zeroDie_kept : (s.zeroDie d).kept = s.kept := by simp [State.zeroDie]

@[simp ↓] theorem State.flipDomain_kept : (s.flipDomain d v).kept = s.kept := by
  unfold State.flipDomain; split <;> simp

@[simp ↓] theorem State.failAccess_kept (who : Nat) : (s.failAccess who).kept = s.kept := by
  unfold State.failAccess; dsimp only; (repeat' split) <;> simp

@[simp ↓] theorem State.loseRat_kept (b : RatBody) : (s.loseRat d b).kept = s.kept := by
  unfold State.loseRat; split <;> simp

@[simp ↓] theorem State.loseFlow_kept (side : Nat) : (s.loseFlow d side).kept = s.kept := by simp [State.loseFlow]
@[simp ↓] theorem State.linkFails_kept : (s.linkFails l cause).kept = s.kept := by simp [State.linkFails]
@[simp ↓] theorem State.poisonLines_kept : (s.poisonLines d).kept = s.kept := by simp [State.poisonLines]
@[simp ↓] theorem State.cutDomain_kept : (s.cutDomain d).kept = s.kept := by simp [State.cutDomain]
@[simp ↓] theorem State.fenceDie_kept : (s.fenceDie d cause).kept = s.kept := by simp [State.fenceDie]

@[simp ↓] theorem State.fenceUntil_kept (s : State) (fuel : Nat) : (s.fenceUntil fuel).kept = s.kept := by
  induction fuel generalizing s with
  | zero => rfl
  | succ n ih => unfold State.fenceUntil; (repeat' split) <;> simp [ih]

@[simp ↓] theorem State.linkLost_kept : (s.linkLost l cause).kept = s.kept := by simp [State.linkLost]
@[simp ↓] theorem State.loseFabric_kept : s.loseFabric.kept = s.kept := by simp [State.loseFabric]
@[simp ↓] theorem State.darkFabric_kept : s.darkFabric.kept = s.kept := by simp [State.darkFabric]
@[simp ↓] theorem State.shutdown_kept : s.shutdown.kept = s.kept := by simp [State.shutdown]
@[simp ↓] theorem State.resetPackage_kept : s.resetPackage.kept = s.kept := by simp [State.resetPackage]

end

/-! ### The vertical bond -/

section
variable (s : State) (m : Nat)

@[simp ↓] theorem execBondBeatReceive_kept (upward : Bool) (beat : Option Nat) (flips : Nat) (sidebandBad : Bool) :
    (execBondBeatReceive m upward beat flips sidebandBad s).kept = some s.kept := by
  simp [execBondBeatReceive, -Nat.reducePow]

@[simp ↓] theorem State.bondWindow_kept : (s.bondWindow m).kept = s.kept := by simp [State.bondWindow]

@[simp ↓] theorem execBondWindowEnd_kept (d : Nat) : (execBondWindowEnd d s).kept = some s.kept := by
  simp [execBondWindowEnd]

end

/-! ### Ratline directions and links -/

section
variable (s : State) (d side e kind n l : Nat) (lanes : List Nat) (contents : List (Nat × Nat))

@[simp ↓] theorem onDirection_kept (d side : Nat) (s : State) (k : Nat → Result)
    (hk : ∀ e, (k e).kept = some s.kept) : (onDirection d side s k).kept = some s.kept := by
  unfold onDirection; (repeat' split) <;> simp [hk]

@[simp ↓] theorem State.ratSend_kept (typ : Nat) (body : Octets) :
    (s.ratSend d side e typ kind body).kept = s.kept := by simp [State.ratSend]

@[simp ↓] theorem State.ratReturn_kept : (s.ratReturn d side e kind contents).kept = s.kept := by
  simp [State.ratReturn]

@[simp ↓] theorem State.ratForward_kept : (s.ratForward d side e kind contents).kept = s.kept := by
  simp [State.ratForward]

@[simp ↓] theorem State.ratAcked_kept : (s.ratAcked d side).kept = s.kept := by simp [State.ratAcked]
@[simp ↓] theorem State.ratCompare_kept : (s.ratCompare d side n).kept = s.kept := by simp [State.ratCompare]
@[simp ↓] theorem State.ratDiscard_kept : (s.ratDiscard d side e).kept = s.kept := by simp [State.ratDiscard]

@[simp ↓] theorem State.ratReceive_kept (b : RatBody) (flips : Nat) :
    (s.ratReceive d side e n b flips).kept = s.kept := by simp [State.ratReceive, -Nat.reducePow]

@[simp ↓] theorem execRatlineDataFlit_kept (d side : Nat) (fresh : Option RatBody) (flips : Nat) (s : State) :
    (execRatlineDataFlit d side fresh flips s).kept = some s.kept := by
  unfold execRatlineDataFlit
  refine onDirection_kept _ _ _ _ fun e => ?_
  dsimp only; split <;> simp

@[simp ↓] theorem execRatlineNak_kept (d side : Nat) (s : State) :
    (execRatlineNak d side s).kept = some s.kept := by
  unfold execRatlineNak
  refine onDirection_kept _ _ _ _ fun _ => ?_
  dsimp only; split <;> simp

@[simp ↓] theorem execRatlineCredit_kept : (execRatlineCredit d side s).kept = some s.kept := by
  simp [execRatlineCredit]

@[simp ↓] theorem execRatlineRetryTimeout_kept : (execRatlineRetryTimeout d side s).kept = some s.kept := by
  simp [execRatlineRetryTimeout]

@[simp ↓] theorem execRatlineIdle_kept : (execRatlineIdle d side s).kept = some s.kept := by simp [execRatlineIdle]
@[simp ↓] theorem State.ratMap_kept (old : Nat) : (s.ratMap d side old).kept = s.kept := by simp [State.ratMap]
@[simp ↓] theorem State.ratFail_kept : (s.ratFail d side).kept = s.kept := by simp [State.ratFail]

@[simp ↓] theorem execRatlineElectricalDone_kept (bad : Nat) :
    (execRatlineElectricalDone d side bad s).kept = some s.kept := by simp [execRatlineElectricalDone]

@[simp ↓] theorem execRatlineWidth_kept (word : WidthWord) : (execRatlineWidth d side word s).kept = some s.kept := by
  simp [execRatlineWidth]

@[simp ↓] theorem State.settlePairs_kept : (s.settlePairs d side).kept = s.kept := by simp [State.settlePairs]

@[simp ↓] theorem execRatlineMapExchangeDone_kept (d side : Nat) (s : State) :
    (execRatlineMapExchangeDone d side s).kept = some s.kept := by
  unfold execRatlineMapExchangeDone
  refine onDirection_kept _ _ _ _ fun _ => ?_
  dsimp only; split <;> simp

@[simp ↓] theorem execRatlineMapTimeout_kept : (execRatlineMapTimeout d side s).kept = some s.kept := by
  simp [execRatlineMapTimeout]

@[simp ↓] theorem execRatlineTrainingFramesSeen_kept :
    (execRatlineTrainingFramesSeen d side s).kept = some s.kept := by simp [execRatlineTrainingFramesSeen]

@[simp ↓] theorem State.ratDrop_kept : (s.ratDrop d side lanes).kept = s.kept := by simp [State.ratDrop]

@[simp ↓] theorem State.ratAsk_kept : (s.ratAsk d side).kept = s.kept := by
  unfold State.ratAsk; dsimp only; split <;> simp

@[simp ↓] theorem State.ratRetire_kept : (s.ratRetire d side lanes).kept = s.kept := by
  unfold State.ratRetire; dsimp only; (repeat' split) <;> simp

@[simp ↓] theorem State.ratCompound_kept (code : Nat) : (s.ratCompound d side lanes code).kept = s.kept := by
  simp [State.ratCompound]

@[simp ↓] theorem execRatlineLaneWindowEnd_kept : (execRatlineLaneWindowEnd d side s).kept = some s.kept := by
  simp [execRatlineLaneWindowEnd]

@[simp ↓] theorem execRatlineControlResend_kept : (execRatlineControlResend d side s).kept = some s.kept := by
  simp [execRatlineControlResend]

@[simp ↓] theorem execRatlineRetire_kept (d side : Nat) (s : State) :
    (execRatlineRetire d side s).kept = some s.kept := by
  unfold execRatlineRetire
  refine onDirection_kept _ _ _ _ fun _ => ?_
  dsimp only; split <;> simp

@[simp ↓] theorem execRatlineSwitch_kept (d side : Nat) (spareLocks : Bool) (s : State) :
    (execRatlineSwitch d side spareLocks s).kept = some s.kept := by
  unfold execRatlineSwitch
  refine onDirection_kept _ _ _ _ fun e => ?_
  dsimp only; split <;> simp

@[simp ↓] theorem State.flipLink_kept (v : Nat) : (s.flipLink l v).kept = s.kept := by simp [State.flipLink]

@[simp ↓] theorem execRatlineLinkOff_kept : (execRatlineLinkOff l s).kept = some s.kept := by
  simp [execRatlineLinkOff]

end

/-! ### Bring-up, retry and keys of the external ports -/

section
variable (s : State) (p n : Nat) (f : StayFlit) (word : WidthWord)

@[simp ↓] theorem onPort_kept (p : Nat) (s : State) (k : Result) :
    (onPort p s k).kept = if p < 7 then k.kept else some s.kept := by
  unfold onPort; simp

@[simp ↓] theorem execStayPartnerLost_kept : (execStayPartnerLost p s).kept = some s.kept := by
  simp [execStayPartnerLost]

@[simp ↓] theorem State.quarantine_kept (cause : Nat) : (s.quarantine p cause).kept = s.kept := by
  simp [State.quarantine]

@[simp ↓] theorem State.enablePort_kept : (s.enablePort p).kept = s.kept := by simp [State.enablePort]

@[simp ↓] theorem execStayPresenceDetected_kept : (execStayPresenceDetected p s).kept = some s.kept := by
  simp [execStayPresenceDetected]

@[simp ↓] theorem State.trainFails_kept : (s.trainFails p).kept = s.kept := by simp [State.trainFails]

@[simp ↓] theorem execStayRateAlternate_kept : (execStayRateAlternate p s).kept = some s.kept := by
  simp [execStayRateAlternate]

@[simp ↓] theorem State.latchWidth_kept (a b : WidthWord) : (s.latchWidth p a b).kept = s.kept := by
  simp [State.latchWidth]

@[simp ↓] theorem execStayElectricalDone_kept (healthy roundTripNs : Nat) :
    (execStayElectricalDone p healthy roundTripNs word s).kept = some s.kept := by simp [execStayElectricalDone]

@[simp ↓] theorem State.agree_kept : (s.agree p).kept = s.kept := by simp [State.agree]
@[simp ↓] theorem State.settleWords_kept : (s.settleWords p).kept = s.kept := by simp [State.settleWords]

@[simp ↓] theorem execCapability_kept (msg : CapabilityMsg) : (execCapability p msg s).kept = some s.kept := by
  simp [execCapability]

@[simp ↓] theorem State.portUp_kept : (s.portUp p).kept = s.kept := by simp [State.portUp]
@[simp ↓] theorem State.checkCoord_kept : (s.checkCoord p).kept = s.kept := by simp [State.checkCoord]
@[simp ↓] theorem State.checkPermission_kept : (s.checkPermission p).kept = s.kept := by simp [State.checkPermission]
@[simp ↓] theorem State.settleKept_kept : (s.settleKept p).kept = s.kept := by simp [State.settleKept]

@[simp ↓] theorem State.sendKeying_kept (epoch : Nat) : (s.sendKeying p epoch).kept = s.kept := by
  simp [State.sendKeying, -Nat.reducePow]

@[simp ↓] theorem execIdentity_kept (msg : IdentityMsg) : (execIdentity p msg s).kept = some s.kept := by
  simp [execIdentity]

@[simp ↓] theorem State.switchKey_kept : (s.switchKey p).kept = s.kept := by simp [State.switchKey]

@[simp ↓] theorem execKeying_kept (msg : KeyingMsg) : (execKeying p msg s).kept = some s.kept := by
  simp [execKeying, -Nat.reducePow]

@[simp ↓] theorem execStayKeyRefresh_kept : (execStayKeyRefresh p s).kept = some s.kept := by
  simp [execStayKeyRefresh]

@[simp ↓] theorem State.applyAck_kept (ack : Nat) : (s.applyAck p ack).kept = s.kept := by
  unfold State.applyAck; dsimp only; split <;> simp

@[simp ↓] theorem State.replayFrom_kept : (s.replayFrom p n).kept = s.kept := by simp [State.replayFrom]
@[simp ↓] theorem State.retrainKept_kept : (s.retrainKept p).kept = s.kept := by simp [State.retrainKept]
@[simp ↓] theorem State.replay_kept : (s.replay p n).kept = s.kept := by simp [State.replay]
@[simp ↓] theorem State.askReplay_kept : (s.askReplay p).kept = s.kept := by simp [State.askReplay]
@[simp ↓] theorem State.tagFailed_kept : (s.tagFailed p).kept = s.kept := by simp [State.tagFailed]
@[simp ↓] theorem State.discardReserved_kept : (s.discardReserved p).kept = s.kept := by simp [State.discardReserved]

@[simp ↓] theorem onControl_kept (p kind : Nat) (f : StayFlit) (s : State) (k : State → Nat → State)
    (hk : ∀ t c, (k t c).kept = t.kept) : (onControl p kind f s k).kept = some s.kept := by
  unfold onControl; simp [hk]

@[simp ↓] theorem execIdle_kept : (execIdle p f s).kept = some s.kept := by simp [execIdle]

@[simp ↓] theorem execNak_kept (p : Nat) (f : StayFlit) (s : State) : (execNak p f s).kept = some s.kept := by
  unfold execNak
  refine onControl_kept _ _ _ _ _ fun t c => ?_
  split <;> simp

@[simp ↓] theorem execCredit_kept : (execCredit p f s).kept = some s.kept := by simp [execCredit]
@[simp ↓] theorem execWidth_kept : (execWidth p f s).kept = some s.kept := by simp [execWidth]
@[simp ↓] theorem execSwitch_kept : (execSwitch p f s).kept = some s.kept := by simp [execSwitch]
@[simp ↓] theorem execKeyswitch_kept : (execKeyswitch p f s).kept = some s.kept := by simp [execKeyswitch]

@[simp ↓] theorem execStayControlResend_kept : (execStayControlResend p s).kept = some s.kept := by
  simp [execStayControlResend]

@[simp ↓] theorem execStayRetryTimeout_kept : (execStayRetryTimeout p s).kept = some s.kept := by
  simp [execStayRetryTimeout]

@[simp ↓] theorem execStayCreditStarved_kept (vc : Nat) : (execStayCreditStarved p vc s).kept = some s.kept := by
  simp [execStayCreditStarved]

@[simp ↓] theorem State.settlePortPairs_kept : (s.settlePortPairs p).kept = s.kept := by simp [State.settlePortPairs]

@[simp ↓] theorem execStayFecWindowEnd_kept (uncorrectable : List Nat) (corrected : Nat) :
    (execStayFecWindowEnd p uncorrectable corrected s).kept = some s.kept := by simp [execStayFecWindowEnd]

@[simp ↓] theorem execStayRetrainDone_kept : (execStayRetrainDone p word s).kept = some s.kept := by
  simp [execStayRetrainDone]

@[simp ↓] theorem execStayTagWindowEnd_kept : (execStayTagWindowEnd p s).kept = some s.kept := by
  simp [execStayTagWindowEnd]

@[simp ↓] theorem State.flipPort_kept (v : Nat) : (s.flipPort p v).kept = s.kept := by simp [State.flipPort]

@[simp ↓] theorem execStayShutdownEnd_kept : (execStayShutdownEnd p s).kept = some s.kept := by
  simp [execStayShutdownEnd]

end

/-! ### Messages and discovery -/

section
variable (s : State) (p : Nat) (f : StayFlit)

@[simp ↓] theorem State.deliver_kept (vc : Nat) (m : Octets) : (s.deliver p vc m).kept = s.kept := by
  simp [State.deliver]

@[simp ↓] theorem State.flitHere_kept : (s.flitHere p f).kept = s.kept := by simp [State.flitHere]
@[simp ↓] theorem State.flitOn_kept (q cls : Nat) : (s.flitOn p q cls f).kept = s.kept := by simp [State.flitOn]
@[simp ↓] theorem State.skipFlit_kept : (s.skipFlit p f).kept = s.kept := by simp [State.skipFlit]

@[simp ↓] theorem State.acceptFlit_kept : (s.acceptFlit p f).kept = s.kept := by
  unfold State.acceptFlit; dsimp only; (repeat' split) <;> simp

@[simp ↓] theorem execStayDataFlit_kept : (execStayDataFlit p f s).kept = some s.kept := by simp [execStayDataFlit]
@[simp ↓] theorem execDiscoverySend_kept : (execDiscoverySend p s).kept = some s.kept := by simp [execDiscoverySend]

@[simp ↓] theorem execDiscovery_kept (msg : DiscoveryMsg) : (execDiscovery p msg s).kept = some s.kept := by
  simp [execDiscovery]

@[simp ↓] theorem execDiscoveryStale_kept (entry : Nat) : (execDiscoveryStale entry s).kept = some s.kept := by
  unfold execDiscoveryStale; split <;> simp

end

/-! ### Power, thermal protection, start-up and resets -/

section
variable (s : State) (d millivolts sensor reading v kind b step cause ticks : Nat)

@[simp ↓] theorem State.postPilot_kept (code : Nat) (detail : List (Nat × Nat)) :
    (s.postPilot code detail).kept = s.kept := (s.postPilot_frame code detail).kept

@[simp ↓] theorem State.ibi_kept (i : Nat) : (s.ibi i).kept = s.kept := (s.ibi_frame i).kept
@[simp ↓] theorem State.goPkg_kept : (s.goPkg v).kept = s.kept := by simp [State.goPkg]
@[simp ↓] theorem State.applyCeiling_kept : s.applyCeiling.kept = s.kept := by simp [State.applyCeiling]
@[simp ↓] theorem State.evaluateCap_kept : s.evaluateCap.kept = s.kept := by simp [State.evaluateCap]

@[simp ↓] theorem execPowerSample_kept (watts : Nat) : (execPowerSample watts millivolts s).kept = some s.kept := by
  simp [execPowerSample]

@[simp ↓] theorem execCapEvaluate_kept : (execCapEvaluate s).kept = some s.kept := by simp [execCapEvaluate]
@[simp ↓] theorem State.noteReading_kept : (s.noteReading sensor reading).kept = s.kept := by simp [State.noteReading]
@[simp ↓] theorem State.setThermal_kept (g : Nat) : (s.setThermal g).kept = s.kept := by simp [State.setThermal]

@[simp ↓] theorem execThermalThrottle_kept : (execThermalThrottle sensor reading s).kept = some s.kept := by
  simp [execThermalThrottle]

@[simp ↓] theorem execThermalWindowEnd_kept (readings : List (Nat × Nat)) :
    (execThermalWindowEnd readings s).kept = some s.kept := by simp [execThermalWindowEnd]

@[simp ↓] theorem execThermalShutdown_kept : (execThermalShutdown sensor reading s).kept = some s.kept := by
  simp [execThermalShutdown]

@[simp ↓] theorem execInputUndervoltage_kept : (execInputUndervoltage millivolts s).kept = some s.kept := by
  simp [execInputUndervoltage]

@[simp ↓] theorem execInputOvervoltage_kept : (execInputOvervoltage millivolts s).kept = some s.kept := by
  simp [execInputOvervoltage]

@[simp ↓] theorem execDomainForceDark_kept : (execDomainForceDark d s).kept = some s.kept := by
  simp [execDomainForceDark]

@[simp ↓] theorem execDomainOff_kept : (execDomainOff d s).kept = some s.kept := by simp [execDomainOff]
@[simp ↓] theorem execDomainOn_kept : (execDomainOn d s).kept = some s.kept := by simp [execDomainOn]
@[simp ↓] theorem State.reportBank_kept : (s.reportBank kind).kept = s.kept := by simp [State.reportBank]
@[simp ↓] theorem State.runBank_kept : (s.runBank kind b).kept = s.kept := by simp [State.runBank]
@[simp ↓] theorem State.runPilot_kept : (s.runPilot b).kept = s.kept := by simp [State.runPilot]
@[simp ↓] theorem State.stepDone_kept : (s.stepDone step).kept = s.kept := (s.stepDone_frame step).kept
@[simp ↓] theorem State.stepFails_kept : (s.stepFails step cause).kept = s.kept := by simp [State.stepFails]
@[simp ↓] theorem State.boot_kept : s.boot.kept = s.kept := by simp [State.boot]
@[simp ↓] theorem State.startRatlines_kept : s.startRatlines.kept = s.kept := by simp [State.startRatlines]
@[simp ↓] theorem State.clearCarve_kept : s.clearCarve.kept = s.kept := by simp [State.clearCarve]

@[simp ↓] theorem execStartupStep_kept (fails : Bool) : (execStartupStep fails cause s).kept = some s.kept := by
  unfold execStartupStep; dsimp only; (repeat' split) <;> simp

@[simp ↓] theorem State.hostReadyWritten_kept : (s.hostReadyWritten v).kept = s.kept := by
  simp [State.hostReadyWritten]

@[simp ↓] theorem State.powerOff_kept : s.powerOff.kept = s.kept := by simp [State.powerOff]
@[simp ↓] theorem State.powerUp_kept : (s.powerUp ticks).kept = s.kept := by simp [State.powerUp]
@[simp ↓] theorem execPowerOn_kept : (execPowerOn ticks s).kept = some s.kept := by simp [execPowerOn]
@[simp ↓] theorem execPowerLoss_kept : (execPowerLoss s).kept = some s.kept := by simp [execPowerLoss]

@[simp ↓] theorem execResetreq_kept (value : Nat) : (execResetreq value s).kept = some s.kept := by
  simp [execResetreq]

@[simp ↓] theorem State.askPackageReset_kept : s.askPackageReset.2.kept = s.kept := by simp [State.askPackageReset]

@[simp ↓] theorem State.askPartReset_kept (p : Nat) : (s.askPartReset p).2.kept = s.kept := by
  simp [State.askPartReset]

@[simp ↓] theorem State.resetDiePorts_kept (s : State) (d : Nat) : (s.resetDiePorts d).kept = s.kept := by
  unfold State.resetDiePorts
  dsimp only
  refine (State.kept_foldl _ (fun t p => by simp) _ _).trans (State.kept_foldl _ (fun t side => ?_) _ _)
  split <;> simp

@[simp ↓] theorem State.clearDomain_kept : (s.clearDomain d).kept = s.kept := by simp [State.clearDomain]
@[simp ↓] theorem State.askDomainReset_kept : (s.askDomainReset d).kept = s.kept := by simp [State.askDomainReset]
@[simp ↓] theorem State.resetLink_kept (l : Nat) : (s.resetLink l).kept = s.kept := by simp [State.resetLink]

@[simp ↓] theorem State.askPortReset_kept (sub : Nat) : (s.askPortReset sub).kept = s.kept := by
  simp [State.askPortReset]

@[simp ↓] theorem State.settleDebug_kept : s.settleDebug.kept = s.kept := by unfold State.settleDebug; split <;> simp

@[simp ↓] theorem State.resetEffect_kept (r : Reset) : (s.resetEffect r).kept = s.kept := by
  unfold State.resetEffect; split <;> simp

@[simp ↓] theorem execDomainResetTimeout_kept : (execDomainResetTimeout d s).kept = some s.kept := by
  unfold execDomainResetTimeout; split <;> simp

end

/-! ### Firmware, fuses and debug -/

section
variable (s : State) (image : Octets) (kind v : Nat)

@[simp ↓] theorem State.putImage_kept (b : Nat) : (s.putImage kind b image).kept = s.kept := by simp [State.putImage]
@[simp ↓] theorem State.writeImage_kept : (s.writeImage kind image).2.kept = s.kept := by simp [State.writeImage]
@[simp ↓] theorem State.raiseSvn_kept : (s.raiseSvn kind v).2.kept = s.kept := by simp [State.raiseSvn]

@[simp ↓] theorem execRecoveryImage_kept : (execRecoveryImage image s).kept = some s.kept := by
  simp [execRecoveryImage]

@[simp ↓] theorem State.newChallenge_kept : s.newChallenge.kept = s.kept := by simp [State.newChallenge]
@[simp ↓] theorem State.writeToken_kept (t : Octets) : (s.writeToken t).2.kept = s.kept := by simp [State.writeToken]

@[simp ↓] theorem State.closeDebug_kept (cause : Nat) : (s.closeDebug cause).kept = s.kept := by
  simp [State.closeDebug]

@[simp ↓] theorem State.relock_kept : (s.relock v).kept = s.kept := by simp [State.relock]

@[simp ↓] theorem execDebugLifeExpiry_kept : (execDebugLifeExpiry s).kept = some s.kept := by
  unfold execDebugLifeExpiry; split <;> simp

@[simp ↓] theorem execMgmtLinkAttempt_kept (links : Bool) : (execMgmtLinkAttempt links s).kept = some s.kept := by
  simp [execMgmtLinkAttempt]

@[simp ↓] theorem execDynamicAddress_kept (addr : Nat) : (execDynamicAddress addr s).kept = some s.kept := by
  simp [execDynamicAddress]

end

/-! ### The object dictionary -/

section
variable (s : State) (idx sub : Nat) (who : Who) (r : ObjRow)

@[simp ↓] theorem State.setStager_kept (i : Nat) (x : Stager) :
    (s.setStager i x).kept = s.kept := (s.setStager_frame i x).kept

@[simp ↓] theorem State.withValues_kept (vs : FMap Octets) : (s.withValues vs).kept = s.kept := by
  simp [State.withValues]

@[simp ↓] theorem State.present_kept : (s.present idx sub).2.kept = s.kept := by
  unfold State.present; dsimp only; (repeat' split) <;> simp

@[simp ↓] theorem State.readClears_kept : (s.readClears idx sub).kept = s.kept := by simp [State.readClears]

@[simp ↓] theorem State.readLive_kept : (s.readLive who r idx sub).2.kept = s.kept := by
  unfold State.readLive; dsimp only; (repeat' split) <;> simp

@[simp ↓] theorem State.readStaged_kept : (s.readStaged who r idx sub).2.kept = s.kept := by
  unfold State.readStaged; dsimp only; split <;> simp

@[simp ↓] theorem State.postSnapshots_kept : (s.postSnapshots idx).kept = s.kept := by simp [State.postSnapshots]
@[simp ↓] theorem execSnapshotPost_kept : (execSnapshotPost idx s).kept = some s.kept := by simp [execSnapshotPost]

end

/-! ### The commit gate -/

section
variable (s old : State) (stager p k key n : Nat) (v : Octets) (q : CommitReq) (vs : FMap Octets)

@[simp ↓] theorem State.setRec_kept (num : Nat) (f : CommitRec → CommitRec) : (s.setRec num f).kept = s.kept := by
  simp [State.setRec]

@[simp ↓] theorem State.postCommit_kept (code : Nat) (detail : List (Nat × Nat)) :
    (s.postCommit code stager detail).kept = s.kept := by simp [State.postCommit]

@[simp ↓] theorem State.requestCommit_kept (token : Nat) : (s.requestCommit stager token).2.kept = s.kept := by
  simp [State.requestCommit]

@[simp ↓] theorem State.discardStaged_kept (v : Nat) : (s.discardStaged stager v).2.kept = s.kept := by
  simp [State.discardStaged]

@[simp ↓] theorem State.stageValue_kept : (s.stageValue stager key v).2.kept = s.kept := by simp [State.stageValue]

@[simp ↓] theorem State.noteAdmission_kept (v : State) (set : FMap Octets) :
    (s.noteAdmission v set).kept = s.kept := by simp [State.noteAdmission]

@[simp ↓] theorem State.refuseCommit_kept (r : Refused) : (s.refuseCommit q r).kept = s.kept := by
  simp [State.refuseCommit]

@[simp ↓] theorem State.zeroRange_kept (a : Nat) : (s.zeroRange a n).kept = s.kept := by simp [State.zeroRange]

@[simp ↓] theorem State.zeroWindow_kept (fresh : Bool) (old new : Nat) :
    (s.zeroWindow fresh old new).kept = s.kept := by simp [State.zeroWindow]

@[simp ↓] theorem State.zeroFor_kept : (s.zeroFor vs).kept = s.kept := by simp [State.zeroFor]
@[simp ↓] theorem State.createPart_kept : (s.createPart p).kept = s.kept := by simp [State.createPart]
@[simp ↓] theorem State.destroyPart_kept : (s.destroyPart old p).kept = s.kept := by simp [State.destroyPart]
@[simp ↓] theorem State.resetCore_kept : (s.resetCore n).kept = s.kept := by simp [State.resetCore]
@[simp ↓] theorem State.moveCores_kept : (s.moveCores old).kept = s.kept := by simp [State.moveCores]

@[simp ↓] theorem State.flipSlot_kept (header : Bool) : (s.flipSlot k header).kept = s.kept := by
  simp [State.flipSlot]

@[simp ↓] theorem State.flipPermissions_kept : s.flipPermissions.kept = s.kept := by simp [State.flipPermissions]
@[simp ↓] theorem State.recheckCoord_kept : (s.recheckCoord p).kept = s.kept := by simp [State.recheckCoord]
@[simp ↓] theorem State.flipTorusPort_kept : (s.flipTorusPort p).kept = s.kept := by simp [State.flipTorusPort]
@[simp ↓] theorem State.flipTorus_kept : s.flipTorus.kept = s.kept := by simp [State.flipTorus]

@[simp ↓] theorem State.flipEffect_kept : (s.flipEffect old key).kept = s.kept := by
  unfold State.flipEffect; dsimp only; (repeat' split) <;> simp

@[simp ↓] theorem State.goLive_kept : (s.goLive vs).kept = s.kept := by simp [State.goLive]
@[simp ↓] theorem State.releasePlans_kept : s.releasePlans.kept = s.kept := by simp [State.releasePlans]
@[simp ↓] theorem State.endCommits_kept : s.endCommits.kept = s.kept := by simp [State.endCommits]
@[simp ↓] theorem State.flipReady_kept : s.flipReady.kept = s.kept := by simp [State.flipReady]
@[simp ↓] theorem State.heldReload_kept : (s.heldReload k v).kept = s.kept := by simp [State.heldReload]
@[simp ↓] theorem State.acceptCommit_kept : (s.acceptCommit q).kept = s.kept := by simp [State.acceptCommit]

@[simp ↓] theorem execCommitChecksDone_kept : (execCommitChecksDone s).kept = some s.kept := by
  unfold execCommitChecksDone; dsimp only; (repeat' split) <;> simp

@[simp ↓] theorem State.flipWaiting_kept : s.flipWaiting.kept = s.kept := by simp [State.flipWaiting]
@[simp ↓] theorem execDeferredFlip_kept : (execDeferredFlip s).kept = some s.kept := by simp [execDeferredFlip]

@[simp ↓] theorem execResetComplete_kept (kind scope : Nat) :
    (execResetComplete kind scope s).kept = some s.kept := by unfold execResetComplete; split <;> simp

@[simp ↓] theorem execPlanAbortDone_kept : (execPlanAbortDone k s).kept = some s.kept := by
  unfold execPlanAbortDone; dsimp only; split <;> simp

@[simp ↓] theorem execEventRingOverflow_kept (ring : Nat) : (execEventRingOverflow ring s).kept = some s.kept := by
  simp [execEventRingOverflow]

end

/-! ### Dictionary requests and register writes -/

section
variable (s : State) (who : Who) (sub idx value p n stager off kind : Nat) (v nonce : Octets)

@[simp ↓] theorem State.writeNonce_kept : (s.writeNonce stager nonce).kept = s.kept := by simp [State.writeNonce]

@[simp ↓] theorem State.acceptWrite_kept (v : Nat) : (s.acceptWrite idx sub v).2.kept = s.kept := by
  simp [State.acceptWrite]

@[simp ↓] theorem State.writeStop_kept : (s.writeStop p).2.kept = s.kept := by simp [State.writeStop]

@[simp ↓] theorem State.applyWrite_kept : (s.applyWrite stager idx sub v).2.kept = s.kept := by
  unfold State.applyWrite; split <;> simp

@[simp ↓] theorem State.writeObject_kept : (s.writeObject who idx sub v).2.kept = s.kept := by
  unfold State.writeObject; split <;> simp

@[simp ↓] theorem State.readRequest_kept (staged : Bool) :
    (s.readRequest who idx sub off n staged).2.kept = s.kept := by unfold State.readRequest; split <;> simp

@[simp ↓] theorem State.writeRequest_kept : (s.writeRequest who idx sub v).2.kept = s.kept := by
  simp [State.writeRequest]

@[simp ↓] theorem State.writeSegment_kept (data : Octets) (fin : Bool) :
    (s.writeSegment who idx sub off data fin).2.kept = s.kept := by
  unfold State.writeSegment; dsimp only; (repeat' split) <;> simp

@[simp ↓] theorem State.describeRequest_kept : (s.describeRequest who idx sub).2.kept = s.kept := by
  unfold State.describeRequest; split <;> simp

theorem State.dictionary_kept (s : State) (who : Who) (type flags : Nat) (b : Octets) :
    ∀ a ∈ s.dictionary who type flags b, a.2.kept = s.kept := by
  unfold State.dictionary; dsimp only; split <;> simp

@[simp ↓] theorem State.closeSession_kept : (s.closeSession n).kept = s.kept := by simp [State.closeSession]

@[simp ↓] theorem State.settleAddress_kept (status : Nat) : (s.settleAddress idx sub status).kept = s.kept := by
  simp [State.settleAddress]

@[simp ↓] theorem State.writeAs_kept : (s.writeAs who idx sub v).kept = some s.kept := by simp [State.writeAs]
@[simp ↓] theorem State.writeNum_kept : (s.writeNum who idx sub n).kept = some s.kept := by simp [State.writeNum]

@[simp ↓] theorem execCommitRequest_kept (token : Nat) : (execCommitRequest who token s).kept = some s.kept := by
  simp [execCommitRequest]

@[simp ↓] theorem execStagingDiscard_kept : (execStagingDiscard who value s).kept = some s.kept := by
  simp [execStagingDiscard]

@[simp ↓] theorem execPlanAbort_kept (k : Nat) : (execPlanAbort who k value s).kept = some s.kept := by
  simp [execPlanAbort]

@[simp ↓] theorem execMastPowerRequest_kept (m : Nat) : (execMastPowerRequest who m value s).kept = some s.kept := by
  simp [execMastPowerRequest]

@[simp ↓] theorem execPowerCapWrite_kept (watts : Nat) : (execPowerCapWrite who watts s).kept = some s.kept := by
  simp [execPowerCapWrite]

@[simp ↓] theorem execHostReady_kept : (execHostReady who value s).kept = some s.kept := by simp [execHostReady]

@[simp ↓] theorem execPackageReset_kept : (execPackageReset who value s).kept = some s.kept := by
  simp [execPackageReset]

@[simp ↓] theorem execPartitionReset_kept : (execPartitionReset who p value s).kept = some s.kept := by
  simp [execPartitionReset]

@[simp ↓] theorem execDomainReset_kept (d : Nat) : (execDomainReset who d value s).kept = some s.kept := by
  simp [execDomainReset]

@[simp ↓] theorem execPortReset_kept : (execPortReset who sub value s).kept = some s.kept := by simp [execPortReset]

@[simp ↓] theorem execPartitionStop_kept : (execPartitionStop who p value s).kept = some s.kept := by
  simp [execPartitionStop]

@[simp ↓] theorem execFirmwareImageWrite_kept (image : Octets) :
    (execFirmwareImageWrite who kind image s).kept = some s.kept := by simp [execFirmwareImageWrite]

@[simp ↓] theorem execSvnRaise_kept : (execSvnRaise who kind value s).kept = some s.kept := by simp [execSvnRaise]

@[simp ↓] theorem execAttestationNonce_kept : (execAttestationNonce who nonce s).kept = some s.kept := by
  simp [execAttestationNonce]

@[simp ↓] theorem execDebugToken_kept (token : Octets) : (execDebugToken who token s).kept = some s.kept := by
  simp [execDebugToken]

@[simp ↓] theorem execDebugRelock_kept : (execDebugRelock who value s).kept = some s.kept := by simp [execDebugRelock]

@[simp ↓] theorem execRegisterWrite_kept (value : Octets) :
    (execRegisterWrite who idx sub value s).kept = some s.kept := by simp [execRegisterWrite]

end

/-! ### The Choan responder -/

section
variable (s : State) (env : Envelope) (seq fromAddr rseq : Nat)

@[simp ↓] theorem execHello_kept : (execHello s).kept = some s.kept := by unfold execHello; simp
@[simp ↓] theorem execDiscover_kept : (execDiscover fromAddr seq s).kept = some s.kept := by simp [execDiscover]

@[simp ↓] theorem State.refuseSession_kept (addr status : Nat) : (s.refuseSession addr seq status).kept = s.kept := by
  simp [State.refuseSession]

@[simp ↓] theorem execSessionInit_kept (nonce key chain : Octets) :
    (execSessionInit fromAddr seq nonce key chain s).kept = some s.kept := by
  unfold execSessionInit; split <;> simp [-Nat.reducePow]

@[simp ↓] theorem State.badTag_kept (address : Nat) :
    (s.badTag address).kept = s.kept := (s.badTag_frame address).kept

@[simp ↓] theorem State.sendReply_kept (type : Nat) (r : Reply) : (s.sendReply env type r).kept = s.kept := by
  unfold State.sendReply; split <;> simp

@[simp ↓] theorem execSessionConfirm_kept (sig : Octets) : (execSessionConfirm env sig s).kept = some s.kept := by
  unfold execSessionConfirm; (repeat' split) <;> simp

@[simp ↓] theorem State.choan_kept (s : State) (env : Envelope) (type flags : Nat) (body : Octets)
    (act : State → Session → Reply × State) (after : Reply → State → State)
    (hact : ∀ t x, (act t x).2.kept = t.kept) (hafter : ∀ r t, (after r t).kept = t.kept) :
    (s.choan env type flags body act after).kept = some s.kept := by
  unfold State.choan
  dsimp only; (repeat' split) <;> simp [hact, hafter]

@[simp ↓] theorem State.choanDict_kept (s : State) (env : Envelope) (type flags : Nat) (body : Octets) :
    (s.choanDict env type flags body).kept = some s.kept := by
  unfold State.choanDict
  refine State.choan_kept _ _ _ _ _ _ _ (fun t _ => ?_) (by simp)
  cases h : t.dictionary (.operator (env.session - 1)) type flags body with
  | none => simp
  | some a => simpa using State.dictionary_kept _ _ _ _ _ _ h

@[simp ↓] theorem execClaim_kept : (execClaim env s).kept = some s.kept := by simp [execClaim]
@[simp ↓] theorem execClose_kept : (execClose env s).kept = some s.kept := by simp [execClose]

@[simp ↓] theorem execEventRead_kept (count : Nat) : (execEventRead env rseq count s).kept = some s.kept := by
  simp [execEventRead]

@[simp ↓] theorem execEventAck_kept : (execEventAck env rseq s).kept = some s.kept := by simp [execEventAck]

@[simp ↓] theorem execSubscribe_kept (on : Bool) : (execSubscribe env on s).kept = some s.kept := by
  simp [execSubscribe]

@[simp ↓] theorem execSessionTimeout_kept (n : Nat) : (execSessionTimeout n s).kept = some s.kept := by
  unfold execSessionTimeout; split <;> simp

end

/-! ### Remote memory access -/

section
variable (s : State) (m : RemoteMsg) (p kind : Nat) (q : Remote)

@[simp ↓] theorem State.remoteBlocked_kept : (s.remoteBlocked p m).kept = s.kept := by simp [State.remoteBlocked]

@[simp ↓] theorem State.respond_kept (status : Nat) (body : Octets) :
    (s.respond p kind status m body).kept = s.kept := by simp [State.respond]

@[simp ↓] theorem State.setRemote_kept : (s.setRemote q).kept = s.kept := by simp [State.setRemote]
@[simp ↓] theorem State.beginRemote_kept : (s.beginRemote q).kept = s.kept := by simp [State.beginRemote]
@[simp ↓] theorem State.endRemote_kept : (s.endRemote q).kept = s.kept := by simp [State.endRemote]

@[simp ↓] theorem State.runRemotes_kept (s : State) (fuel : Nat) : (s.runRemotes fuel).kept = s.kept := by
  induction fuel generalizing s with
  | zero => rfl
  | succ n ih => unfold State.runRemotes; (repeat' split) <;> simp [ih]

@[simp ↓] theorem State.serveRemotes_kept : s.serveRemotes.kept = s.kept := by simp [State.serveRemotes]

@[simp ↓] theorem State.addRemote_kept (part : Nat) : (s.addRemote p kind part m).kept = s.kept := by
  simp [State.addRemote]

@[simp ↓] theorem onMessage_kept (p vc : Nat) (s : State) (k : Result) (hk : k.kept = some s.kept) :
    (onMessage p vc s k).kept = some s.kept := by
  unfold onMessage; simp [hk]

@[simp ↓] theorem execPostedWrite_kept (p : Nat) (m : RemoteMsg) (s : State) :
    (execPostedWrite p m s).kept = some s.kept := by
  unfold execPostedWrite
  refine onMessage_kept _ _ _ _ ?_
  (repeat' split) <;> simp

@[simp ↓] theorem execReadReq_kept (p : Nat) (m : RemoteMsg) (s : State) :
    (execReadReq p m s).kept = some s.kept := by
  unfold execReadReq
  refine onMessage_kept _ _ _ _ ?_
  (repeat' split) <;> simp

@[simp ↓] theorem execWriteReq_kept (p : Nat) (m : RemoteMsg) (s : State) :
    (execWriteReq p m s).kept = some s.kept := by
  unfold execWriteReq
  refine onMessage_kept _ _ _ _ ?_
  (repeat' split) <;> simp

@[simp ↓] theorem execReadResp_kept : (execReadResp p m s).kept = some s.kept := by simp [execReadResp]
@[simp ↓] theorem execWriteAck_kept : (execWriteAck p m s).kept = some s.kept := by simp [execWriteAck]

@[simp ↓] theorem execFillArrival_kept (g l : Nat) : (execFillArrival g l s).kept = some s.kept := by
  unfold execFillArrival; split <;> simp

@[simp ↓] theorem execMemAccessComplete_kept (c wrong : Nat) :
    (execMemAccessComplete c wrong s).kept = some s.kept := by unfold execMemAccessComplete; split <;> simp

end

/-! ### The lamplighter cores and the peers -/

section
variable (s : State) (core c a p n data k slot : Nat) (store : Bool) (d : Octets) (q : PeerRequest)

@[simp ↓] theorem State.blockCore_kept : (s.blockCore core c a).kept = s.kept := by unfold State.blockCore; simp

@[simp ↓] theorem onCore_kept (core : Nat) (s : State) (k : Nat → Result)
    (hk : ∀ c, (k c).kept = some s.kept) : (onCore core s k).kept = some s.kept := by
  unfold onCore; split <;> simp [hk]

@[simp ↓] theorem State.allocMail_kept : (s.allocMail core c).kept = s.kept := by
  unfold State.allocMail; split <;> simp

@[simp ↓] theorem State.serve_kept (s : State) (who : Who) (allowed : List Nat) (o : Octets) :
    (s.serve who allowed o).2.kept = s.kept := by
  unfold State.serve
  split
  · simp
  · dsimp only
    (repeat' split)
    · simp
    · simp
    · next h => exact State.dictionary_kept _ _ _ _ _ _ h

@[simp ↓] theorem State.mailReply_kept : (s.mailReply k d).kept = s.kept := by simp [State.mailReply]

@[simp ↓] theorem State.submitMail_kept (s : State) (core c k : Nat) : (s.submitMail core c k).kept = s.kept := by
  unfold State.submitMail
  split
  · rfl
  · split
    · simp
    · split
      · rfl
      · split <;> next h => simp [State.kept_of_eq h]

@[simp ↓] theorem State.freeMail_kept : (s.freeMail core c k).kept = s.kept := by
  unfold State.freeMail; split <;> simp

@[simp ↓] theorem execMailboxAlloc_kept : (execMailboxAlloc core s).kept = some s.kept := by simp [execMailboxAlloc]

@[simp ↓] theorem execMailboxSubmit_kept : (execMailboxSubmit core slot s).kept = some s.kept := by
  simp [execMailboxSubmit]

@[simp ↓] theorem execMailboxFree_kept : (execMailboxFree core slot s).kept = some s.kept := by simp [execMailboxFree]

@[simp ↓] theorem State.replyPeer_kept (status : Nat) : (s.replyPeer q status d).kept = s.kept := by
  simp [State.replyPeer]

@[simp ↓] theorem State.busyPeer_kept : (s.busyPeer q).kept = s.kept := by simp [State.busyPeer]

@[simp ↓] theorem execDictRequest_kept (src tid : Nat) (dg : Octets) :
    (execDictRequest p src tid dg s).kept = some s.kept := by simp [execDictRequest]

@[simp ↓] theorem State.writeRdidx_kept (v : Nat) : (s.writeRdidx p v).kept = s.kept := by simp [State.writeRdidx]

@[simp ↓] theorem execRdidxWrite_kept (ring value : Nat) : (execRdidxWrite core ring value s).kept = some s.kept := by
  simp [execRdidxWrite]

@[simp ↓] theorem State.ringPlace_kept : (s.ringPlace p n).2.kept = s.kept := by
  unfold State.ringPlace; split <;> simp

@[simp ↓] theorem State.endLoad_kept (x : CoreLoad) : (s.endLoad x).kept = s.kept := by simp [State.endLoad]

@[simp ↓] theorem State.coreMemory_kept : (s.coreMemory core a n data store).kept = s.kept := by
  simp [State.coreMemory]

@[simp ↓] theorem State.coreControl_kept : (s.coreControl core c a n data store).kept = s.kept := by
  simp [State.coreControl]

@[simp ↓] theorem execLamplighterAccess_kept (addr len : Nat) :
    (execLamplighterAccess core store addr len data s).kept = some s.kept := by simp [execLamplighterAccess]

@[simp ↓] theorem State.emptyMail_kept : s.emptyMail.kept = s.kept := by simp [State.emptyMail]

@[simp ↓] theorem State.restartCommit_kept : s.restartCommit.kept = s.kept := by
  unfold State.restartCommit; split <;> simp

@[simp ↓] theorem execPilotRestarted_kept : (execPilotRestarted s).kept = some s.kept := by
  unfold execPilotRestarted; dsimp only; split <;> simp

end

/-! ### Every command -/

/-- A command that is one call of a shared operation, with an opcode of its own, is unfolded here; every other command has its
lemma above. -/
theorem exec_kept (c : Instr) (s : State) : Result.kept (exec c s) = some s.kept := by
  unfold exec
  split <;> simp [execMatmul, execAclr, execAdapt, execSend, execCopy, execJibAdd, execJibSub, execJibMul, execFma,
    execJibMin, execJibMax, execMul3, execExp, execLog, execRecip, execRsqrt, execSqrt, execReluGrad, execGeluGrad,
    execSiluGrad, execSigmoidGrad, execRsum, execRsumsq, execRmax, execRmaxabs, execRmstat, execRmsstat, execNorm,
    execSkip, execAdd, execSub, execAnd, execOr, execXor, execShl, execShr, execSar, execMul, execSlt, execSltu,
    execSeq, execMin, execMax, execAmadd, execAmswap, execRead, execWrite, execReadSeg, execWriteSeg, execList,
    execDescribe]

/-- Settles O6: every command goes on and keeps the two pieces (`exec_kept`). -/
theorem execLeavesQueue : Obligations.ExecLeavesQueue := by
  intro c s
  obtain ⟨t, ht, hk⟩ := Result.exists_next_of_kept (exec_kept c s)
  obtain ⟨hpending, hident⟩ := Prod.ext_iff.mp hk
  exact ⟨t, ht, hpending, hident⟩

end Sys2Proof.Machine

/-! SUPPORT. What every command and every pilot tick keeps: the tick counter, sound states, and what stands apart (O5, O7, O2, O59).

`s.leads κ t` says that from `s` to `t` no time passes, that of the few pieces which hardly any operation touches those in `κ`
are the same, and that `t` is sound where `s` is. Each operation of the model has one lemma that says so, in the order of the
model's files. It is an implication, "where `ρ` leads to `s`, it leads to `s.op` too", written as the equation
`ρ.leads κ (s.op …) = orElse (ρ.leads κ s) …` (`State.Led`): an equation is what `simp` rewrites by, so that it peels an
operation's body from the outside (`simp ↓`), one operation it is built from at a time, until `s.leads κ s` is left. A command
has the lemma `s.leadsTo κ (execOp … s)`. The list is `[]` where an operation touches a piece apart. As in `State.kept`, what
needs a step of its own stays visible: a body that branches on data is split, one that repeats itself goes by induction on its
fuel, and one that continues with an operation passed to it takes what it needs of that operation as a hypothesis. The events of the
pilot firmware stand at the end, by the frames of what they run. -/

namespace Sys2Proof.Machine

-- One proof at a time: each waits for the lemmas that it rewrites by.
set_option Elab.async false

/-! ### The relation -/

/-- The pieces that no operation touches or few do, each of them then the business of one command or of one part of a tick. -/
def apartPieces : List Piece :=
  [.pending, .ident, .sessions, .heard, .remoteNum, .mgmtRate, .mgmtSince, .i3cAddr, .ibien, .hellos, .writes, .grants]

/-- From `s` to `t` no time passes, of the pieces apart none of `κ` changes, and a sound state stays sound. -/
def State.leads (κ : List Piece) (s t : State) : Prop :=
  t.tick = s.tick ∧ (∀ f ∈ apartPieces, f ∈ κ → f.same s t) ∧ (s.sound → t.sound)

/-- The same for an outcome: one that stops leads nowhere. -/
def State.leadsTo (κ : List Piece) (s : State) (r : Result) : Prop := ∀ t, r = .next t → s.leads κ t

/-- A disjunction of which `simp` looks at the left side alone. -/
def orElse (a b : Prop) : Prop := a ∨ b

@[congr] theorem orElse_congr {a a' : Prop} (b : Prop) (h : a = a') : orElse a b = orElse a' b := by rw [h]

@[simp] theorem orElse_true (b : Prop) : orElse True b = True := by simp [orElse]

/-- The relation under a name that no rule rewrites: what stands to the right of an `orElse`. -/
def State.leadsElse (κ : List Piece) (s t : State) : Prop := s.leads κ t

/-- What `s` has of `ρ`, `t` has too: the implication from `ρ.leads κ s` to `ρ.leads κ t`, as an equation to rewrite by. -/
@[reducible] def State.Led (κ : List Piece) (ρ s t : State) : Prop :=
  ρ.leads κ t = orElse (ρ.leads κ s) (ρ.leadsElse κ t)

section
variable {κ : List Piece} {ρ s t u : State}

theorem State.leads.trans (h : s.leads κ t) (h' : t.leads κ u) : s.leads κ u := by
  obtain ⟨htick, hapart, hsound⟩ := h
  obtain ⟨htick', hapart', hsound'⟩ := h'
  exact ⟨htick'.trans htick, fun f hf hκ => Piece.same_trans (hapart f hf hκ) (hapart' f hf hκ),
    fun hs => hsound' (hsound hs)⟩

@[simp ↓] theorem State.leads_refl (s : State) : s.leads κ s :=
  ⟨rfl, fun f _ _ => changesOnly.refl [] s f (by simp), id⟩

theorem State.led_of (h : s.leads κ t) : State.Led κ ρ s t := by
  simpa [State.Led, State.leadsElse, orElse] using fun h' : ρ.leads κ s => h'.trans h

theorem State.leads_of_led (h : State.Led κ s s t) : s.leads κ t := by rw [h]; exact .inl (State.leads_refl s)

/-- The pieces that sound states and the tick rest on. -/
def stemPieces : List Piece := [.tick, .mem, .grad, .mailbox, .rings]

theorem State.sound_congr (h : keeps stemPieces s t) : t.sound ↔ s.sound := by
  have hmem : t.mem = s.mem := h .mem (by decide)
  have hgrad : t.grad = s.grad := h .grad (by decide)
  have hmail : t.mailbox = s.mailbox := h .mailbox (by decide)
  have hrings : t.rings = s.rings := h .rings (by decide)
  simp [State.sound, State.ring, hmem, hgrad, hmail, hrings]

/-- A frame that names none of these pieces and none apart. -/
theorem changesOnly.led {fs : List Piece} (h : changesOnly fs s t)
    (hd : ∀ f ∈ stemPieces ++ apartPieces, f ∉ fs := by decide) : State.Led κ ρ s t :=
  State.led_of ⟨h .tick (hd _ (by decide)), fun f hf _ => h f (hd f (List.mem_append_right _ hf)),
    (State.sound_congr fun f hf => h f (hd f (List.mem_append_left _ hf))).2⟩

/-- A memory `m'` in place of `m`: in canonical form where `m` is. -/
def Memory.steady (m m' : FMap Byte) : Prop := Memory.wf m = true → Memory.wf m' = true

@[simp] theorem Memory.steady_refl (m : FMap Byte) : Memory.steady m m := id

@[simp] theorem Memory.steady_nil (m : FMap Byte) : Memory.steady m [] := fun _ => rfl

@[simp] theorem Memory.steady_writeLE (m : FMap Byte) (a n v : Nat) : Memory.steady m (FMap.writeLE m a n v) :=
  fun hm => FMap.wf_writeLE hm a n v

@[simp] theorem Memory.steady_clearRange (m : FMap Byte) (lo hi : Nat) : Memory.steady m (FMap.clearRange m lo hi) :=
  fun hm => FMap.wf_clearRange hm lo hi

/-! ### Updates, branches and folds -/

/-- An update: the bytes that it writes stay in canonical form. -/
@[simp ↓] theorem State.mk_led
    {free draws outbox mem poisoned grad panes trims masts parts lines uses directory trackers
     streams openRows heldReqs hot hotSince hbm lantern silent dict snaps snapRing limits
     stagers commits commitNum deferred accepted plans holds holdNum sent sentNum ports remote rats
     flows bondSince coreLoads mailSlots mailbox peerMail resets domains power fw carve}
    (hmem : Memory.steady s.mem mem) (hgrad : Memory.steady s.grad grad) (hmail : Memory.steady s.mailbox mailbox) :
    State.Led κ ρ s
    (State.mk s.pending s.tick free draws outbox s.ident mem poisoned grad panes trims masts parts lines uses
      directory trackers streams openRows heldReqs hot hotSince hbm lantern silent dict snaps snapRing
      s.writes s.rings limits s.sessions stagers commits commitNum deferred accepted plans holds holdNum sent
      sentNum ports s.heard remote s.remoteNum rats flows bondSince coreLoads mailSlots mailbox peerMail
      resets s.grants domains power fw s.mgmtRate s.mgmtSince s.i3cAddr s.ibien s.hellos carve) := by
  refine State.led_of ⟨rfl, fun f hf _ => ?_, fun ⟨h, h', h'', hrings⟩ => ⟨hmem h, hgrad h', hmail h'', hrings⟩⟩
  simp only [apartPieces, List.mem_cons, List.not_mem_nil, or_false] at hf
  rcases hf with rfl | rfl | rfl | rfl | rfl | rfl | rfl | rfl | rfl | rfl | rfl | rfl <;> rfl

/-- An update of the pieces apart, where none of them is watched. -/
@[simp ↓] theorem State.mk_led_nil
    {pending free draws outbox ident mem poisoned grad panes trims masts parts lines uses directory trackers
     streams openRows heldReqs hot hotSince hbm lantern silent dict snaps snapRing writes limits sessions
     stagers commits commitNum deferred accepted plans holds holdNum sent sentNum ports heard remote remoteNum rats
     flows bondSince coreLoads mailSlots mailbox peerMail resets grants domains power fw mgmtRate mgmtSince i3cAddr
     ibien hellos carve}
    (hmem : Memory.steady s.mem mem) (hgrad : Memory.steady s.grad grad) (hmail : Memory.steady s.mailbox mailbox) :
    State.Led [] ρ s
    (State.mk pending s.tick free draws outbox ident mem poisoned grad panes trims masts parts lines uses
      directory trackers streams openRows heldReqs hot hotSince hbm lantern silent dict snaps snapRing
      writes s.rings limits sessions stagers commits commitNum deferred accepted plans holds holdNum sent
      sentNum ports heard remote remoteNum rats flows bondSince coreLoads mailSlots mailbox peerMail
      resets grants domains power fw mgmtRate mgmtSince i3cAddr ibien hellos carve) :=
  State.led_of ⟨rfl, fun _ _ h => absurd h (by simp), fun ⟨h, h', h'', hrings⟩ =>
    ⟨hmem h, hgrad h', hmail h'', hrings⟩⟩

@[simp ↓] theorem State.leads_ite {c : Prop} [Decidable c] (s t u : State) :
    s.leads κ (if c then t else u) = if c then s.leads κ t else s.leads κ u := apply_ite ..

@[simp ↓] theorem State.leads_ite_snd {α : Type} {c : Prop} [Decidable c] (s : State) (a b : α × State) :
    s.leads κ (if c then a else b).2 = if c then s.leads κ a.2 else s.leads κ b.2 :=
  apply_ite (fun x : α × State => s.leads κ x.2) ..

theorem State.ite_leads {c : Prop} [Decidable c] (ht : s.leads κ t) (hu : s.leads κ u) :
    s.leads κ (if c then t else u) := by
  split <;> assumption

theorem State.foldl_leads {β : Type} {f : State → β → State} (hf : ∀ (s : State) b, s.leads κ (f s b)) (l : List β) (s : State) :
    s.leads κ (l.foldl f s) := by
  induction l generalizing s with
  | nil => exact s.leads_refl
  | cons b l ih => exact (hf s b).trans (ih (f s b))

@[simp ↓] theorem State.foldl_led {β : Type} (f : State → β → State) (hf : ∀ (s : State) b, s.leads κ (f s b)) (l : List β)
    (s : State) : State.Led κ ρ s (l.foldl f s) := State.led_of (State.foldl_leads hf l s)

theorem State.foldl_snd_leads {α β : Type} {f : α × State → β → α × State} (hf : ∀ (a : α × State) b, a.2.leads κ (f a b).2)
    (l : List β) (a : α × State) : a.2.leads κ (l.foldl f a).2 := by
  induction l generalizing a with
  | nil => exact a.2.leads_refl
  | cons b l ih => exact (hf a b).trans (ih (f a b))

/-- The same for a fold that carries a value beside the state. -/
@[simp ↓] theorem State.foldl_snd_led {α β : Type} (f : α × State → β → α × State)
    (hf : ∀ (a : α × State) b, a.2.leads κ (f a b).2) (l : List β) (a : α × State) : State.Led κ ρ a.2 (l.foldl f a).2 :=
  State.led_of (State.foldl_snd_leads hf l a)

theorem State.forRange_leads {f : Nat → State → State} (hf : ∀ i (s : State), s.leads κ (f i s)) (n : Nat) (s : State) :
    s.leads κ (forRange n s f) := State.foldl_leads (fun s i => hf i s) _ s

@[simp ↓] theorem State.forRange_led (n : Nat) (s : State) (f : Nat → State → State)
    (hf : ∀ i (s : State), s.leads κ (f i s)) : State.Led κ ρ s (forRange n s f) := State.led_of (State.forRange_leads hf n s)

/-- The state of a pair, under a name that a `match` gave it. -/
theorem State.leads_of_eq {α : Type} {x : α × State} {a : α} (h : x = (a, t)) (hx : s.leads κ x.2) : s.leads κ t := by
  simpa [h] using hx

/-- The state that an operation leaves, where it leaves one. -/
def State.leadsIn (κ : List Piece) (s : State) (o : Option State) : Prop := ∀ t ∈ o, s.leads κ t

@[simp] theorem State.leadsIn_none (s : State) : s.leadsIn κ none := by simp [State.leadsIn]

@[simp] theorem State.leadsIn_some (s t : State) : s.leadsIn κ (some t) ↔ s.leads κ t := by simp [State.leadsIn]

/-! ### Outcomes -/

@[simp ↓] theorem State.leadsTo_next (s t : State) : s.leadsTo κ (.next t) = s.leads κ t := by simp [State.leadsTo]

@[simp ↓] theorem State.leadsTo_ite {c : Prop} [Decidable c] (s : State) (r r' : Result) :
    s.leadsTo κ (if c then r else r') = if c then s.leadsTo κ r else s.leadsTo κ r' := apply_ite ..

@[simp ↓] theorem guardEvent_leadsTo (ok : Bool) (s t : State) (r : Result) :
    s.leadsTo κ (guardEvent ok t r) = if ok then s.leadsTo κ r else s.leads κ t := by
  cases ok <;> simp [guardEvent]

end

/-! ### Memory and rings -/

section
variable {κ : List Piece} {ρ s t : State}

/-- An operation that touches memory, the gradient buffers, the mailbox or the rings must keep them sound. -/
theorem State.led_of_sound {fs : List Piece} (h : changesOnly fs s t) (hs : s.sound → t.sound)
    (hd : ∀ f ∈ Piece.tick :: apartPieces, f ∉ fs := by decide) : State.Led κ ρ s t :=
  State.led_of ⟨h .tick (hd _ (by decide)), fun f hf _ => h f (hd f (List.mem_cons_of_mem _ hf)), hs⟩

theorem State.sound.setRing {n : Nat} {g : Ring} (h : s.sound) (hg : g.sound (ringSize n)) : (s.setRing n g).sound := by
  obtain ⟨hmem, hgrad, hmail, hrings⟩ := h
  refine ⟨hmem, hgrad, hmail, fun k => ?_⟩
  rw [State.ring_setRing]
  split
  · next hk => exact hk ▸ hg
  · exact hrings k

/-- A ring is put back that is within its size where the one that stood there was. -/
theorem State.setRing_led {n : Nat} {g : Ring} (hg : (s.ring n).sound (ringSize n) → g.sound (ringSize n)) :
    State.Led κ ρ s (s.setRing n g) :=
  State.led_of_sound (s.setRing_frame n g) fun h => h.setRing (hg (h.2.2.2 n))

theorem State.foldl_rings {β : Type} (f : State → β → State) (hf : ∀ t b, (f t b).rings = t.rings) (l : List β)
    (s : State) : (l.foldl f s).rings = s.rings := by
  induction l generalizing s with
  | nil => rfl
  | cons b l ih => exact (ih _).trans (hf s b)

@[simp ↓] theorem State.postRing_led (s : State) (n : Nat) (rs : List Rec) : State.Led κ ρ s (s.postRing n rs) :=
  State.setRing_led fun h => Ring.post_sound _ rs h

end

variable {κ : List Piece} {ρ : State}

/-! ### The named operations over the state -/

section
variable (s : State) (n a idx sub bits v m : Nat) (e : Event) (r : Requester)

@[simp ↓] theorem State.emit_led (kind : OutKind) (b : Nat) (data : Octets) : State.Led κ ρ s (s.emit kind a b data) :=
  (s.emit_frame kind a b data).led

@[simp ↓] theorem State.open_led : State.Led κ ρ s (s.open bits).2 := (s.open_frame bits).led
@[simp ↓] theorem State.draw_led : State.Led κ ρ s (s.draw bits).2 := (s.draw_frame bits).led
@[simp ↓] theorem State.setObj_led (v : Octets) : State.Led κ ρ s (s.setObj idx sub v) := (s.setObj_frame idx sub v).led
@[simp ↓] theorem State.setVal_led : State.Led κ ρ s (s.setVal idx sub v) := (s.setVal_frame idx sub v).led
@[simp ↓] theorem State.bump_led : State.Led κ ρ s (s.bump idx sub n) := (s.bump_frame idx sub n).led
@[simp ↓] theorem State.setPart_led (p : Nat) (x : Part) : State.Led κ ρ s (s.setPart p x) := (s.setPart_frame p x).led

/-- Pushing leaves every ring as it is, but for the note of how far it came. -/
theorem State.pushNew_ring : ∃ p, s.pushNew.ring n = { s.ring n with pushed := p } := by
  have same (l : List (Nat × Session)) (f : State → Nat × Session → State) (hf : ∀ t b, (f t b).rings = t.rings) :
      (l.foldl f s).ring n = s.ring n := by
    simp only [State.ring, State.foldl_rings f hf]
  unfold State.pushNew
  dsimp only
  split
  · exact ⟨_, rfl⟩
  · rw [State.ring_setRing]
    split
    · next h => exact ⟨_, by rw [h]⟩
    · refine ⟨_, same _ _ fun t b => ?_⟩
      split
      · refine State.foldl_rings _ (fun _ _ => ?_) _ t
        rfl
      · rfl

@[simp ↓] theorem State.pushNew_led : State.Led κ ρ s s.pushNew := by
  refine State.led_of_sound s.pushNew_frame fun ⟨hmem, hgrad, hmail, hrings⟩ => ?_
  refine ⟨(s.pushNew_frame .mem (by decide)).symm ▸ hmem, (s.pushNew_frame .grad (by decide)).symm ▸ hgrad,
    (s.pushNew_frame .mailbox (by decide)).symm ▸ hmail, fun n => ?_⟩
  obtain ⟨p, hp⟩ := s.pushNew_ring n
  exact hp ▸ hrings n

@[simp ↓] theorem State.post_led : State.Led κ ρ s (s.post e) := State.led_of (by simp [State.post])

@[simp ↓] theorem State.postLimited_led (id gap : Nat) : State.Led κ ρ s (s.postLimited id gap e) :=
  State.led_of (by simp [State.postLimited])

@[simp ↓] theorem State.postEach_led (id gap : Nat) (parts : List Nat) (e : Nat → Event) :
    State.Led κ ρ s (s.postEach id gap parts e) := State.led_of (by simp [State.postEach])

@[simp ↓] theorem State.store_led : State.Led κ ρ s (s.store a n v) :=
  State.led_of (by simp [State.store])

@[simp ↓] theorem State.zeroMem_led : State.Led κ ρ s (s.zeroMem a n) :=
  State.led_of (by simp [State.zeroMem])

@[simp ↓] theorem State.poisonHalf_led (h : Nat) : State.Led κ ρ s (s.poisonHalf h) :=
  State.led_of (by simp [State.poisonHalf])

@[simp ↓] theorem State.blockedFor_led (parts : List Nat) : State.Led κ ρ s (s.blockedFor r parts a n) :=
  State.led_of (by simp [State.blockedFor])

@[simp ↓] theorem State.blocked_led (part : Option Nat) : State.Led κ ρ s (s.blocked r part a n) :=
  State.led_of (by simp [State.blocked])

@[simp ↓] theorem State.setMast_led (x : Mast) : State.Led κ ρ s (s.setMast m x) := (s.setMast_frame m x).led

@[simp ↓] theorem State.hostError_led (rule item : Nat) : State.Led κ ρ s (s.hostError m rule item) :=
  State.led_of (by simp [State.hostError])

end

/-! ### External ports: flits, credit and routing -/

section
variable (s : State) (p vc cls : Nat) (q : Queued) (msg : Octets)

@[simp ↓] theorem State.setPort_led (x : Port) : State.Led κ ρ s (s.setPort p x) := (s.setPort_frame p x).led
@[simp ↓] theorem State.portGo_led (st : Nat) : State.Led κ ρ s (s.portGo p st) := State.led_of (by simp [State.portGo])

@[simp ↓] theorem State.emitFlit_led (f : StayFlit) : State.Led κ ρ s (s.emitFlit p f) :=
  State.led_of (by simp [State.emitFlit])

@[simp ↓] theorem State.sendControl_led (kind contents : Nat) : State.Led κ ρ s (s.sendControl p kind contents) :=
  State.led_of (by simp [State.sendControl])

@[simp ↓] theorem State.grantShared_led : State.Led κ ρ s (s.grantShared p) := by
  refine State.led_of ?_
  unfold State.grantShared; dsimp only; split <;> simp

@[simp ↓] theorem State.sendCredit_led : State.Led κ ρ s (s.sendCredit p) := State.led_of (by simp [State.sendCredit])

@[simp ↓] theorem State.freeCredit_led (n : Nat) : State.Led κ ρ s (s.freeCredit p vc cls n) :=
  State.led_of (by simp [State.freeCredit])

@[simp ↓] theorem State.takePlace_led : State.Led κ ρ s (s.takePlace p vc cls) :=
  State.led_of (by simp [State.takePlace])

@[simp ↓] theorem State.shareOut_led : State.Led κ ρ s (s.shareOut p) := State.led_of (by simp [State.shareOut])

@[simp ↓] theorem State.police_led (cause : Nat) : State.Led κ ρ s (s.police p cause) :=
  State.led_of (by simp [State.police])

@[simp ↓] theorem State.sendPiece_led : State.Led κ ρ s (s.sendPiece p q) := State.led_of (by simp [State.sendPiece])
@[simp ↓] theorem State.sendFlit_led : State.Led κ ρ s (s.sendFlit p q) := State.led_of (by simp [State.sendFlit])

@[simp ↓] theorem State.pumpFrom_led (fuel : Nat) : State.Led κ ρ s (s.pumpFrom p fuel) := by
  induction fuel generalizing ρ s with
  | zero => exact State.led_of s.leads_refl
  | succ n ih => refine State.led_of ?_; unfold State.pumpFrom; dsimp only; (repeat' split) <;> simp [ih]

@[simp ↓] theorem State.noteStarved_led : State.Led κ ρ s (s.noteStarved p) :=
  State.led_of (by simp [State.noteStarved])

@[simp ↓] theorem State.pump_led : State.Led κ ρ s (s.pump p) := State.led_of (by simp [State.pump])

@[simp ↓] theorem State.enqueue_led (qs : List Queued) : State.Led κ ρ s (s.enqueue p qs) :=
  State.led_of (by simp [State.enqueue])

@[simp ↓] theorem State.sendPort_led : State.Led κ ρ s (s.sendPort p vc msg) := State.led_of (by simp [State.sendPort])

@[simp ↓] theorem State.sendTo_led (dst mark : Nat) : State.Led κ ρ s (s.sendTo vc dst mark msg) := by
  refine State.led_of ?_
  unfold State.sendTo; split <;> simp

end

/-! ### The ratline array -/

section
variable (s : State) (side d : Nat)

@[simp ↓] theorem State.setRat_led (x : RatDir) : State.Led κ ρ s (s.setRat d side x) := (s.setRat_frame d side x).led

@[simp ↓] theorem State.setFlow_led (x : RatFlow) : State.Led κ ρ s (s.setFlow d side x) :=
  (s.setFlow_frame d side x).led

end

/-! ### Far caches, directory and trackers -/

section
variable (s : State) (l g c who n w d a wrong h stack half k : Nat) (q : LineReq) (st : LineState) (x : DirEntry)
  (halves : List Nat) (ask : LineAsk) (whole write : Bool)

@[simp ↓] theorem State.setLine_led (x : Line) : State.Led κ ρ s (s.setLine g l x) :=
  State.led_of (by simp [State.setLine])

@[simp ↓] theorem State.dropLine_led : State.Led κ ρ s (s.dropLine g l) := State.led_of (by simp [State.dropLine])
@[simp ↓] theorem State.touchLine_led : State.Led κ ρ s (s.touchLine g l st) := State.led_of (by simp [State.touchLine])
@[simp ↓] theorem State.setDir_led : State.Led κ ρ s (s.setDir l x) := State.led_of (by simp [State.setDir])

@[simp ↓] theorem State.countCache_led (idx sub : Nat) : State.Led κ ρ s (s.countCache g idx sub) :=
  State.led_of (by simp [State.countCache])

@[simp ↓] theorem State.alertWatches_led : State.Led κ ρ s (s.alertWatches g l) :=
  State.led_of (by simp [State.alertWatches])

@[simp ↓] theorem State.openRow_led : State.Led κ ρ s (s.openRow c h) := State.led_of (by simp [State.openRow])

@[simp ↓] theorem State.setTracker_led (x : Tracker) : State.Led κ ρ s (s.setTracker n x) :=
  State.led_of (by simp [State.setTracker])

@[simp ↓] theorem State.received_led : State.Led κ ρ s (s.received c halves) := State.led_of (by simp [State.received])
@[simp ↓] theorem State.noteUse_led : State.Led κ ρ s (s.noteUse c) := State.led_of (by simp [State.noteUse])

@[simp ↓] theorem State.takeEntries_led (pref read : Bool) : State.Led κ ρ s (s.takeEntries c q pref read) :=
  State.led_of (by simp [State.takeEntries])

@[simp ↓] theorem State.refuseEntry_led (why : Nat) : State.Led κ ρ s (s.refuseEntry c l q why) :=
  State.led_of (by simp [State.refuseEntry])

@[simp ↓] theorem State.recallHolder_led : State.Led κ ρ s (s.recallHolder g l) := by
  refine State.led_of ?_
  unfold State.recallHolder; dsimp only; (repeat' split) <;> simp

@[simp ↓] theorem State.recall_led (home keep : Nat) : State.Led κ ρ s (s.recall home keep l) :=
  State.led_of (by simp [State.recall])

@[simp ↓] theorem State.dirRoom_led : State.Led κ ρ s (s.dirRoom l) := State.led_of (by simp [State.dirRoom])

@[simp ↓] theorem State.shareHome_led : State.Led κ ρ s (s.shareHome h l) := by
  refine State.led_of ?_
  unfold State.shareHome; split <;> simp

@[simp ↓] theorem State.serveLine_led : State.Led κ ρ s (s.serveLine l q) := by
  refine State.led_of ?_
  unfold State.serveLine; dsimp only; (repeat' split) <;> simp

@[simp ↓] theorem State.reach_led : State.Led κ ρ s (s.reach l q) := State.led_of (by simp [State.reach])

@[simp ↓] theorem State.serveNext_led (fuel : Nat) : State.Led κ ρ s (s.serveNext l fuel) := by
  induction fuel generalizing ρ s with
  | zero => exact State.led_of s.leads_refl
  | succ n ih => refine State.led_of ?_; unfold State.serveNext; dsimp only; (repeat' split) <;> simp [ih]

@[simp ↓] theorem State.endTransaction_led : State.Led κ ρ s (s.endTransaction l x) :=
  State.led_of (by simp [State.endTransaction])

@[simp ↓] theorem State.sendLine_led : State.Led κ ρ s (s.sendLine l g ask who halves) :=
  State.led_of (by simp [State.sendLine])

@[simp ↓] theorem State.accessHome_led (op : HomeOp) : State.Led κ ρ s (s.accessHome who op a n) :=
  State.led_of (by simp [State.accessHome])

@[simp ↓] theorem State.adaptDepth_led (grow : Bool) : State.Led κ ρ s (s.adaptDepth g l grow) :=
  State.led_of (by simp [State.adaptDepth])

@[simp ↓] theorem State.prefetchLine_led : State.Led κ ρ s (s.prefetchLine g w l) :=
  State.led_of (by simp [State.prefetchLine])

@[simp ↓] theorem State.trainPrefetch_led : State.Led κ ρ s (s.trainPrefetch g w l) := by
  refine State.led_of ?_
  unfold State.trainPrefetch; dsimp only; (repeat' split) <;> simp

@[simp ↓] theorem State.upgrade_led : State.Led κ ρ s (s.upgrade g l who whole) :=
  State.led_of (by simp [State.upgrade])

@[simp ↓] theorem State.demandLine_led : State.Led κ ρ s (s.demandLine g w who write whole l) := by
  refine State.led_of ?_
  unfold State.demandLine; (repeat' split) <;> simp

@[simp ↓] theorem State.demand_led : State.Led κ ρ s (s.demand g w who a n write) :=
  State.led_of (by simp [State.demand])

@[simp ↓] theorem State.keepShared_led : State.Led κ ρ s (s.keepShared g l) := by
  refine State.led_of ?_
  unfold State.keepShared; (repeat' split) <;> simp

@[simp ↓] theorem State.evictLine_led : State.Led κ ρ s (s.evictLine g l st) := by
  refine State.led_of ?_
  unfold State.evictLine; split <;> simp

@[simp ↓] theorem State.lineRoom_led : State.Led κ ρ s (s.lineRoom g l) := by
  refine State.led_of ?_
  unfold State.lineRoom; dsimp only; (repeat' split) <;> simp

@[simp ↓] theorem execDirectoryRequest_leadsTo : s.leadsTo κ (execDirectoryRequest g l ask s) := by
  unfold execDirectoryRequest; (repeat' split) <;> simp

@[simp ↓] theorem State.fillLine_led : State.Led κ ρ s (s.fillLine g l st x) := State.led_of (by simp [State.fillLine])

@[simp ↓] theorem State.fill_led : State.Led κ ρ s (s.fill l q) := by
  refine State.led_of ?_
  unfold State.fill; dsimp only; (repeat' split) <;> simp

@[simp ↓] theorem execForwardedRead_leadsTo : s.leadsTo κ (execForwardedRead g l s) := by
  unfold execForwardedRead; (repeat' split) <;> simp

@[simp ↓] theorem execInvalidate_leadsTo : s.leadsTo κ (execInvalidate g l s) := by
  unfold execInvalidate; dsimp only; (repeat' split) <;> simp

@[simp ↓] theorem State.uncorrectable_led : State.Led κ ρ s (s.uncorrectable stack half) :=
  State.led_of (by simp [State.uncorrectable])

@[simp ↓] theorem State.decodeHalf_led : State.Led κ ρ s (s.decodeHalf stack half wrong) :=
  State.led_of (by simp [State.decodeHalf])

@[simp ↓] theorem State.accessDone_led (a : Access) : State.Led κ ρ s (s.accessDone c a wrong) :=
  State.led_of (by simp [State.accessDone])

@[simp ↓] theorem execTrackerGrantTimeout_leadsTo : s.leadsTo κ (execTrackerGrantTimeout c s) := by
  unfold execTrackerGrantTimeout; dsimp only; split <;> simp

@[simp ↓] theorem execPatrolScrub_leadsTo : s.leadsTo κ (execPatrolScrub k wrong s) := by simp [execPatrolScrub]

@[simp ↓] theorem execHbmTempSample_leadsTo (temp : Nat) : s.leadsTo κ (execHbmTempSample k temp s) := by
  simp [execHbmTempSample]

@[simp ↓] theorem State.postHot_led (parts : Nat) : State.Led κ ρ s (s.postHot d c parts) :=
  State.led_of (by simp [State.postHot])

@[simp ↓] theorem State.hotChannelEnd_led (total : Nat) : State.Led κ ρ s (s.hotChannelEnd d total c) :=
  State.led_of (by simp [State.hotChannelEnd])

@[simp ↓] theorem execHotWindowEnd_leadsTo : s.leadsTo κ (execHotWindowEnd d s) := by simp [execHotWindowEnd]
@[simp ↓] theorem State.loseLine_led : State.Led κ ρ s (s.loseLine l) := State.led_of (by simp [State.loseLine])
@[simp ↓] theorem State.dropLines_led : State.Led κ ρ s (s.dropLines a n) := State.led_of (by simp [State.dropLines])
@[simp ↓] theorem State.flushAgent_led : State.Led κ ρ s (s.flushAgent d) := State.led_of (by simp [State.flushAgent])

@[simp ↓] theorem State.forgetRequests_led (mine : Nat → Bool) : State.Led κ ρ s (s.forgetRequests mine) :=
  (s.forgetRequests_frame mine).led

end

/-! ### Memory requests -/

section
variable (s : State) (a n v who : Nat) (part : Option Nat) (r : Requester)

@[simp ↓] theorem State.fetchFor_led (write : Bool) : State.Led κ ρ s (s.fetchFor r part a n write) := by
  refine State.led_of ?_
  unfold State.fetchFor; split <;> simp

@[simp ↓] theorem State.readReq_led : State.Led κ ρ s (s.readReq r part a n).2 := State.led_of (by simp [State.readReq])

@[simp ↓] theorem State.writeReq_led : State.Led κ ρ s (s.writeReq r part a n v).2 :=
  State.led_of (by simp [State.writeReq])

@[simp ↓] theorem State.readMany_led : State.Led κ ρ s (s.readMany r part a n).2 :=
  State.led_of (by simp [State.readMany])

@[simp ↓] theorem State.writeMany_led : State.Led κ ρ s (s.writeMany r part a n v).2 :=
  State.led_of (by simp [State.writeMany])

@[simp ↓] theorem State.engineValue_led : State.Led κ ρ s (s.engineValue a n).2 :=
  State.led_of (by simp [State.engineValue])

@[simp ↓] theorem State.engineKeep_led : State.Led κ ρ s (s.engineKeep a n v) :=
  State.led_of (by simp [State.engineKeep])

@[simp ↓] theorem State.engineLoad_led : State.Led κ ρ s (s.engineLoad who a n).2 :=
  State.led_of (by simp [State.engineLoad])

@[simp ↓] theorem State.engineStore_led : State.Led κ ρ s (s.engineStore who a n v) :=
  State.led_of (by simp [State.engineStore])

@[simp ↓] theorem State.homeAtomic_led : State.Led κ ρ s (s.homeAtomic who a) :=
  State.led_of (by simp [State.homeAtomic])

@[simp ↓] theorem State.atomicWord_led : State.Led κ ρ s (s.atomicWord r part a).2 :=
  State.led_of (by simp [State.atomicWord])

end

/-! ### Training state on the base dies -/

section
variable (s : State) (part : Option Nat) (n die d tag p a k off fmt utag key v reg : Nat) (r : Requester) (g : Region)
  (xs : List Fp)

@[simp ↓] theorem State.formatSlot_led (rec : Nat) : State.Led κ ρ s (s.formatSlot die rec fmt).2 := by
  refine State.led_of ?_
  unfold State.formatSlot; dsimp only; split <;> simp

@[simp ↓] theorem State.lanternAdd_led : State.Led κ ρ s (s.lanternAdd key n) :=
  State.led_of (by simp [State.lanternAdd])

@[simp ↓] theorem State.countValue_led (w : Written) : State.Led κ ρ s (s.countValue die part tag fmt w) := by
  refine State.led_of ?_
  unfold State.countValue; dsimp only; (repeat' split) <;> simp

@[simp ↓] theorem State.countAll_led (ws : List Written) : State.Led κ ρ s (s.countAll die part tag fmt ws) :=
  State.led_of (by simp [State.countAll])

@[simp ↓] theorem State.tagFigure_led (word : Nat) : State.Led κ ρ s (s.tagFigure die part tag word n) := by
  refine State.led_of ?_
  unfold State.tagFigure; split <;> simp

@[simp ↓] theorem State.tagError_led (e : Nat) : State.Led κ ρ s (s.tagError die part tag e) := by
  refine State.led_of ?_
  unfold State.tagError; split <;> simp

@[simp ↓] theorem State.countInto_led (most : Bool) : State.Led κ ρ s (s.countInto die p a n most) :=
  State.led_of (by simp [State.countInto])

@[simp ↓] theorem State.flushCount_led : State.Led κ ρ s (s.flushCount key n) := by
  refine State.led_of ?_
  unfold State.flushCount; dsimp only; split <;> simp

@[simp ↓] theorem execLanternFlush_leadsTo : s.leadsTo κ (execLanternFlush d s) := by simp [execLanternFlush]

@[simp ↓] theorem State.setPane_led (x : Pane) : State.Led κ ρ s (s.setPane p d k x) :=
  State.led_of (by simp [State.setPane])

@[simp ↓] theorem State.gradRead_led : State.Led κ ρ s (s.gradRead r part a n).2 := by
  refine State.led_of ?_
  unfold State.gradRead; split <;> simp

@[simp ↓] theorem State.lateWrite_led : State.Led κ ρ s (s.lateWrite r p d k utag) :=
  State.led_of (by simp [State.lateWrite])

@[simp ↓] theorem State.openPane_led : State.Led κ ρ s (s.openPane p d k) := State.led_of (by simp [State.openPane])

@[simp ↓] theorem State.gradWrite_led : State.Led κ ρ s (s.gradWrite r part utag a n v).2 := by
  refine State.led_of ?_
  unfold State.gradWrite; split <;> simp

@[simp ↓] theorem State.countAdd_led (big nan : Bool) : State.Led κ ρ s (s.countAdd d big nan) :=
  State.led_of (by simp [State.countAdd])

@[simp ↓] theorem State.gradAdd_led : State.Led κ ρ s (s.gradAdd r part utag a xs).2 := by
  refine State.led_of ?_
  unfold State.gradAdd; split <;> simp

@[simp ↓] theorem State.memAdd_led : State.Led κ ρ s (s.memAdd r part a xs).2 := State.led_of (by simp [State.memAdd])
@[simp ↓] theorem execPaneDrainEnd_leadsTo : s.leadsTo κ (execPaneDrainEnd d p k s) := by simp [execPaneDrainEnd]

@[simp ↓] theorem State.setZeroRun_led (granule : Nat) (b : Bool) :
    State.Led κ ρ s (s.setZeroRun r part g granule b).2 := State.led_of (by simp [State.setZeroRun])

@[simp ↓] theorem State.writeStored_led : State.Led κ ρ s (s.writeStored r part die tag g off n v).2 :=
  State.led_of (by simp [State.writeStored, -Nat.reducePow])

@[simp ↓] theorem State.blockedView_led : State.Led κ ρ s (s.blockedView r part reg off n) :=
  State.led_of (by simp [State.blockedView])

@[simp ↓] theorem State.convertOut_led (s : State) (r : Requester) (part : Option Nat) (compat : Bool)
    (tag reg off n v : Nat) : State.Led κ ρ s (s.convertOut r part compat tag reg off n v).2 := by
  refine State.led_of ?_
  unfold State.convertOut
  split
  · simp
  · dsimp only
    split
    · simp
    · split
      · dsimp only
        simp only [State.countAll_led, State.writeMany_led, State.tagFigure_led, State.bump_led, State.writeStored_led]
        repeat refine .inl ?_
        refine State.leads.trans ?_ (State.foldl_leads (fun t b => ?_) _ _)
        · simp
        · split <;> simp
      · simp

@[simp ↓] theorem State.readStored_led : State.Led κ ρ s (s.readStored r part g off n).2 :=
  State.led_of (by simp [State.readStored])

@[simp ↓] theorem State.convertIn_led (compat : Bool) : State.Led κ ρ s (s.convertIn r part compat reg off n).2 := by
  refine State.led_of ?_
  unfold State.convertIn; split <;> simp

end

/-! ### Deadline admission -/

section
variable (s : State) (k : Nat)

@[simp ↓] theorem State.noteVerdict_led (st : Nat) (v : Verdict) : State.Led κ ρ s (s.noteVerdict k st v) :=
  State.led_of (by simp [State.noteVerdict])

@[simp ↓] theorem State.rejudge_led : State.Led κ ρ s (s.rejudge k) := State.led_of (by simp [State.rejudge])
@[simp ↓] theorem State.readmit_led : State.Led κ ρ s s.readmit := State.led_of (by simp [State.readmit])

end

/-! ### The halyard -/

section
variable (s : State) (m k a e n desc : Nat) (r : Requester) (part : Option Nat) (compat : Bool)

@[simp ↓] theorem startOp_leadsTo (m e op : Nat) (s : State) (k : Mast → Posted → Result)
    (hk : ∀ x p, s.leadsTo κ (k x p)) : s.leadsTo κ (startOp m e op s k) := by
  unfold startOp; dsimp only; split <;> simp [hk]

@[simp ↓] theorem State.began_led (r : Running) : State.Led κ ρ s (s.began m e r) :=
  State.led_of (by simp [State.began])

@[simp ↓] theorem State.completeRun_led (r : Running) : State.Led κ ρ s (s.completeRun m e r) :=
  State.led_of (by simp [State.completeRun])

@[simp ↓] theorem State.readRow_led : State.Led κ ρ s (s.readRow r part compat a n).2 := by
  refine State.led_of ?_
  unfold State.readRow; split <;> simp

@[simp ↓] theorem State.writeRow_led (v : Nat) : State.Led κ ρ s (s.writeRow r part compat desc a n v).2 := by
  refine State.led_of ?_
  unfold State.writeRow; split <;> simp

@[simp ↓] theorem State.addRow_led (xs : List Fp) : State.Led κ ρ s (s.addRow r part desc a xs).2 := by
  refine State.led_of ?_
  unfold State.addRow; split <;> simp

@[simp ↓] theorem execCopyIn_leadsTo : s.leadsTo κ (execCopyIn m k s) := by simp [execCopyIn]
@[simp ↓] theorem execCopyOut_leadsTo : s.leadsTo κ (execCopyOut m k s) := by simp [execCopyOut]
@[simp ↓] theorem execMesh_leadsTo : s.leadsTo κ (execMesh m k s) := by simp [execMesh]
@[simp ↓] theorem execLocalCopy_leadsTo : s.leadsTo κ (execLocalCopy m k s) := by simp [execLocalCopy]
@[simp ↓] theorem execAddOut_leadsTo : s.leadsTo κ (execAddOut m k s) := by simp [execAddOut]

@[simp ↓] theorem execHalyardComplete_leadsTo : s.leadsTo κ (execHalyardComplete m k s) := by
  unfold execHalyardComplete; split <;> simp

@[simp ↓] theorem execMeshArrival_leadsTo : s.leadsTo κ (execMeshArrival m k s) := by
  unfold execMeshArrival; split <;> simp

@[simp ↓] theorem execMeshAck_leadsTo : s.leadsTo κ (execMeshAck m k s) := by unfold execMeshAck; split <;> simp

end

/-! ### The mainsail -/

@[simp ↓] theorem startSail_leadsTo (m op : Nat) (s : State) (check : Sail → Mast → Option (Nat × Nat))
    (rowsOf : Sail → List Nat) (body : Sail → Mast → Mast) (int : Sail → Mast → Bool) (steps : Sail → Nat) :
    s.leadsTo κ (startSail m op s check rowsOf body int steps) := by
  unfold startSail
  refine startOp_leadsTo _ _ _ _ _ fun x p => ?_
  dsimp only; (repeat' split) <;> simp

@[simp ↓] theorem execMainsailComplete_leadsTo (m : Nat) (s : State) : s.leadsTo κ (execMainsailComplete m s) :=
  by unfold execMainsailComplete; (repeat' split) <;> simp

/-! ### The jib -/

@[simp ↓] theorem startJib_leadsTo (m op : Nat) (s : State) : s.leadsTo κ (startJib m op s) := by
  unfold startJib
  refine startOp_leadsTo _ _ _ _ _ fun x p => ?_
  dsimp only; (repeat' split) <;> simp

@[simp ↓] theorem execJibComplete_leadsTo (m : Nat) (s : State) : s.leadsTo κ (execJibComplete m s) := by
  unfold execJibComplete; dsimp only; split <;> simp

/-! ### The control core -/

section
variable (s : State) (t m d : Nat) (th : Thread) (v : Word64)

@[simp ↓] theorem issue_leadsTo (m t op : Nat) (s : State) (k : Mast → Thread → Operands → Result)
    (hk : ∀ x th o, s.leadsTo κ (k x th o)) : s.leadsTo κ (issue m t op s k) := by
  unfold issue; simp [hk]

@[simp ↓] theorem retire_led (x : Mast) : State.Led κ ρ s (retire m t s x th) := (retire_frame m t s x th).led

@[simp ↓] theorem alu_leadsTo (op : Nat) (f : Word64 → Word64 → Word64) : s.leadsTo κ (alu m t op f s) := by
  simp [alu]

@[simp ↓] theorem execNop_leadsTo : s.leadsTo κ (execNop m t s) := by simp [execNop]

@[simp ↓] theorem padOperand_leadsTo (m : Nat) (s : State) (a : Word64) (k : Nat → Result)
    (hk : ∀ n, s.leadsTo κ (k n)) : s.leadsTo κ (padOperand m s a k) := by
  unfold padOperand; simp [hk]

@[simp ↓] theorem execLds_leadsTo : s.leadsTo κ (execLds m t s) := by simp [execLds]
@[simp ↓] theorem execSts_leadsTo : s.leadsTo κ (execSts m t s) := by simp [execSts]

@[simp ↓] theorem awaitResult_led (addr : Option Nat) : State.Led κ ρ s (awaitResult m t s th d v addr) :=
  State.led_of (by simp [awaitResult])

@[simp ↓] theorem execLdm_leadsTo : s.leadsTo κ (execLdm m t s) := by simp [execLdm]
@[simp ↓] theorem execStm_leadsTo : s.leadsTo κ (execStm m t s) := by simp [execStm]

@[simp ↓] theorem atomicOp_leadsTo (m t op : Nat) (f : Word64 → Word64 → Word64) (s : State) :
    s.leadsTo κ (atomicOp m t op f s) := by
  unfold atomicOp
  refine issue_leadsTo _ _ _ _ _ fun _ th o => ?_
  dsimp only; split <;> next h => simp [State.leads_of_eq h]

@[simp ↓] theorem execBr_leadsTo : s.leadsTo κ (execBr m t s) := by simp [execBr]
@[simp ↓] theorem execBz_leadsTo : s.leadsTo κ (execBz m t s) := by simp [execBz]
@[simp ↓] theorem execBnz_leadsTo : s.leadsTo κ (execBnz m t s) := by simp [execBnz]
@[simp ↓] theorem execJal_leadsTo : s.leadsTo κ (execJal m t s) := by simp [execJal]

@[simp ↓] theorem execPost_leadsTo (m t : Nat) (s : State) : s.leadsTo κ (execPost m t s) := by
  unfold execPost
  refine issue_leadsTo _ _ _ _ _ fun x th o => padOperand_leadsTo _ _ _ _ fun a => ?_
  dsimp only; (repeat' split) <;> simp

@[simp ↓] theorem execPostSlotFree_leadsTo : s.leadsTo κ (execPostSlotFree m t s) := by
  unfold execPostSlotFree; dsimp only; split <;> simp

@[simp ↓] theorem execWaitc_leadsTo : s.leadsTo κ (execWaitc m t s) := by simp [execWaitc]

@[simp ↓] theorem State.watchWord_led (a : Nat) (expect : Word64) (ticks : Nat) :
    State.Led κ ρ s (s.watchWord m t a expect ticks d th) := State.led_of (by simp [State.watchWord])

@[simp ↓] theorem execWatch_leadsTo : s.leadsTo κ (execWatch m t s) := by simp [execWatch]

@[simp ↓] theorem execWatchEntryFree_leadsTo : s.leadsTo κ (execWatchEntryFree m t s) := by
  unfold execWatchEntryFree; dsimp only; split <;> simp

@[simp ↓] theorem State.endWatch_led : State.Led κ ρ s (s.endWatch m t d v) := State.led_of (by simp [State.endWatch])

@[simp ↓] theorem execWatchChange_leadsTo : s.leadsTo κ (execWatchChange m t s) := by
  unfold execWatchChange; dsimp only; split <;> simp

@[simp ↓] theorem execWatchTimeout_leadsTo : s.leadsTo κ (execWatchTimeout m t s) := by
  unfold execWatchTimeout; split <;> simp

@[simp ↓] theorem execFetchw_leadsTo (m t : Nat) (s : State) : s.leadsTo κ (execFetchw m t s) := by
  unfold execFetchw
  refine issue_leadsTo _ _ _ _ _ fun x th o => ?_
  dsimp only
  split
  · simp
  · split <;> next h => simp [State.leads_of_eq h]

@[simp ↓] theorem execMemoryResultReturn_leadsTo : s.leadsTo κ (execMemoryResultReturn m t s) := by
  unfold execMemoryResultReturn; dsimp only; split <;> simp

@[simp ↓] theorem execCinc_leadsTo : s.leadsTo κ (execCinc m t s) := by simp [execCinc]
@[simp ↓] theorem execCclr_leadsTo : s.leadsTo κ (execCclr m t s) := by simp [execCclr]
@[simp ↓] theorem execStart_leadsTo : s.leadsTo κ (execStart m t s) := by simp [execStart]
@[simp ↓] theorem execHalt_leadsTo : s.leadsTo κ (execHalt m t s) := by simp [execHalt]

@[simp ↓] theorem execRdsys_leadsTo (m t : Nat) (s : State) : s.leadsTo κ (execRdsys m t s) := by
  unfold execRdsys
  refine issue_leadsTo _ _ _ _ _ fun x th o => ?_
  dsimp only; (repeat' split) <;> simp

@[simp ↓] theorem execMastThreadFault_leadsTo : s.leadsTo κ (execMastThreadFault m t s) := by
  simp [execMastThreadFault]

end

/-! ### Launch and mast power -/

section
variable (s : State) (m : Nat)

@[simp ↓] theorem State.settleTree_led (d : Nat) : State.Led κ ρ s (s.settleTree d) := (s.settleTree_frame d).led

@[simp ↓] theorem State.postHeld_led (part code num : Nat) : State.Led κ ρ s (s.postHeld part code num) :=
  State.led_of (by simp [State.postHeld])

@[simp ↓] theorem State.grantMast_led : State.Led κ ρ s (s.grantMast m) := (s.grantMast_frame m).led

@[simp ↓] theorem State.requestMast_led (v : Nat) : State.Led κ ρ s (s.requestMast m v) := by
  refine State.led_of ?_
  unfold State.requestMast; split <;> simp

@[simp ↓] theorem State.launchMast_led : State.Led κ ρ s (s.launchMast m) := State.led_of (by simp [State.launchMast])

@[simp ↓] theorem execLaunchCopyDone_leadsTo : s.leadsTo κ (execLaunchCopyDone m s) := by
  unfold execLaunchCopyDone; dsimp only; split <;> simp

@[simp ↓] theorem execShutterEntry_leadsTo : s.leadsTo κ (execShutterEntry m s) := by simp [execShutterEntry]
@[simp ↓] theorem execShutteredWake_leadsTo : s.leadsTo κ (execShutteredWake m s) := by simp [execShutteredWake]

@[simp ↓] theorem execMastPowerDown_leadsTo : s.leadsTo κ (execMastPowerDown m s) := by
  unfold execMastPowerDown; dsimp only; split <;> simp

@[simp ↓] theorem execWickWakeDone_leadsTo : s.leadsTo κ (execWickWakeDone m s) := by simp [execWickWakeDone]

@[simp ↓] theorem execDarkWakeDone_leadsTo : s.leadsTo κ (execDarkWakeDone m s) := by
  unfold execDarkWakeDone; dsimp only; split <;> simp

@[simp ↓] theorem execGrantRequest_leadsTo : s.leadsTo [] (execGrantRequest m s) := by simp [execGrantRequest]

end

/-! ### The trim unit -/

section
variable (s : State) (p e d step who cause : Nat) (x : Trim) (f : TrimFactors) (interrupted poison : Bool)

@[simp ↓] theorem State.setTrim_led : State.Led κ ρ s (s.setTrim p e x) := State.led_of (by simp [State.setTrim])

@[simp ↓] theorem State.countTrim_led (e : TrimElem) : State.Led κ ρ s (s.countTrim d e) :=
  State.led_of (by simp [State.countTrim])

@[simp ↓] theorem State.trimFetch_led (spans : List (Nat × Nat) × List (Nat × Nat)) :
    State.Led κ ρ s (s.trimFetch who spans) := State.led_of (by simp [State.trimFetch])

@[simp ↓] theorem State.trimOne_led (pl : TrimPlace) (keep : Nat) : State.Led κ ρ s (s.trimOne x f pl keep).2 :=
  State.led_of (by simp [State.trimOne])

@[simp ↓] theorem State.trimSpan_led (slotAddr first n g j0 : Nat) :
    State.Led κ ρ s (s.trimSpan who x f d slotAddr first n g j0 interrupted) := State.led_of (by simp [State.trimSpan])

@[simp ↓] theorem State.trimRun_led : State.Led κ ρ s (s.trimRun p e x interrupted) :=
  State.led_of (by simp [State.trimRun])

@[simp ↓] theorem State.dropTrim_led : State.Led κ ρ s (s.dropTrim p e) := State.led_of (by simp [State.dropTrim])

@[simp ↓] theorem State.postRefused_led (entry : Nat) : State.Led κ ρ s (s.postRefused d p entry step cause) :=
  State.led_of (by simp [State.postRefused])

@[simp ↓] theorem State.refuseTrim_led : State.Led κ ρ s (s.refuseTrim p e cause) :=
  State.led_of (by simp [State.refuseTrim])

@[simp ↓] theorem State.trimSkew_led (ws : List Nat) : State.Led κ ρ s (s.trimSkew p e x ws) :=
  State.led_of (by simp [State.trimSkew])

@[simp ↓] theorem State.startChecking_led : State.Led κ ρ s (s.startChecking p e) :=
  State.led_of (by simp [State.startChecking])

@[simp ↓] theorem State.trimChunk_led (fmt k : Nat) : State.Led κ ρ s (s.trimChunk p e step fmt k poison) := by
  refine State.led_of ?_
  unfold State.trimChunk; dsimp only; split <;> simp

@[simp ↓] theorem State.trimComplete_led (landed : Nat) (sealing : Bool) :
    State.Led κ ρ s (s.trimComplete p e landed sealing) := State.led_of (by simp [State.trimComplete])

@[simp ↓] theorem State.trimSeal_led : State.Led κ ρ s (s.trimSeal p step poison) :=
  State.led_of (by simp [State.trimSeal])

@[simp ↓] theorem State.trimAbort_led : State.Led κ ρ s (s.trimAbort p step) := by
  refine State.led_of ?_
  unfold State.trimAbort; dsimp only; split <;> simp

@[simp ↓] theorem State.refuseRunning_led (es : List Nat) : State.Led κ ρ s (s.refuseRunning p step es) := by
  refine State.led_of ?_
  unfold State.refuseRunning; split <;> simp

@[simp ↓] theorem State.trimReset_led (hit : Nat → Nat → Trim → Bool) : State.Led κ ρ s (s.trimReset hit) :=
  State.led_of (by simp [State.trimReset])

@[simp ↓] theorem State.trimResetPart_led : State.Led κ ρ s (s.trimResetPart p) :=
  State.led_of (by simp [State.trimResetPart])

@[simp ↓] theorem State.trimResetDie_led : State.Led κ ρ s (s.trimResetDie d) :=
  State.led_of (by simp [State.trimResetDie])

@[simp ↓] theorem execTrimCheck_leadsTo : s.leadsTo κ (execTrimCheck d s) := by
  unfold execTrimCheck; dsimp only; (repeat' split) <;> simp

@[simp ↓] theorem execTrimHeldRecheck_leadsTo : s.leadsTo κ (execTrimHeldRecheck p e s) := by
  simp [execTrimHeldRecheck]

@[simp ↓] theorem State.trimFinish_led : State.Led κ ρ s (s.trimFinish p e) := State.led_of (by simp [State.trimFinish])

end

/-! ### Collective plans -/

section
variable (s : State) (k i d p n port j src dst cause half index : Nat) (h : PlanHead) (x : Phase) (c : Chunk)
  (ms dies : List Nat) (backup : Bool) (q : HeldChunk) (m : BackupMsg)

@[simp ↓] theorem State.setPlan_led (x : Plan) : State.Led κ ρ s (s.setPlan k x) :=
  State.led_of (by simp [State.setPlan])

@[simp ↓] theorem State.setPoison_led : State.Led κ ρ s (s.setPoison p cause d) :=
  State.led_of (by simp [State.setPoison])

@[simp ↓] theorem State.clearPoison_led : State.Led κ ρ s (s.clearPoison p) :=
  State.led_of (by simp [State.clearPoison])

@[simp ↓] theorem State.sendChunk_led (resend : Bool) : State.Led κ ρ s (s.sendChunk k h dst resend c) :=
  State.led_of (by simp [State.sendChunk])

@[simp ↓] theorem State.engineRead_led (who a : Nat) : State.Led κ ρ s (s.engineRead who a n).2 :=
  State.led_of (by simp [State.engineRead])

@[simp ↓] theorem State.release_led (ws : List Written) : State.Led κ ρ s (s.release k d h x ws) :=
  State.led_of (by simp [State.release])

@[simp ↓] theorem State.takeMemory_led : State.Led κ ρ s (s.takeMemory k d h x) :=
  State.led_of (by simp [State.takeMemory])

@[simp ↓] theorem State.drainPane_led : State.Led κ ρ s (s.drainPane k i d h x) :=
  State.led_of (by simp [State.drainPane])

@[simp ↓] theorem State.startPane_led : State.Led κ ρ s (s.startPane k i d h x) :=
  State.led_of (by simp [State.startPane])

@[simp ↓] theorem State.takeReferences_led (rec slot : Nat) (up : Bool) :
    State.Led κ ρ s (s.takeReferences k rec slot n up) := State.led_of (by simp [State.takeReferences])

@[simp ↓] theorem State.takeShard_led : State.Led κ ρ s (s.takeShard k i x n) :=
  State.led_of (by simp [State.takeShard])

@[simp ↓] theorem State.land_led (res off real v : Nat) : State.Led κ ρ s (s.land k h x res d off real v c) :=
  State.led_of (by simp [State.land])

@[simp ↓] theorem State.useLocal_led : State.Led κ ρ s (s.useLocal k h x d i half index backup) :=
  State.led_of (by simp [State.useLocal])

@[simp ↓] theorem State.compareCopies_led (cidx : Nat) (mine theirs : Chunk) :
    State.Led κ ρ s (s.compareCopies k i port h cidx mine theirs) := State.led_of (by simp [State.compareCopies])

@[simp ↓] theorem State.startRing_led (s : State) (k i : Nat) (h : PlanHead) (x : Phase) (ms : List Nat) (j d : Nat) :
    State.Led κ ρ s (s.startRing k i h x ms j d) := by
  refine State.led_of ?_
  unfold State.startRing
  refine State.foldl_leads (fun t half => ?_) _ _
  dsimp only
  split
  · simp
  · split
    · simp
    · simp
    · simp
    · simp
    · refine State.forRange_leads (fun n t => ?_) _ _
      split
      · simp
      · split <;> simp

@[simp ↓] theorem State.sendAll_led : State.Led κ ρ s (s.sendAll k i h x ms j) := State.led_of (by simp [State.sendAll])

@[simp ↓] theorem State.compareEarly_led (s : State) (k i d : Nat) (h : PlanHead) (x : Phase) :
    State.Led κ ρ s (s.compareEarly k i d h x) := by
  refine State.led_of ?_
  unfold State.compareEarly
  refine State.foldl_leads (fun t e => State.foldl_leads (fun u b => ?_) _ _) _ _
  dsimp only
  split
  · split <;> simp
  · simp

@[simp ↓] theorem State.startDie_led : State.Led κ ρ s (s.startDie k i h x ms j d) := by
  refine State.led_of ?_
  unfold State.startDie; split <;> simp

@[simp ↓] theorem State.checkVersion_led : State.Led κ ρ s (s.checkVersion k i d h x c) :=
  State.led_of (by simp [State.checkVersion])

@[simp ↓] theorem State.holdChunk_led : State.Led κ ρ s (s.holdChunk q n) := State.led_of (by simp [State.holdChunk])

@[simp] theorem State.takeInside_leadsIn (s : State) (k i : Nat) (h : PlanHead) (x : Phase) (dies : List Nat)
    (c : Chunk) : s.leadsIn κ (s.takeInside k i h x dies c) := by
  unfold State.takeInside; split <;> simp

@[simp ↓] theorem State.sendInside_led (s : State) (k i : Nat) (h : PlanHead) (x : Phase) (dies : List Nat)
    (b half : Nat) (dsts : List Nat) : State.Led κ ρ s (s.sendInside k i h x dies b half dsts) := by
  refine State.led_of ?_
  unfold State.sendInside
  dsimp only
  refine State.leads.trans ?_ (State.forRange_leads (fun n t => State.foldl_leads (fun u d => ?_) _ _) _ _)
  · simp
  · split
    · next h => exact State.takeInside_leadsIn _ _ _ _ _ _ _ _ h
    · simp

@[simp ↓] theorem State.allInside_led : State.Led κ ρ s (s.allInside k h x dies) :=
  State.led_of (by simp [State.allInside])

@[simp ↓] theorem State.runInside_led : State.Led κ ρ s (s.runInside k i h x dies) :=
  State.led_of (by simp [State.runInside])

@[simp ↓] theorem State.startInside_led : State.Led κ ρ s (s.startInside k i h x) :=
  State.led_of (by simp [State.startInside])

@[simp ↓] theorem State.readBackup_led : State.Led κ ρ s (s.readBackup k i h x) :=
  State.led_of (by simp [State.readBackup])

@[simp ↓] theorem State.sendCopies_led (s : State) (k i : Nat) (h : PlanHead) (x : Phase) (e : BackupEntry)
    (dies : List Nat) : State.Led κ ρ s (s.sendCopies k i h x e dies) := by
  refine State.led_of ?_
  unfold State.sendCopies
  refine State.foldl_leads (fun t d => State.foldl_leads (fun t half => ?_) _ _) _ _
  refine State.forRange_leads (fun b t => State.forRange_leads (fun n t => ?_) _ _) _ _
  split <;> simp

@[simp ↓] theorem State.sendBackup_led (e : BackupEntry) : State.Led κ ρ s (s.sendBackup k i h x e) :=
  State.led_of (by simp [State.sendBackup])

@[simp ↓] theorem State.discardChunk_led (part : Nat) : State.Led κ ρ s (s.discardChunk port src part cause) :=
  State.led_of (by simp [State.discardChunk])

@[simp ↓] theorem State.payloadOf_led : State.Led κ ρ s (s.payloadOf c n).2 := State.led_of (by simp [State.payloadOf])

@[simp ↓] theorem State.takeGather_led : State.Led κ ρ s (s.takeGather k i port h x ms j c) :=
  State.led_of (by simp [State.takeGather])

@[simp ↓] theorem State.takeBlock_led : State.Led κ ρ s (s.takeBlock k x h c) :=
  State.led_of (by simp [State.takeBlock])

@[simp ↓] theorem State.passSum_led (die : Nat) (poison lost : Bool) (bytes : Octets) :
    State.Led κ ρ s (s.passSum k i h x dst j half die index poison lost bytes) := by
  refine State.led_of ?_
  unfold State.passSum; dsimp only; (repeat' split) <;> simp

@[simp ↓] theorem State.takeSum_led (own : Nat) (ownBad : Bool) :
    State.Led κ ρ s (s.takeSum k i h x ms j c own ownBad backup) := State.led_of (by simp [State.takeSum])

@[simp ↓] theorem State.takeContribution_led (s : State) (k i port : Nat) (h : PlanHead) (x : Phase) (ms : List Nat)
    (j : Nat) (c : Chunk) : State.Led κ ρ s (s.takeContribution k i port h x ms j c) := by
  refine State.led_of ?_
  unfold State.takeContribution
  dsimp only
  refine State.ite_leads (State.leads.trans ?_ (State.foldl_leads (fun t b => State.ite_leads ?_ ?_) _ _)) (by simp)
  · simp
  · split <;> simp
  · simp

@[simp ↓] theorem State.notePoison_led : State.Led κ ρ s (s.notePoison port h c) :=
  State.led_of (by simp [State.notePoison])

@[simp] theorem State.processChunk_leadsIn (s : State) (k i port : Nat) (h : PlanHead) (x : Phase) (ms : List Nat)
    (j : Nat) (c : Chunk) : s.leadsIn κ (s.processChunk k i port h x ms j c) := by
  unfold State.processChunk; dsimp only; (repeat' split) <;> simp

@[simp] theorem State.tryChunk_leadsIn (s : State) (q : HeldChunk) : s.leadsIn κ (s.tryChunk q) := by
  unfold State.tryChunk; dsimp only; (repeat' split) <;> simp

@[simp ↓] theorem State.freeChunk_led : State.Led κ ρ s (s.freeChunk q) := by
  refine State.led_of ?_
  unfold State.freeChunk; dsimp only; split <;> simp

@[simp ↓] theorem State.arrive_led (s : State) (q : HeldChunk) : State.Led κ ρ s (s.arrive q) := by
  refine State.led_of ?_
  unfold State.arrive
  split
  · next h => exact (s.tryChunk_leadsIn q _ h).trans (by simp)
  · simp

@[simp ↓] theorem State.takeHeld_led (s : State) : State.Led κ ρ s s.takeHeld := by
  refine State.led_of ?_
  unfold State.takeHeld
  refine State.foldl_leads (fun t e => ?_) _ _
  split
  · next h => exact State.leads.trans (by simp) ((State.tryChunk_leadsIn _ _ _ h).trans (by simp))
  · simp

@[simp ↓] theorem State.armAt_led : State.Led κ ρ s (s.armAt k i) := State.led_of (by simp [State.armAt])
@[simp ↓] theorem State.arm_led : State.Led κ ρ s (s.arm k) := State.led_of (by simp [State.arm])
@[simp ↓] theorem State.disarm_led : State.Led κ ρ s (s.disarm k) := State.led_of (by simp [State.disarm])
@[simp ↓] theorem State.wakeLit_led : State.Led κ ρ s (s.wakeLit h x) := State.led_of (by simp [State.wakeLit])

@[simp ↓] theorem State.startSources_led : State.Led κ ρ s (s.startSources k i h x) := by
  refine State.led_of ?_
  unfold State.startSources; dsimp only; (repeat' split) <;> simp

@[simp ↓] theorem execPhaseTrigger_leadsTo : s.leadsTo κ (execPhaseTrigger k s) := by simp [execPhaseTrigger]
@[simp ↓] theorem State.resumeShards_led : State.Led κ ρ s s.resumeShards := State.led_of (by simp [State.resumeShards])

@[simp ↓] theorem execHeldDrainStart_leadsTo (pane : Nat) : s.leadsTo κ (execHeldDrainStart d p pane s) := by
  unfold execHeldDrainStart; dsimp only; (repeat' split) <;> simp

@[simp ↓] theorem State.watchSilent_led : State.Led κ ρ s (s.watchSilent k h x) := by
  refine State.led_of ?_
  unfold State.watchSilent
  dsimp only
  split
  · simp
  · split <;> simp

@[simp ↓] theorem State.sendBackupMsg_led (kind id phase step rank : Nat) :
    State.Led κ ρ s (s.sendBackupMsg kind dst id phase step rank) := State.led_of (by simp [State.sendBackupMsg])

@[simp ↓] theorem State.phaseEnds_led : State.Led κ ρ s (s.phaseEnds k i h x) :=
  State.led_of (by simp [State.phaseEnds])

@[simp ↓] theorem State.sealStep_led : State.Led κ ρ s (s.sealStep k h) := State.led_of (by simp [State.sealStep])
@[simp ↓] theorem execPhaseComplete_leadsTo : s.leadsTo κ (execPhaseComplete k s) := by simp [execPhaseComplete]

@[simp ↓] theorem execDeadlineMissed_leadsTo : s.leadsTo κ (execDeadlineMissed k s) := by
  simp [execDeadlineMissed]

@[simp ↓] theorem State.postAborted_led : State.Led κ ρ s (s.postAborted k) :=
  State.led_of (by simp [State.postAborted])

@[simp ↓] theorem State.dropUnsent_led : State.Led κ ρ s (s.dropUnsent k) := State.led_of (by simp [State.dropUnsent])
@[simp ↓] theorem State.abortPlan_led : State.Led κ ρ s (s.abortPlan k) := State.led_of (by simp [State.abortPlan])
@[simp ↓] theorem execChunk_leadsTo : s.leadsTo κ (execChunk p src c s) := by simp [execChunk]

@[simp ↓] theorem execChunkHoldExpiry_leadsTo : s.leadsTo κ (execChunkHoldExpiry n s) := by
  unfold execChunkHoldExpiry; split <;> simp

@[simp ↓] theorem execBackupRequest_leadsTo : s.leadsTo κ (execBackupRequest p src m s) := by
  unfold execBackupRequest; (repeat' split) <;> simp

@[simp ↓] theorem execBackupRelease_leadsTo : s.leadsTo κ (execBackupRelease p src m s) := by
  unfold execBackupRelease; (repeat' split) <;> simp

@[simp ↓] theorem execTrimUpdateComplete_leadsTo (e : Nat) : s.leadsTo κ (execTrimUpdateComplete p e s) := by
  simp [execTrimUpdateComplete]

@[simp ↓] theorem State.loseChunk_led (mark : Nat) : State.Led κ ρ s (s.loseChunk port mark) := by
  refine State.led_of ?_
  unfold State.loseChunk; split <;> simp

end

/-! ### The lanes of external ports -/

section
variable (s : State) (p kind st : Nat)

@[simp ↓] theorem State.postPort_led (code : Nat) (detail : List (Nat × Nat)) :
    State.Led κ ρ s (s.postPort code p detail) := State.led_of (by simp [State.postPort])

@[simp ↓] theorem State.setLink_led (l : PortLink) : State.Led κ ρ s (s.setLink p l) :=
  State.led_of (by simp [State.setLink])

@[simp ↓] theorem State.climb_led (level : Nat) : State.Led κ ρ s (s.climb level) :=
  State.led_of (by simp [State.climb])

@[simp ↓] theorem State.postCompound_led (num : Nat) (p : FaultPair) : State.Led κ ρ s (s.postCompound kind num p) :=
  State.led_of (by simp [State.postCompound])

@[simp ↓] theorem State.failRequest_led (tid src : Nat) : State.Led κ ρ s (s.failRequest kind tid src) :=
  State.led_of (by simp [State.failRequest])

@[simp ↓] theorem State.rerouteQueue_led : State.Led κ ρ s (s.rerouteQueue p) :=
  State.led_of (by simp [State.rerouteQueue])

@[simp ↓] theorem State.cutMessage_led (k lock : Nat) : State.Led κ ρ s (s.cutMessage p k lock) :=
  State.led_of (by simp [State.cutMessage])

@[simp ↓] theorem State.loseHeld_led : State.Led κ ρ s (s.loseHeld p) := State.led_of (by simp [State.loseHeld])

@[simp ↓] theorem State.releaseLocks_led : State.Led κ ρ s (s.releaseLocks p) :=
  State.led_of (by simp [State.releaseLocks])

@[simp ↓] theorem State.portFalls_led (clear : Bool) : State.Led κ ρ s (s.portFalls p st clear) :=
  State.led_of (by simp [State.portFalls])

@[simp ↓] theorem State.dropPort_led : State.Led κ ρ s (s.dropPort p st) := State.led_of (by simp [State.dropPort])

@[simp ↓] theorem State.portFails_led (cause : Nat) : State.Led κ ρ s (s.portFails p cause) :=
  State.led_of (by simp [State.portFails])

@[simp ↓] theorem State.retrain_led : State.Led κ ρ s (s.retrain p) := State.led_of (by simp [State.retrain])
@[simp ↓] theorem State.dropLanes_led : State.Led κ ρ s (s.dropLanes p) := State.led_of (by simp [State.dropLanes])
@[simp ↓] theorem State.lanesLost_led : State.Led κ ρ s (s.lanesLost p) := State.led_of (by simp [State.lanesLost])

@[simp ↓] theorem State.loseDieLanes_led (d : Nat) : State.Led κ ρ s (s.loseDieLanes d) :=
  State.led_of (by simp [State.loseDieLanes])

end

/-! ### Fences, stops and the effects of resets -/

section
variable (s : State) (d cause p m v l : Nat)

@[simp ↓] theorem State.darken_led : State.Led κ ρ s (s.darken m) := (s.darken_frame m).led

@[simp ↓] theorem State.fenceMast_led : State.Led κ ρ s (s.fenceMast m cause) :=
  State.led_of (by simp [State.fenceMast])

@[simp ↓] theorem State.askDark_led : State.Led κ ρ s (s.askDark m) := State.led_of (by simp [State.askDark])

@[simp ↓] theorem State.restoreMasts_led (ms : List Nat) : State.Led κ ρ s (s.restoreMasts ms) :=
  State.led_of (by simp [State.restoreMasts])

@[simp ↓] theorem State.goPart_led (st : PartState) : State.Led κ ρ s (s.goPart p st) :=
  State.led_of (by simp [State.goPart])

@[simp ↓] theorem State.zeroPanes_led : State.Led κ ρ s (s.zeroPanes p d) := State.led_of (by simp [State.zeroPanes])
@[simp ↓] theorem State.abortPlans_led : State.Led κ ρ s (s.abortPlans p) := State.led_of (by simp [State.abortPlans])

@[simp ↓] theorem State.postReset_led (code kind scope : Nat) (count : List (Nat × Nat)) :
    State.Led κ ρ s (s.postReset code kind scope count) := State.led_of (by simp [State.postReset])

@[simp ↓] theorem State.beginReset_led (s : State) (kind scope before : Nat) (act : State → State)
    (hact : ∀ t : State, t.leads κ (act t)) : State.Led κ ρ s (s.beginReset kind scope before act) := by
  have hled (ρ t : State) : State.Led κ ρ t (act t) := State.led_of (hact t)
  refine State.led_of ?_
  unfold State.beginReset; simp [hled]

@[simp ↓] theorem State.reportReset_led (r : Reset) (counted : Bool) : State.Led κ ρ s (s.reportReset r counted) :=
  State.led_of (by simp [State.reportReset])

@[simp ↓] theorem State.clearPart_led : State.Led κ ρ s (s.clearPart p) := State.led_of (by simp [State.clearPart])

@[simp ↓] theorem State.stopPart_led : State.Led κ ρ s (s.stopPart p cause) := by
  refine State.led_of ?_
  unfold State.stopPart; split <;> simp

@[simp ↓] theorem State.goDomain_led : State.Led κ ρ s (s.goDomain d v) := State.led_of (by simp [State.goDomain])
@[simp ↓] theorem State.zeroDie_led : State.Led κ ρ s (s.zeroDie d) := State.led_of (by simp [State.zeroDie])

@[simp ↓] theorem State.flipDomain_led : State.Led κ ρ s (s.flipDomain d v) := by
  refine State.led_of ?_
  unfold State.flipDomain; split <;> simp

@[simp ↓] theorem State.failAccess_led (who : Nat) : State.Led κ ρ s (s.failAccess who) := by
  refine State.led_of ?_
  unfold State.failAccess; dsimp only; (repeat' split) <;> simp

@[simp ↓] theorem State.loseRat_led (b : RatBody) : State.Led κ ρ s (s.loseRat d b) := by
  refine State.led_of ?_
  unfold State.loseRat; split <;> simp

@[simp ↓] theorem State.loseFlow_led (side : Nat) : State.Led κ ρ s (s.loseFlow d side) :=
  State.led_of (by simp [State.loseFlow])

@[simp ↓] theorem State.linkFails_led : State.Led κ ρ s (s.linkFails l cause) :=
  State.led_of (by simp [State.linkFails])

@[simp ↓] theorem State.poisonLines_led : State.Led κ ρ s (s.poisonLines d) :=
  State.led_of (by simp [State.poisonLines])

@[simp ↓] theorem State.cutDomain_led : State.Led κ ρ s (s.cutDomain d) := State.led_of (by simp [State.cutDomain])
@[simp ↓] theorem State.fenceDie_led : State.Led κ ρ s (s.fenceDie d cause) := State.led_of (by simp [State.fenceDie])

@[simp ↓] theorem State.fenceUntil_led (s : State) (fuel : Nat) : State.Led κ ρ s (s.fenceUntil fuel) := by
  induction fuel generalizing ρ s with
  | zero => exact State.led_of s.leads_refl
  | succ n ih => refine State.led_of ?_; unfold State.fenceUntil; (repeat' split) <;> simp [ih]

@[simp ↓] theorem State.linkLost_led : State.Led κ ρ s (s.linkLost l cause) := State.led_of (by simp [State.linkLost])
@[simp ↓] theorem State.loseFabric_led : State.Led [] ρ s s.loseFabric := State.led_of (by simp [State.loseFabric])
@[simp ↓] theorem State.darkFabric_led : State.Led κ ρ s s.darkFabric := State.led_of (by simp [State.darkFabric])
@[simp ↓] theorem State.shutdown_led : State.Led [] ρ s s.shutdown := State.led_of (by simp [State.shutdown])

@[simp ↓] theorem State.resetPackage_led : State.Led [] ρ s s.resetPackage :=
  State.led_of (by simp [State.resetPackage])

end

/-! ### The vertical bond -/

section
variable (s : State) (m : Nat)

@[simp ↓] theorem execBondBeatReceive_leadsTo (upward : Bool) (beat : Option Nat) (flips : Nat) (sidebandBad : Bool) :
    s.leadsTo κ (execBondBeatReceive m upward beat flips sidebandBad s) := by
  simp [execBondBeatReceive, -Nat.reducePow]

@[simp ↓] theorem State.bondWindow_led : State.Led κ ρ s (s.bondWindow m) := State.led_of (by simp [State.bondWindow])

@[simp ↓] theorem execBondWindowEnd_leadsTo (d : Nat) : s.leadsTo κ (execBondWindowEnd d s) := by
  simp [execBondWindowEnd]

end

/-! ### Ratline directions and links -/

section
variable (s : State) (d side e kind n l : Nat) (lanes : List Nat) (contents : List (Nat × Nat))

@[simp ↓] theorem onDirection_leadsTo (d side : Nat) (s : State) (k : Nat → Result)
    (hk : ∀ e, s.leadsTo κ (k e)) : s.leadsTo κ (onDirection d side s k) := by
  unfold onDirection; (repeat' split) <;> simp [hk]

@[simp ↓] theorem State.ratSend_led (typ : Nat) (body : Octets) : State.Led κ ρ s (s.ratSend d side e typ kind body) :=
  State.led_of (by simp [State.ratSend])

@[simp ↓] theorem State.ratReturn_led : State.Led κ ρ s (s.ratReturn d side e kind contents) :=
  State.led_of (by simp [State.ratReturn])

@[simp ↓] theorem State.ratForward_led : State.Led κ ρ s (s.ratForward d side e kind contents) :=
  State.led_of (by simp [State.ratForward])

@[simp ↓] theorem State.ratAcked_led : State.Led κ ρ s (s.ratAcked d side) := State.led_of (by simp [State.ratAcked])

@[simp ↓] theorem State.ratCompare_led : State.Led κ ρ s (s.ratCompare d side n) :=
  State.led_of (by simp [State.ratCompare])

@[simp ↓] theorem State.ratDiscard_led : State.Led κ ρ s (s.ratDiscard d side e) :=
  State.led_of (by simp [State.ratDiscard])

@[simp ↓] theorem State.ratReceive_led (b : RatBody) (flips : Nat) :
    State.Led κ ρ s (s.ratReceive d side e n b flips) := State.led_of (by simp [State.ratReceive, -Nat.reducePow])

@[simp ↓] theorem execRatlineDataFlit_leadsTo (d side : Nat) (fresh : Option RatBody) (flips : Nat) (s : State) :
    s.leadsTo κ (execRatlineDataFlit d side fresh flips s) := by
  unfold execRatlineDataFlit
  refine onDirection_leadsTo _ _ _ _ fun e => ?_
  dsimp only; split <;> simp

@[simp ↓] theorem execRatlineNak_leadsTo (d side : Nat) (s : State) : s.leadsTo κ (execRatlineNak d side s) := by
  unfold execRatlineNak
  refine onDirection_leadsTo _ _ _ _ fun _ => ?_
  dsimp only; split <;> simp

@[simp ↓] theorem execRatlineCredit_leadsTo : s.leadsTo κ (execRatlineCredit d side s) := by
  simp [execRatlineCredit]

@[simp ↓] theorem execRatlineRetryTimeout_leadsTo : s.leadsTo κ (execRatlineRetryTimeout d side s) := by
  simp [execRatlineRetryTimeout]

@[simp ↓] theorem execRatlineIdle_leadsTo : s.leadsTo κ (execRatlineIdle d side s) := by simp [execRatlineIdle]

@[simp ↓] theorem State.ratMap_led (old : Nat) : State.Led κ ρ s (s.ratMap d side old) :=
  State.led_of (by simp [State.ratMap])

@[simp ↓] theorem State.ratFail_led : State.Led κ ρ s (s.ratFail d side) := State.led_of (by simp [State.ratFail])

@[simp ↓] theorem execRatlineElectricalDone_leadsTo (bad : Nat) :
    s.leadsTo κ (execRatlineElectricalDone d side bad s) := by simp [execRatlineElectricalDone]

@[simp ↓] theorem execRatlineWidth_leadsTo (word : WidthWord) : s.leadsTo κ (execRatlineWidth d side word s) := by
  simp [execRatlineWidth]

@[simp ↓] theorem State.settlePairs_led : State.Led κ ρ s (s.settlePairs d side) :=
  State.led_of (by simp [State.settlePairs])

@[simp ↓] theorem execRatlineMapExchangeDone_leadsTo (d side : Nat) (s : State) :
    s.leadsTo κ (execRatlineMapExchangeDone d side s) := by
  unfold execRatlineMapExchangeDone
  refine onDirection_leadsTo _ _ _ _ fun _ => ?_
  dsimp only; split <;> simp

@[simp ↓] theorem execRatlineMapTimeout_leadsTo : s.leadsTo κ (execRatlineMapTimeout d side s) := by
  simp [execRatlineMapTimeout]

@[simp ↓] theorem execRatlineTrainingFramesSeen_leadsTo : s.leadsTo κ (execRatlineTrainingFramesSeen d side s) :=
  by simp [execRatlineTrainingFramesSeen]

@[simp ↓] theorem State.ratDrop_led : State.Led κ ρ s (s.ratDrop d side lanes) := State.led_of (by simp [State.ratDrop])

@[simp ↓] theorem State.ratAsk_led : State.Led κ ρ s (s.ratAsk d side) := by
  refine State.led_of ?_
  unfold State.ratAsk; dsimp only; split <;> simp

@[simp ↓] theorem State.ratRetire_led : State.Led κ ρ s (s.ratRetire d side lanes) := by
  refine State.led_of ?_
  unfold State.ratRetire; dsimp only; (repeat' split) <;> simp

@[simp ↓] theorem State.ratCompound_led (code : Nat) : State.Led κ ρ s (s.ratCompound d side lanes code) :=
  State.led_of (by simp [State.ratCompound])

@[simp ↓] theorem execRatlineLaneWindowEnd_leadsTo : s.leadsTo κ (execRatlineLaneWindowEnd d side s) := by
  simp [execRatlineLaneWindowEnd]

@[simp ↓] theorem execRatlineControlResend_leadsTo : s.leadsTo κ (execRatlineControlResend d side s) := by
  simp [execRatlineControlResend]

@[simp ↓] theorem execRatlineRetire_leadsTo (d side : Nat) (s : State) : s.leadsTo κ (execRatlineRetire d side s) := by
  unfold execRatlineRetire
  refine onDirection_leadsTo _ _ _ _ fun _ => ?_
  dsimp only; split <;> simp

@[simp ↓] theorem execRatlineSwitch_leadsTo (d side : Nat) (spareLocks : Bool) (s : State) :
    s.leadsTo κ (execRatlineSwitch d side spareLocks s) := by
  unfold execRatlineSwitch
  refine onDirection_leadsTo _ _ _ _ fun e => ?_
  dsimp only; split <;> simp

@[simp ↓] theorem State.flipLink_led (v : Nat) : State.Led κ ρ s (s.flipLink l v) :=
  State.led_of (by simp [State.flipLink])

@[simp ↓] theorem execRatlineLinkOff_leadsTo : s.leadsTo κ (execRatlineLinkOff l s) := by
  simp [execRatlineLinkOff]

end

/-! ### Bring-up, retry and keys of the external ports -/

section
variable (s : State) (p n : Nat) (f : StayFlit) (word : WidthWord)

@[simp ↓] theorem onPort_leadsTo (p : Nat) (s : State) (r : Result) :
    s.leadsTo κ (onPort p s r) = if p < 7 then s.leadsTo κ r else s.leads κ s := by
  unfold onPort; simp

@[simp ↓] theorem execStayPartnerLost_leadsTo : s.leadsTo κ (execStayPartnerLost p s) := by
  simp [execStayPartnerLost]

@[simp ↓] theorem State.quarantine_led (cause : Nat) : State.Led κ ρ s (s.quarantine p cause) :=
  State.led_of (by simp [State.quarantine])

@[simp ↓] theorem State.enablePort_led : State.Led κ ρ s (s.enablePort p) := State.led_of (by simp [State.enablePort])

@[simp ↓] theorem execStayPresenceDetected_leadsTo : s.leadsTo κ (execStayPresenceDetected p s) := by
  simp [execStayPresenceDetected]

@[simp ↓] theorem State.trainFails_led : State.Led κ ρ s (s.trainFails p) := State.led_of (by simp [State.trainFails])

@[simp ↓] theorem execStayRateAlternate_leadsTo : s.leadsTo κ (execStayRateAlternate p s) := by
  simp [execStayRateAlternate]

@[simp ↓] theorem State.latchWidth_led (a b : WidthWord) : State.Led κ ρ s (s.latchWidth p a b) :=
  State.led_of (by simp [State.latchWidth])

@[simp ↓] theorem execStayElectricalDone_leadsTo (healthy roundTripNs : Nat) :
    s.leadsTo κ (execStayElectricalDone p healthy roundTripNs word s) := by simp [execStayElectricalDone]

@[simp ↓] theorem State.agree_led : State.Led κ ρ s (s.agree p) := State.led_of (by simp [State.agree])

@[simp ↓] theorem State.settleWords_led : State.Led κ ρ s (s.settleWords p) :=
  State.led_of (by simp [State.settleWords])

@[simp ↓] theorem execCapability_leadsTo (msg : CapabilityMsg) : s.leadsTo κ (execCapability p msg s) := by
  simp [execCapability]

@[simp ↓] theorem State.portUp_led : State.Led κ ρ s (s.portUp p) := State.led_of (by simp [State.portUp])
@[simp ↓] theorem State.checkCoord_led : State.Led κ ρ s (s.checkCoord p) := State.led_of (by simp [State.checkCoord])

@[simp ↓] theorem State.checkPermission_led : State.Led κ ρ s (s.checkPermission p) :=
  State.led_of (by simp [State.checkPermission])

@[simp ↓] theorem State.settleKept_led : State.Led κ ρ s (s.settleKept p) := State.led_of (by simp [State.settleKept])

@[simp ↓] theorem State.sendKeying_led (epoch : Nat) : State.Led κ ρ s (s.sendKeying p epoch) :=
  State.led_of (by simp [State.sendKeying, -Nat.reducePow])

@[simp ↓] theorem execIdentity_leadsTo (msg : IdentityMsg) : s.leadsTo κ (execIdentity p msg s) := by
  simp [execIdentity]

@[simp ↓] theorem State.switchKey_led : State.Led κ ρ s (s.switchKey p) := State.led_of (by simp [State.switchKey])

@[simp ↓] theorem execKeying_leadsTo (msg : KeyingMsg) : s.leadsTo κ (execKeying p msg s) := by
  simp [execKeying, -Nat.reducePow]

@[simp ↓] theorem execStayKeyRefresh_leadsTo : s.leadsTo κ (execStayKeyRefresh p s) := by
  simp [execStayKeyRefresh]

@[simp ↓] theorem State.applyAck_led (ack : Nat) : State.Led κ ρ s (s.applyAck p ack) := by
  refine State.led_of ?_
  unfold State.applyAck; dsimp only; split <;> simp

@[simp ↓] theorem State.replayFrom_led : State.Led κ ρ s (s.replayFrom p n) := State.led_of (by simp [State.replayFrom])

@[simp ↓] theorem State.retrainKept_led : State.Led κ ρ s (s.retrainKept p) :=
  State.led_of (by simp [State.retrainKept])

@[simp ↓] theorem State.replay_led : State.Led κ ρ s (s.replay p n) := State.led_of (by simp [State.replay])
@[simp ↓] theorem State.askReplay_led : State.Led κ ρ s (s.askReplay p) := State.led_of (by simp [State.askReplay])
@[simp ↓] theorem State.tagFailed_led : State.Led κ ρ s (s.tagFailed p) := State.led_of (by simp [State.tagFailed])

@[simp ↓] theorem State.discardReserved_led : State.Led κ ρ s (s.discardReserved p) :=
  State.led_of (by simp [State.discardReserved])

@[simp ↓] theorem onControl_leadsTo (p kind : Nat) (f : StayFlit) (s : State) (k : State → Nat → State)
    (hk : ∀ (t : State) c, t.leads κ (k t c)) : s.leadsTo κ (onControl p kind f s k) := by
  have hled (ρ t : State) (c : Nat) : State.Led κ ρ t (k t c) := State.led_of (hk t c)
  unfold onControl; simp [hled]

@[simp ↓] theorem execIdle_leadsTo : s.leadsTo κ (execIdle p f s) := by simp [execIdle]

@[simp ↓] theorem execNak_leadsTo (p : Nat) (f : StayFlit) (s : State) : s.leadsTo κ (execNak p f s) := by
  unfold execNak
  refine onControl_leadsTo _ _ _ _ _ fun t c => ?_
  split <;> simp

@[simp ↓] theorem execCredit_leadsTo : s.leadsTo κ (execCredit p f s) := by simp [execCredit]
@[simp ↓] theorem execWidth_leadsTo : s.leadsTo κ (execWidth p f s) := by simp [execWidth]
@[simp ↓] theorem execSwitch_leadsTo : s.leadsTo κ (execSwitch p f s) := by simp [execSwitch]
@[simp ↓] theorem execKeyswitch_leadsTo : s.leadsTo κ (execKeyswitch p f s) := by simp [execKeyswitch]

@[simp ↓] theorem execStayControlResend_leadsTo : s.leadsTo κ (execStayControlResend p s) := by
  simp [execStayControlResend]

@[simp ↓] theorem execStayRetryTimeout_leadsTo : s.leadsTo κ (execStayRetryTimeout p s) := by
  simp [execStayRetryTimeout]

@[simp ↓] theorem execStayCreditStarved_leadsTo (vc : Nat) : s.leadsTo κ (execStayCreditStarved p vc s) := by
  simp [execStayCreditStarved]

@[simp ↓] theorem State.settlePortPairs_led : State.Led κ ρ s (s.settlePortPairs p) :=
  State.led_of (by simp [State.settlePortPairs])

@[simp ↓] theorem execStayFecWindowEnd_leadsTo (uncorrectable : List Nat) (corrected : Nat) :
    s.leadsTo κ (execStayFecWindowEnd p uncorrectable corrected s) := by simp [execStayFecWindowEnd]

@[simp ↓] theorem execStayRetrainDone_leadsTo : s.leadsTo κ (execStayRetrainDone p word s) := by
  simp [execStayRetrainDone]

@[simp ↓] theorem execStayTagWindowEnd_leadsTo : s.leadsTo κ (execStayTagWindowEnd p s) := by
  simp [execStayTagWindowEnd]

@[simp ↓] theorem State.flipPort_led (v : Nat) : State.Led κ ρ s (s.flipPort p v) :=
  State.led_of (by simp [State.flipPort])

@[simp ↓] theorem execStayShutdownEnd_leadsTo : s.leadsTo κ (execStayShutdownEnd p s) := by
  simp [execStayShutdownEnd]

end

/-! ### Messages and discovery -/

section
variable (s : State) (p : Nat) (f : StayFlit)

@[simp ↓] theorem State.deliver_led (vc : Nat) (m : Octets) : State.Led κ ρ s (s.deliver p vc m) :=
  State.led_of (by simp [State.deliver])

@[simp ↓] theorem State.flitHere_led : State.Led κ ρ s (s.flitHere p f) := State.led_of (by simp [State.flitHere])

@[simp ↓] theorem State.flitOn_led (q cls : Nat) : State.Led κ ρ s (s.flitOn p q cls f) :=
  State.led_of (by simp [State.flitOn])

@[simp ↓] theorem State.skipFlit_led : State.Led κ ρ s (s.skipFlit p f) := State.led_of (by simp [State.skipFlit])

@[simp ↓] theorem State.acceptFlit_led : State.Led κ ρ s (s.acceptFlit p f) := by
  refine State.led_of ?_
  unfold State.acceptFlit; dsimp only; (repeat' split) <;> simp

@[simp ↓] theorem execStayDataFlit_leadsTo : s.leadsTo κ (execStayDataFlit p f s) := by simp [execStayDataFlit]
@[simp ↓] theorem execDiscoverySend_leadsTo : s.leadsTo κ (execDiscoverySend p s) := by simp [execDiscoverySend]

@[simp ↓] theorem execDiscovery_leadsTo (msg : DiscoveryMsg) : s.leadsTo [] (execDiscovery p msg s) := by
  simp [execDiscovery]

@[simp ↓] theorem execDiscoveryStale_leadsTo (entry : Nat) : s.leadsTo [] (execDiscoveryStale entry s) := by
  unfold execDiscoveryStale; split <;> simp

end

/-! ### Power, thermal protection, start-up and resets -/

section
variable (s : State) (d millivolts sensor reading v kind b step cause ticks : Nat)

@[simp ↓] theorem State.postPilot_led (code : Nat) (detail : List (Nat × Nat)) :
    State.Led κ ρ s (s.postPilot code detail) := State.led_of (by simp [State.postPilot])

@[simp ↓] theorem State.ibi_led (i : Nat) : State.Led κ ρ s (s.ibi i) := (s.ibi_frame i).led
@[simp ↓] theorem State.goPkg_led : State.Led κ ρ s (s.goPkg v) := State.led_of (by simp [State.goPkg])
@[simp ↓] theorem State.applyCeiling_led : State.Led κ ρ s s.applyCeiling := State.led_of (by simp [State.applyCeiling])
@[simp ↓] theorem State.evaluateCap_led : State.Led κ ρ s s.evaluateCap := State.led_of (by simp [State.evaluateCap])

@[simp ↓] theorem execPowerSample_leadsTo (watts : Nat) : s.leadsTo κ (execPowerSample watts millivolts s) := by
  simp [execPowerSample]

@[simp ↓] theorem execCapEvaluate_leadsTo : s.leadsTo κ (execCapEvaluate s) := by simp [execCapEvaluate]

@[simp ↓] theorem State.noteReading_led : State.Led κ ρ s (s.noteReading sensor reading) :=
  State.led_of (by simp [State.noteReading])

@[simp ↓] theorem State.setThermal_led (g : Nat) : State.Led κ ρ s (s.setThermal g) :=
  State.led_of (by simp [State.setThermal])

@[simp ↓] theorem execThermalThrottle_leadsTo : s.leadsTo κ (execThermalThrottle sensor reading s) := by
  simp [execThermalThrottle]

@[simp ↓] theorem execThermalWindowEnd_leadsTo (readings : List (Nat × Nat)) :
    s.leadsTo κ (execThermalWindowEnd readings s) := by simp [execThermalWindowEnd]

@[simp ↓] theorem execThermalShutdown_leadsTo : s.leadsTo [] (execThermalShutdown sensor reading s) := by
  simp [execThermalShutdown]

@[simp ↓] theorem execInputUndervoltage_leadsTo : s.leadsTo [] (execInputUndervoltage millivolts s) := by
  simp [execInputUndervoltage]

@[simp ↓] theorem execInputOvervoltage_leadsTo : s.leadsTo [] (execInputOvervoltage millivolts s) := by
  simp [execInputOvervoltage]

@[simp ↓] theorem execDomainForceDark_leadsTo : s.leadsTo κ (execDomainForceDark d s) := by
  simp [execDomainForceDark]

@[simp ↓] theorem execDomainOff_leadsTo : s.leadsTo κ (execDomainOff d s) := by simp [execDomainOff]
@[simp ↓] theorem execDomainOn_leadsTo : s.leadsTo κ (execDomainOn d s) := by simp [execDomainOn]

@[simp ↓] theorem State.reportBank_led : State.Led κ ρ s (s.reportBank kind) :=
  State.led_of (by simp [State.reportBank])

@[simp ↓] theorem State.runBank_led : State.Led κ ρ s (s.runBank kind b) := State.led_of (by simp [State.runBank])
@[simp ↓] theorem State.runPilot_led : State.Led κ ρ s (s.runPilot b) := State.led_of (by simp [State.runPilot])
@[simp ↓] theorem State.stepDone_led : State.Led κ ρ s (s.stepDone step) := State.led_of (by simp [State.stepDone])

@[simp ↓] theorem State.stepFails_led : State.Led κ ρ s (s.stepFails step cause) :=
  State.led_of (by simp [State.stepFails])

@[simp ↓] theorem State.boot_led : State.Led κ ρ s s.boot := State.led_of (by simp [State.boot])

@[simp ↓] theorem State.startRatlines_led : State.Led κ ρ s s.startRatlines :=
  State.led_of (by simp [State.startRatlines])

@[simp ↓] theorem State.clearCarve_led : State.Led κ ρ s s.clearCarve := State.led_of (by simp [State.clearCarve])

@[simp ↓] theorem execStartupStep_leadsTo (fails : Bool) : s.leadsTo κ (execStartupStep fails cause s) := by
  unfold execStartupStep; dsimp only; (repeat' split) <;> simp

@[simp ↓] theorem State.hostReadyWritten_led : State.Led κ ρ s (s.hostReadyWritten v) :=
  State.led_of (by simp [State.hostReadyWritten])

@[simp ↓] theorem State.askPackageReset_led : State.Led [] ρ s s.askPackageReset.2 :=
  State.led_of (by simp [State.askPackageReset])

@[simp ↓] theorem State.askPartReset_led (p : Nat) : State.Led κ ρ s (s.askPartReset p).2 :=
  State.led_of (by simp [State.askPartReset])

@[simp ↓] theorem State.resetDiePorts_led (s : State) (d : Nat) : State.Led κ ρ s (s.resetDiePorts d) := by
  refine State.led_of ?_
  unfold State.resetDiePorts
  dsimp only
  refine State.leads.trans (State.foldl_leads (fun t side => ?_) _ _) (State.foldl_leads (fun t p => ?_) _ _)
  · split <;> simp
  · simp

@[simp ↓] theorem State.clearDomain_led : State.Led κ ρ s (s.clearDomain d) :=
  State.led_of (by simp [State.clearDomain])

@[simp ↓] theorem State.askDomainReset_led : State.Led κ ρ s (s.askDomainReset d) :=
  State.led_of (by simp [State.askDomainReset])

@[simp ↓] theorem State.resetLink_led (l : Nat) : State.Led κ ρ s (s.resetLink l) :=
  State.led_of (by simp [State.resetLink])

@[simp ↓] theorem State.askPortReset_led (sub : Nat) : State.Led κ ρ s (s.askPortReset sub) :=
  State.led_of (by simp [State.askPortReset])

@[simp ↓] theorem State.settleDebug_led : State.Led κ ρ s s.settleDebug := by
  refine State.led_of ?_
  unfold State.settleDebug; split <;> simp

@[simp ↓] theorem State.resetEffect_led (r : Reset) : State.Led κ ρ s (s.resetEffect r) := by
  refine State.led_of ?_
  unfold State.resetEffect; split <;> simp

@[simp ↓] theorem execDomainResetTimeout_leadsTo : s.leadsTo κ (execDomainResetTimeout d s) := by
  unfold execDomainResetTimeout; split <;> simp

end

/-! ### Firmware, fuses and debug -/

section
variable (s : State) (image : Octets) (kind v : Nat)

@[simp ↓] theorem State.putImage_led (b : Nat) : State.Led κ ρ s (s.putImage kind b image) :=
  State.led_of (by simp [State.putImage])

@[simp ↓] theorem State.writeImage_led : State.Led κ ρ s (s.writeImage kind image).2 :=
  State.led_of (by simp [State.writeImage])

@[simp ↓] theorem State.raiseSvn_led : State.Led κ ρ s (s.raiseSvn kind v).2 := State.led_of (by simp [State.raiseSvn])

@[simp ↓] theorem execRecoveryImage_leadsTo : s.leadsTo κ (execRecoveryImage image s) := by
  simp [execRecoveryImage]

@[simp ↓] theorem State.newChallenge_led : State.Led κ ρ s s.newChallenge := State.led_of (by simp [State.newChallenge])

@[simp ↓] theorem State.writeToken_led (t : Octets) : State.Led [] ρ s (s.writeToken t).2 :=
  State.led_of (by simp [State.writeToken])

@[simp ↓] theorem State.closeDebug_led (cause : Nat) : State.Led [] ρ s (s.closeDebug cause) :=
  State.led_of (by simp [State.closeDebug])

@[simp ↓] theorem State.relock_led : State.Led [] ρ s (s.relock v) := State.led_of (by simp [State.relock])

@[simp ↓] theorem execDebugLifeExpiry_leadsTo : s.leadsTo [] (execDebugLifeExpiry s) := by
  unfold execDebugLifeExpiry; split <;> simp

@[simp ↓] theorem execMgmtLinkAttempt_leadsTo (links : Bool) : s.leadsTo [] (execMgmtLinkAttempt links s) := by
  simp [execMgmtLinkAttempt]

@[simp ↓] theorem execDynamicAddress_leadsTo (addr : Nat) : s.leadsTo [] (execDynamicAddress addr s) := by
  simp [execDynamicAddress]

end

/-! ### The object dictionary -/

section
variable (s : State) (idx sub : Nat) (who : Who) (r : ObjRow)

@[simp ↓] theorem State.setStager_led (i : Nat) (x : Stager) : State.Led κ ρ s (s.setStager i x) :=
  (s.setStager_frame i x).led

@[simp ↓] theorem State.withValues_led (vs : FMap Octets) : State.Led κ ρ s (s.withValues vs) :=
  State.led_of (by simp [State.withValues])

@[simp ↓] theorem State.present_led : State.Led κ ρ s (s.present idx sub).2 := by
  refine State.led_of ?_
  unfold State.present; dsimp only; (repeat' split) <;> simp

@[simp ↓] theorem State.readClears_led : State.Led κ ρ s (s.readClears idx sub) :=
  State.led_of (by simp [State.readClears])

@[simp ↓] theorem State.readLive_led : State.Led κ ρ s (s.readLive who r idx sub).2 := by
  refine State.led_of ?_
  unfold State.readLive; dsimp only; (repeat' split) <;> simp

@[simp ↓] theorem State.readStaged_led : State.Led κ ρ s (s.readStaged who r idx sub).2 := by
  refine State.led_of ?_
  unfold State.readStaged; dsimp only; split <;> simp

@[simp ↓] theorem State.postSnapshots_led : State.Led κ ρ s (s.postSnapshots idx) :=
  State.led_of (by simp [State.postSnapshots])

@[simp ↓] theorem execSnapshotPost_leadsTo : s.leadsTo κ (execSnapshotPost idx s) := by simp [execSnapshotPost]

end

/-! ### The commit gate -/

section
variable (s old : State) (stager p k key n : Nat) (v : Octets) (q : CommitReq) (vs : FMap Octets)

@[simp ↓] theorem State.setRec_led (num : Nat) (f : CommitRec → CommitRec) : State.Led κ ρ s (s.setRec num f) :=
  State.led_of (by simp [State.setRec])

@[simp ↓] theorem State.postCommit_led (code : Nat) (detail : List (Nat × Nat)) :
    State.Led κ ρ s (s.postCommit code stager detail) := State.led_of (by simp [State.postCommit])

@[simp ↓] theorem State.requestCommit_led (token : Nat) : State.Led κ ρ s (s.requestCommit stager token).2 :=
  State.led_of (by simp [State.requestCommit])

@[simp ↓] theorem State.discardStaged_led (v : Nat) : State.Led κ ρ s (s.discardStaged stager v).2 :=
  State.led_of (by simp [State.discardStaged])

@[simp ↓] theorem State.stageValue_led : State.Led κ ρ s (s.stageValue stager key v).2 :=
  State.led_of (by simp [State.stageValue])

@[simp ↓] theorem State.noteAdmission_led (v : State) (set : FMap Octets) : State.Led κ ρ s (s.noteAdmission v set) :=
  State.led_of (by simp [State.noteAdmission])

@[simp ↓] theorem State.refuseCommit_led (r : Refused) : State.Led κ ρ s (s.refuseCommit q r) :=
  State.led_of (by simp [State.refuseCommit])

@[simp ↓] theorem State.zeroRange_led (a : Nat) : State.Led κ ρ s (s.zeroRange a n) :=
  State.led_of (by simp [State.zeroRange])

@[simp ↓] theorem State.zeroWindow_led (fresh : Bool) (old new : Nat) : State.Led κ ρ s (s.zeroWindow fresh old new) :=
  State.led_of (by simp [State.zeroWindow])

@[simp ↓] theorem State.zeroFor_led : State.Led κ ρ s (s.zeroFor vs) := State.led_of (by simp [State.zeroFor])

/-- A ring that is emptied. -/
@[simp ↓] theorem State.clearRing_led (i posted drops owed pushed : Nat) :
    State.Led κ ρ s (s.setRing i ⟨[], posted, posted, drops, owed, pushed⟩) :=
  State.setRing_led fun _ => ⟨le_rfl, by simp [Ring.used], by simp [Ring.used]⟩

@[simp ↓] theorem State.createPart_led : State.Led κ ρ s (s.createPart p) := State.led_of (by simp [State.createPart])

@[simp ↓] theorem State.destroyPart_led : State.Led κ ρ s (s.destroyPart old p) :=
  State.led_of (by simp [State.destroyPart])

@[simp ↓] theorem State.resetCore_led : State.Led κ ρ s (s.resetCore n) := State.led_of (by simp [State.resetCore])
@[simp ↓] theorem State.moveCores_led : State.Led κ ρ s (s.moveCores old) := State.led_of (by simp [State.moveCores])

@[simp ↓] theorem State.flipSlot_led (header : Bool) : State.Led κ ρ s (s.flipSlot k header) :=
  State.led_of (by simp [State.flipSlot])

@[simp ↓] theorem State.flipPermissions_led : State.Led κ ρ s s.flipPermissions :=
  State.led_of (by simp [State.flipPermissions])

@[simp ↓] theorem State.recheckCoord_led : State.Led κ ρ s (s.recheckCoord p) :=
  State.led_of (by simp [State.recheckCoord])

@[simp ↓] theorem State.flipTorusPort_led : State.Led κ ρ s (s.flipTorusPort p) :=
  State.led_of (by simp [State.flipTorusPort])

@[simp ↓] theorem State.flipTorus_led : State.Led κ ρ s s.flipTorus := State.led_of (by simp [State.flipTorus])

@[simp ↓] theorem State.flipEffect_led : State.Led κ ρ s (s.flipEffect old key) := by
  refine State.led_of ?_
  unfold State.flipEffect; dsimp only; (repeat' split) <;> simp

@[simp ↓] theorem State.goLive_led : State.Led κ ρ s (s.goLive vs) := State.led_of (by simp [State.goLive])
@[simp ↓] theorem State.releasePlans_led : State.Led κ ρ s s.releasePlans := State.led_of (by simp [State.releasePlans])
@[simp ↓] theorem State.endCommits_led : State.Led κ ρ s s.endCommits := State.led_of (by simp [State.endCommits])
@[simp ↓] theorem State.flipReady_led : State.Led κ ρ s s.flipReady := State.led_of (by simp [State.flipReady])
@[simp ↓] theorem State.heldReload_led : State.Led κ ρ s (s.heldReload k v) := State.led_of (by simp [State.heldReload])

@[simp ↓] theorem State.acceptCommit_led : State.Led κ ρ s (s.acceptCommit q) :=
  State.led_of (by simp [State.acceptCommit])

@[simp ↓] theorem execCommitChecksDone_leadsTo : s.leadsTo κ (execCommitChecksDone s) := by
  unfold execCommitChecksDone; dsimp only; (repeat' split) <;> simp

@[simp ↓] theorem State.flipWaiting_led : State.Led κ ρ s s.flipWaiting := State.led_of (by simp [State.flipWaiting])
@[simp ↓] theorem execDeferredFlip_leadsTo : s.leadsTo κ (execDeferredFlip s) := by simp [execDeferredFlip]

@[simp ↓] theorem execResetComplete_leadsTo (kind scope : Nat) : s.leadsTo κ (execResetComplete kind scope s) :=
  by unfold execResetComplete; split <;> simp

@[simp ↓] theorem execPlanAbortDone_leadsTo : s.leadsTo κ (execPlanAbortDone k s) := by
  unfold execPlanAbortDone; dsimp only; split <;> simp

@[simp ↓] theorem State.settleRing_led (i : Nat) (mk : Nat → Rec) :
    State.Led κ ρ s (s.setRing i ((s.ring i).settle (ringSize i) mk)) :=
  State.setRing_led (Ring.settle_sound mk)

@[simp ↓] theorem execEventRingOverflow_leadsTo (ring : Nat) : s.leadsTo κ (execEventRingOverflow ring s) := by
  simp [execEventRingOverflow]

end

/-! ### Dictionary requests and register writes -/

section
variable (s : State) (who : Who) (sub idx value p n stager off kind : Nat) (v nonce : Octets)

@[simp ↓] theorem State.writeNonce_led : State.Led κ ρ s (s.writeNonce stager nonce) :=
  State.led_of (by simp [State.writeNonce])

@[simp ↓] theorem State.acceptWrite_led (v : Nat) : State.Led [] ρ s (s.acceptWrite idx sub v).2 :=
  State.led_of (by simp [State.acceptWrite])

@[simp ↓] theorem State.writeStop_led : State.Led κ ρ s (s.writeStop p).2 := State.led_of (by simp [State.writeStop])

@[simp ↓] theorem State.applyWrite_led : State.Led [] ρ s (s.applyWrite stager idx sub v).2 := by
  refine State.led_of ?_
  unfold State.applyWrite; split <;> simp

@[simp ↓] theorem State.writeObject_led : State.Led [] ρ s (s.writeObject who idx sub v).2 := by
  refine State.led_of ?_
  unfold State.writeObject; split <;> simp

@[simp ↓] theorem State.readRequest_led (staged : Bool) :
    State.Led κ ρ s (s.readRequest who idx sub off n staged).2 := by
  refine State.led_of ?_
  unfold State.readRequest; split <;> simp

@[simp ↓] theorem State.writeRequest_led : State.Led [] ρ s (s.writeRequest who idx sub v).2 :=
  State.led_of (by simp [State.writeRequest])

@[simp ↓] theorem State.writeSegment_led (data : Octets) (fin : Bool) :
    State.Led [] ρ s (s.writeSegment who idx sub off data fin).2 := by
  refine State.led_of ?_
  unfold State.writeSegment; dsimp only; (repeat' split) <;> simp

@[simp ↓] theorem State.describeRequest_led : State.Led κ ρ s (s.describeRequest who idx sub).2 := by
  refine State.led_of ?_
  unfold State.describeRequest; split <;> simp

theorem State.dictionary_leads (s : State) (who : Who) (type flags : Nat) (b : Octets) :
    ∀ a ∈ s.dictionary who type flags b, s.leads [] a.2 := by
  unfold State.dictionary; dsimp only; split <;> simp

/-- The types by which a request reads: READ, READ_SEG, LIST and DESCRIBE. -/
theorem State.dictionary_leads_of_reads (s : State) (who : Who) (type flags : Nat) (b : Octets)
    (ht : type ∈ [0x10, 0x14, 0x18, 0x1A]) : ∀ a ∈ s.dictionary who type flags b, s.leads κ a.2 := by
  simp only [List.mem_cons, List.not_mem_nil, or_false] at ht
  unfold State.dictionary
  dsimp only
  rcases ht with rfl | rfl | rfl | rfl <;> simp

@[simp ↓] theorem State.closeSession_led : State.Led [] ρ s (s.closeSession n) :=
  State.led_of (by simp [State.closeSession])

@[simp ↓] theorem State.settleAddress_led (status : Nat) : State.Led [] ρ s (s.settleAddress idx sub status) :=
  State.led_of (by simp [State.settleAddress])

@[simp ↓] theorem State.writeAs_leadsTo : s.leadsTo [] (s.writeAs who idx sub v) := by simp [State.writeAs]
@[simp ↓] theorem State.writeNum_leadsTo : s.leadsTo [] (s.writeNum who idx sub n) := by simp [State.writeNum]

@[simp ↓] theorem execCommitRequest_leadsTo (token : Nat) : s.leadsTo [] (execCommitRequest who token s) := by
  simp [execCommitRequest]

@[simp ↓] theorem execStagingDiscard_leadsTo : s.leadsTo [] (execStagingDiscard who value s) := by
  simp [execStagingDiscard]

@[simp ↓] theorem execPlanAbort_leadsTo (k : Nat) : s.leadsTo [] (execPlanAbort who k value s) := by
  simp [execPlanAbort]

@[simp ↓] theorem execMastPowerRequest_leadsTo (m : Nat) : s.leadsTo [] (execMastPowerRequest who m value s) := by
  simp [execMastPowerRequest]

@[simp ↓] theorem execPowerCapWrite_leadsTo (watts : Nat) : s.leadsTo [] (execPowerCapWrite who watts s) := by
  simp [execPowerCapWrite]

@[simp ↓] theorem execHostReady_leadsTo : s.leadsTo [] (execHostReady who value s) := by simp [execHostReady]

@[simp ↓] theorem execPackageReset_leadsTo : s.leadsTo [] (execPackageReset who value s) := by
  simp [execPackageReset]

@[simp ↓] theorem execPartitionReset_leadsTo : s.leadsTo [] (execPartitionReset who p value s) := by
  simp [execPartitionReset]

@[simp ↓] theorem execDomainReset_leadsTo (d : Nat) : s.leadsTo [] (execDomainReset who d value s) := by
  simp [execDomainReset]

@[simp ↓] theorem execPortReset_leadsTo : s.leadsTo [] (execPortReset who sub value s) := by simp [execPortReset]

@[simp ↓] theorem execPartitionStop_leadsTo : s.leadsTo [] (execPartitionStop who p value s) := by
  simp [execPartitionStop]

@[simp ↓] theorem execFirmwareImageWrite_leadsTo (image : Octets) :
    s.leadsTo [] (execFirmwareImageWrite who kind image s) := by simp [execFirmwareImageWrite]

@[simp ↓] theorem execSvnRaise_leadsTo : s.leadsTo [] (execSvnRaise who kind value s) := by simp [execSvnRaise]

@[simp ↓] theorem execAttestationNonce_leadsTo : s.leadsTo [] (execAttestationNonce who nonce s) := by
  simp [execAttestationNonce]

@[simp ↓] theorem execDebugToken_leadsTo (token : Octets) : s.leadsTo [] (execDebugToken who token s) := by
  simp [execDebugToken]

@[simp ↓] theorem execDebugRelock_leadsTo : s.leadsTo [] (execDebugRelock who value s) := by simp [execDebugRelock]

@[simp ↓] theorem execRegisterWrite_leadsTo (value : Octets) : s.leadsTo [] (execRegisterWrite who idx sub value s) :=
  by simp [execRegisterWrite]

end

/-! ### The Choan responder -/

section
variable (s : State) (env : Envelope) (seq fromAddr rseq : Nat)

@[simp ↓] theorem execHello_leadsTo : s.leadsTo [] (execHello s) := by unfold execHello; simp
@[simp ↓] theorem execDiscover_leadsTo : s.leadsTo [] (execDiscover fromAddr seq s) := by simp [execDiscover]

@[simp ↓] theorem State.refuseSession_led (addr status : Nat) : State.Led [] ρ s (s.refuseSession addr seq status) :=
  State.led_of (by simp [State.refuseSession])

@[simp ↓] theorem execSessionInit_leadsTo (nonce key chain : Octets) :
    s.leadsTo [] (execSessionInit fromAddr seq nonce key chain s) := by
  unfold execSessionInit; split <;> simp [-Nat.reducePow]

@[simp ↓] theorem State.badTag_led (address : Nat) : State.Led [] ρ s (s.badTag address) :=
  State.led_of (by simp [State.badTag])

@[simp ↓] theorem State.sendReply_led (type : Nat) (r : Reply) : State.Led [] ρ s (s.sendReply env type r) := by
  refine State.led_of ?_
  unfold State.sendReply; split <;> simp

@[simp ↓] theorem execSessionConfirm_leadsTo (sig : Octets) : s.leadsTo [] (execSessionConfirm env sig s) := by
  unfold execSessionConfirm; (repeat' split) <;> simp

@[simp ↓] theorem State.choan_leadsTo (s : State) (env : Envelope) (type flags : Nat) (body : Octets)
    (act : State → Session → Reply × State) (after : Reply → State → State)
    (hact : ∀ (t : State) x, t.leads [] (act t x).2) (hafter : ∀ r (t : State), t.leads [] (after r t)) :
    s.leadsTo [] (s.choan env type flags body act after) := by
  have hled (ρ t : State) (x : Session) : State.Led [] ρ t (act t x).2 := State.led_of (hact t x)
  have hled' (ρ t : State) (r : Reply) : State.Led [] ρ t (after r t) := State.led_of (hafter r t)
  unfold State.choan
  dsimp only; (repeat' split) <;> simp [hled, hled']

@[simp ↓] theorem State.choanDict_leadsTo (s : State) (env : Envelope) (type flags : Nat) (body : Octets) :
    s.leadsTo [] (s.choanDict env type flags body) := by
  unfold State.choanDict
  refine State.choan_leadsTo _ _ _ _ _ _ _ (fun t _ => ?_) (by simp)
  cases h : t.dictionary (.operator (env.session - 1)) type flags body with
  | none => simp
  | some a => exact State.dictionary_leads _ _ _ _ _ _ h

@[simp ↓] theorem execClaim_leadsTo : s.leadsTo [] (execClaim env s) := by simp [execClaim]
@[simp ↓] theorem execClose_leadsTo : s.leadsTo [] (execClose env s) := by simp [execClose]

@[simp ↓] theorem execEventRead_leadsTo (count : Nat) : s.leadsTo [] (execEventRead env rseq count s) := by
  simp [execEventRead]

/-- A nonnegative signed value is its word, and the word's top bit is clear. -/
theorem signedOf_of_nonneg {v : Nat} (h : 0 ≤ signedOf 32 v) :
    signedOf 32 v = (v % 2 ^ 32 : Nat) ∧ v % 2 ^ 32 < 2 ^ 31 := by
  unfold signedOf at h ⊢
  rw [Nat.testBit_eq_decide_div_mod_eq] at *
  split at h
  · push_cast at *; omega
  · next hbit =>
    rw [if_neg hbit]
    simp only [decide_eq_true_eq] at hbit
    push_cast at *; omega

/-- The read position of a ring moves to `v` where `v` lies between it and WRIDX. -/
theorem Ring.advance_sound {r : Ring} {cap v : Nat} (hcap : cap < 2 ^ 31) (h : r.sound cap) :
    (r.advance v).sound cap := by
  unfold Ring.advance
  dsimp only
  split
  · next hv =>
    obtain ⟨hread, hlen, hused⟩ := h
    obtain ⟨hd, hleft⟩ := hv
    obtain ⟨hd', hdtop⟩ := signedOf_of_nonneg hd
    obtain ⟨hleft', hlefttop⟩ := signedOf_of_nonneg hleft
    rw [hd', Int.toNat_natCast]
    unfold Ring.used at hlen hused
    have hle : r.read + (v + 2 ^ 32 - r.read % 2 ^ 32) % 2 ^ 32 ≤ r.posted := by
      clear hd hleft hd' hleft'
      omega
    refine ⟨hle, ?_, ?_⟩
    · simp only [Ring.used, List.length_drop]; omega
    · simp only [Ring.used]; omega
  · exact h

@[simp ↓] theorem State.advanceRing_led (i v : Nat) :
    State.Led κ ρ s (s.setRing i ((s.ring i).advance v)) :=
  State.setRing_led (Ring.advance_sound (by unfold ringSize; split <;> omega))

@[simp ↓] theorem execEventAck_leadsTo : s.leadsTo [] (execEventAck env rseq s) := by simp [execEventAck]

@[simp ↓] theorem execSubscribe_leadsTo (on : Bool) : s.leadsTo [] (execSubscribe env on s) := by
  simp [execSubscribe]

@[simp ↓] theorem execSessionTimeout_leadsTo (n : Nat) : s.leadsTo [] (execSessionTimeout n s) := by
  unfold execSessionTimeout; split <;> simp

end

/-! ### Remote memory access -/

section
variable (s : State) (m : RemoteMsg) (p kind : Nat) (q : Remote)

@[simp ↓] theorem State.remoteBlocked_led : State.Led κ ρ s (s.remoteBlocked p m) :=
  State.led_of (by simp [State.remoteBlocked])

@[simp ↓] theorem State.respond_led (status : Nat) (body : Octets) : State.Led κ ρ s (s.respond p kind status m body) :=
  State.led_of (by simp [State.respond])

@[simp ↓] theorem State.setRemote_led : State.Led κ ρ s (s.setRemote q) := State.led_of (by simp [State.setRemote])

@[simp ↓] theorem State.beginRemote_led : State.Led κ ρ s (s.beginRemote q) :=
  State.led_of (by simp [State.beginRemote])

@[simp ↓] theorem State.endRemote_led : State.Led κ ρ s (s.endRemote q) := State.led_of (by simp [State.endRemote])

@[simp ↓] theorem State.runRemotes_led (s : State) (fuel : Nat) : State.Led κ ρ s (s.runRemotes fuel) := by
  induction fuel generalizing ρ s with
  | zero => exact State.led_of s.leads_refl
  | succ n ih => refine State.led_of ?_; unfold State.runRemotes; (repeat' split) <;> simp [ih]

@[simp ↓] theorem State.serveRemotes_led : State.Led κ ρ s s.serveRemotes := State.led_of (by simp [State.serveRemotes])

@[simp ↓] theorem State.addRemote_led (part : Nat) : State.Led [] ρ s (s.addRemote p kind part m) :=
  State.led_of (by simp [State.addRemote])

@[simp ↓] theorem onMessage_leadsTo (p vc : Nat) (s : State) (k : Result) (hk : s.leadsTo κ k) :
    s.leadsTo κ (onMessage p vc s k) := by
  unfold onMessage; simp [hk]

@[simp ↓] theorem execPostedWrite_leadsTo (p : Nat) (m : RemoteMsg) (s : State) :
    s.leadsTo [] (execPostedWrite p m s) := by
  unfold execPostedWrite
  refine onMessage_leadsTo _ _ _ _ ?_
  (repeat' split) <;> simp

@[simp ↓] theorem execReadReq_leadsTo (p : Nat) (m : RemoteMsg) (s : State) : s.leadsTo [] (execReadReq p m s) := by
  unfold execReadReq
  refine onMessage_leadsTo _ _ _ _ ?_
  (repeat' split) <;> simp

@[simp ↓] theorem execWriteReq_leadsTo (p : Nat) (m : RemoteMsg) (s : State) : s.leadsTo [] (execWriteReq p m s) := by
  unfold execWriteReq
  refine onMessage_leadsTo _ _ _ _ ?_
  (repeat' split) <;> simp

@[simp ↓] theorem execReadResp_leadsTo : s.leadsTo κ (execReadResp p m s) := by simp [execReadResp]
@[simp ↓] theorem execWriteAck_leadsTo : s.leadsTo κ (execWriteAck p m s) := by simp [execWriteAck]

@[simp ↓] theorem execFillArrival_leadsTo (g l : Nat) : s.leadsTo κ (execFillArrival g l s) := by
  unfold execFillArrival; split <;> simp

@[simp ↓] theorem execMemAccessComplete_leadsTo (c wrong : Nat) : s.leadsTo κ (execMemAccessComplete c wrong s) :=
  by unfold execMemAccessComplete; split <;> simp

end

/-! ### The lamplighter cores and the peers -/

section
variable (s : State) (core c a p n data k slot : Nat) (store : Bool) (d : Octets) (q : PeerRequest)

@[simp ↓] theorem State.blockCore_led : State.Led κ ρ s (s.blockCore core c a) := by
  refine State.led_of ?_
  unfold State.blockCore; simp

@[simp ↓] theorem onCore_leadsTo (core : Nat) (s : State) (k : Nat → Result)
    (hk : ∀ c, s.leadsTo κ (k c)) : s.leadsTo κ (onCore core s k) := by
  unfold onCore; split <;> simp [hk]

@[simp ↓] theorem State.allocMail_led : State.Led κ ρ s (s.allocMail core c) := by
  refine State.led_of ?_
  unfold State.allocMail; split <;> simp

@[simp ↓] theorem State.serve_led (s : State) (who : Who) (allowed : List Nat) (o : Octets) :
    State.Led [] ρ s (s.serve who allowed o).2 := by
  refine State.led_of ?_
  unfold State.serve
  split
  · simp
  · dsimp only
    (repeat' split)
    · simp
    · simp
    · next h => exact State.dictionary_leads _ _ _ _ _ _ h

/-- A requester that may only read. -/
theorem State.serve_leads_of_reads (s : State) (who : Who) {allowed : List Nat} (o : Octets)
    (ht : allowed ⊆ [0x10, 0x14, 0x18, 0x1A]) : s.leads κ (s.serve who allowed o).2 := by
  unfold State.serve
  split
  · simp
  · dsimp only
    (repeat' split)
    · simp
    · simp
    · next htype _ r t h =>
      exact State.dictionary_leads_of_reads s who _ _ _ (ht (by simpa using htype)) (r, t) h

@[simp ↓] theorem State.mailReply_led : State.Led κ ρ s (s.mailReply k d) := by
  have hmail : Memory.steady s.mailbox ((s.mailbox.writeLE (2048 * k + 16) d.len d.bits).writeLE (2048 * k) 8 2) :=
    fun h => FMap.wf_writeLE (FMap.wf_writeLE h _ _ _) _ _ _
  exact State.led_of (by simp [State.mailReply, hmail])

@[simp ↓] theorem State.submitMail_led (s : State) (core c k : Nat) : State.Led [] ρ s (s.submitMail core c k) := by
  refine State.led_of ?_
  unfold State.submitMail
  split
  · simp
  · split
    · simp
    · split
      · simp
      · split <;> next h => exact (State.leads_of_eq h (by simp)).trans (by simp)

@[simp ↓] theorem State.freeMail_led : State.Led κ ρ s (s.freeMail core c k) := by
  refine State.led_of ?_
  unfold State.freeMail; split <;> simp

@[simp ↓] theorem execMailboxAlloc_leadsTo : s.leadsTo κ (execMailboxAlloc core s) := by simp [execMailboxAlloc]

@[simp ↓] theorem execMailboxSubmit_leadsTo : s.leadsTo [] (execMailboxSubmit core slot s) := by
  simp [execMailboxSubmit]

@[simp ↓] theorem execMailboxFree_leadsTo : s.leadsTo κ (execMailboxFree core slot s) := by simp [execMailboxFree]

@[simp ↓] theorem State.replyPeer_led (status : Nat) : State.Led κ ρ s (s.replyPeer q status d) :=
  State.led_of (by simp [State.replyPeer])

@[simp ↓] theorem State.busyPeer_led : State.Led κ ρ s (s.busyPeer q) := State.led_of (by simp [State.busyPeer])

@[simp ↓] theorem execDictRequest_leadsTo (src tid : Nat) (dg : Octets) :
    s.leadsTo κ (execDictRequest p src tid dg s) := by simp [execDictRequest]

@[simp ↓] theorem State.writeRdidx_led (v : Nat) : State.Led κ ρ s (s.writeRdidx p v) :=
  State.led_of (by simp [State.writeRdidx])

@[simp ↓] theorem execRdidxWrite_leadsTo (ring value : Nat) : s.leadsTo κ (execRdidxWrite core ring value s) := by
  simp [execRdidxWrite]

@[simp ↓] theorem State.ringPlace_led : State.Led κ ρ s (s.ringPlace p n).2 := by
  refine State.led_of ?_
  unfold State.ringPlace; split <;> simp

@[simp ↓] theorem State.endLoad_led (x : CoreLoad) : State.Led κ ρ s (s.endLoad x) :=
  State.led_of (by simp [State.endLoad])

@[simp ↓] theorem State.coreMemory_led : State.Led κ ρ s (s.coreMemory core a n data store) :=
  State.led_of (by simp [State.coreMemory])

@[simp ↓] theorem State.coreControl_led : State.Led [] ρ s (s.coreControl core c a n data store) :=
  State.led_of (by simp [State.coreControl])

@[simp ↓] theorem execLamplighterAccess_leadsTo (addr len : Nat) :
    s.leadsTo [] (execLamplighterAccess core store addr len data s) := by simp [execLamplighterAccess]

@[simp ↓] theorem State.emptyMail_led : State.Led κ ρ s s.emptyMail := State.led_of (by simp [State.emptyMail])

@[simp ↓] theorem State.restartCommit_led : State.Led κ ρ s s.restartCommit := by
  refine State.led_of ?_
  unfold State.restartCommit; split <;> simp

@[simp ↓] theorem execPilotRestarted_leadsTo : s.leadsTo κ (execPilotRestarted s) := by
  unfold execPilotRestarted; dsimp only; split <;> simp

end

/-! ### Every command -/

/-- A command that is one call of a shared operation, with an opcode of its own, is unfolded here; every other command has
its lemma above. At the three commands left out the supply or a power reset sets the tick. -/
theorem exec_leadsTo (c : Instr) (s : State) :
    s.leadsTo [] (exec c s) ∨ (∃ n, c = .powerOn n) ∨ c = .powerLoss ∨ ∃ v, c = .resetreq v := by
  unfold exec
  split <;> simp [execMatmul, execAclr, execAdapt, execSend, execCopy, execJibAdd, execJibSub, execJibMul, execFma,
    execJibMin, execJibMax, execMul3, execExp, execLog, execRecip, execRsqrt, execSqrt, execReluGrad, execGeluGrad,
    execSiluGrad, execSigmoidGrad, execRsum, execRsumsq, execRmax, execRmaxabs, execRmstat, execRmsstat, execNorm,
    execSkip, execAdd, execSub, execAnd, execOr, execXor, execShl, execShr, execSar, execMul, execSlt, execSltu,
    execSeq, execMin, execMax, execAmadd, execAmswap, execRead, execWrite, execReadSeg, execWriteSeg, execList,
    execDescribe]

/-- Settles O7: every other command leads on without time passing (`exec_leadsTo`). -/
theorem tickOnlyByPower : Obligations.TickOnlyByPower := by
  intro c s t ht
  exact (exec_leadsTo c s).imp_left fun h => (h t ht).1

/-! ### Sound states across the supply and the tick -/

theorem State.powerOff_sound (s : State) : s.powerOff.sound := by
  refine ⟨rfl, rfl, rfl, fun n => ?_⟩
  exact ⟨le_rfl, rfl, Nat.zero_le _⟩

theorem State.powerUp_sound {s : State} (ticks : Nat) (h : s.sound) : (s.powerUp ticks).sound := by
  have hled (u : State) (c k : Nat) :
      u.leads [] ((((u.setVal 0x2000 1 pkgStandby).setObj 0x7080 1 ⟨32, c⟩).setPart packageKeyPlace { key := k }).bump
        0x3400 17 1) := by simp
  exact (hled _ _ _).2.2 h

theorem guardEvent_next {ok : Bool} {s t u : State} (h : guardEvent ok s (.next u) = .next t) : t = s ∨ t = u := by
  unfold guardEvent at h
  split at h <;> cases h <;> simp

/-- A command that goes on from a sound state goes on with one. -/
theorem exec_sound {c : Instr} {s t : State} (h : s.sound) (ht : exec c s = .next t) : t.sound := by
  rcases exec_leadsTo c s with hled | ⟨n, rfl⟩ | rfl | ⟨v, rfl⟩
  · exact (hled t ht).2.2 h
  · obtain rfl | rfl := guardEvent_next ht
    · exact h
    · exact State.powerUp_sound n h
  · obtain rfl | rfl := guardEvent_next ht
    · exact h
    · exact s.powerOff_sound
  · obtain rfl | rfl := guardEvent_next ht
    · exact h
    · exact State.powerUp_sound 0 s.powerOff_sound

/-! ### One pilot tick -/

section
variable {κ : List Piece} {ρ : State} (s : State)

/-- A frame that names pieces apart, where none of them is watched. -/
theorem changesOnly.led_of_not_mem {fs : List Piece} {s t : State} (h : changesOnly fs s t) (hκ : ∀ f ∈ fs, f ∉ κ)
    (hd : ∀ f ∈ stemPieces, f ∉ fs := by decide) : State.Led κ ρ s t :=
  State.led_of ⟨h .tick (hd _ (by decide)), fun f _ hf => h f fun hm => hκ f hm hf,
    (State.sound_congr fun f hf => h f (hd f hf)).2⟩

theorem State.setWrites_frame (ws : List (Nat × Nat × Nat)) : changesOnly [.writes] s { s with writes := ws } := by
  intro f hf; cases f <;> simp at hf <;> rfl

theorem State.setGrants_frame (ms : List Nat) : changesOnly [.grants] s { s with grants := ms } := by
  intro f hf; cases f <;> simp at hf <;> rfl

theorem State.setWrites_led (hw : Piece.writes ∉ κ) (ws : List (Nat × Nat × Nat)) :
    State.Led κ ρ s { s with writes := ws } := (s.setWrites_frame ws).led_of_not_mem (by simpa using hw)

theorem State.setGrants_led (hg : Piece.grants ∉ κ) (ms : List Nat) :
    State.Led κ ρ s { s with grants := ms } := (s.setGrants_frame ms).led_of_not_mem (by simpa using hg)

@[simp ↓] theorem State.takeSnapshots_led : State.Led κ ρ s s.takeSnapshots :=
  State.led_of (by simp [State.takeSnapshots])

@[simp ↓] theorem State.settleSnapshots_led : State.Led κ ρ s s.settleSnapshots :=
  State.led_of (by simp [State.settleSnapshots])

@[simp ↓] theorem State.countThrottled_led : State.Led κ ρ s s.countThrottled :=
  State.led_of (by simp [State.countThrottled])

@[simp ↓] theorem State.writeCap_led (watts : Nat) : State.Led κ ρ s (s.writeCap watts) :=
  State.led_of (by simp [State.writeCap])

@[simp ↓] theorem State.askAbort_led (k : Nat) : State.Led κ ρ s (s.askAbort k) :=
  State.led_of (by simp [State.askAbort])

@[simp ↓] theorem State.liveRequest_led (hg : Piece.grants ∉ κ) (m v : Nat) : State.Led κ ρ s (s.liveRequest m v) := by
  refine State.led_of ?_
  unfold State.liveRequest
  dsimp only
  split
  · rw [State.setGrants_led _ hg]; simp
  · simp

@[simp ↓] theorem State.liveWrite_led (hg : Piece.grants ∉ κ) (w : Nat × Nat × Nat) :
    State.Led κ ρ s (s.liveWrite w) := State.led_of (by simp [State.liveWrite, hg])

@[simp ↓] theorem State.liveWrites_led (hw : Piece.writes ∉ κ) (hg : Piece.grants ∉ κ) :
    State.Led κ ρ s s.liveWrites :=
  State.led_of (by simp [State.liveWrites, State.setWrites_led _ hw, hg])

@[simp ↓] theorem State.tryReady_led : State.Led κ ρ s s.tryReady := State.led_of (by simp [State.tryReady])

@[simp ↓] theorem State.answerGrants_led (hg : Piece.grants ∉ κ) : State.Led κ ρ s s.answerGrants :=
  State.led_of (by simp [State.answerGrants, State.setGrants_led _ hg])

@[simp ↓] theorem State.servePeer_led (q : PeerRequest) : State.Led κ ρ s (s.servePeer q) := by
  have hreads : s.peerTypes q.port ⊆ [0x10, 0x14, 0x18, 0x1A] := by
    unfold State.peerTypes; split <;> simp
  refine State.led_of ?_
  unfold State.servePeer
  have hserve : s.leads κ _ := s.serve_leads_of_reads (.peer q.port) q.dg hreads
  split
  · next h => exact (State.leads_of_eq h hserve).trans (by simp)
  · next h => exact State.leads_of_eq h hserve

@[simp ↓] theorem State.servePeers_led : State.Led κ ρ s s.servePeers := State.led_of (by simp [State.servePeers])
@[simp ↓] theorem State.serveCores_led : State.Led κ ρ s s.serveCores := State.led_of (by simp [State.serveCores])

/-- The work of a tick takes no write and asks for no grant. -/
@[simp ↓] theorem State.pilotWork_led : State.Led κ ρ s s.pilotWork := State.led_of (by simp [State.pilotWork])

@[simp ↓] theorem State.pilotEdge_led (hw : Piece.writes ∉ κ) (hg : Piece.grants ∉ κ) : State.Led κ ρ s s.pilotEdge :=
  State.led_of (by simp [State.pilotEdge, hw, hg])

/-- The tick counter advances by one. -/
def State.nextTick : State := { s with tick := s.tick + 1 }

theorem State.idleTick_eq {s : State} (h : s.pkg ≠ pkgOff) :
    s.idleTick = s.settleSnapshots.nextTick.countThrottled.pilotEdge.pilotWork := by
  unfold State.idleTick; rw [if_neg h]; rfl

theorem State.idleTick_off {s : State} (h : s.pkg = pkgOff) : s.idleTick = s := by simp [State.idleTick, h]

theorem State.nextTick_frame : changesOnly [.tick] s s.nextTick := by
  intro f hf; cases f <;> simp at hf <;> rfl

/-- Until the counter advances, and from then on. -/
theorem State.idleTick_leads {s : State} (h : s.pkg ≠ pkgOff) (hw : Piece.writes ∉ κ) (hg : Piece.grants ∉ κ) :
    s.leads κ s.settleSnapshots ∧ s.settleSnapshots.nextTick.leads κ s.idleTick := by
  rw [State.idleTick_eq h]
  exact ⟨by simp, by simp [hw, hg]⟩

theorem State.idleTick_sound {s : State} (h : s.sound) : s.idleTick.sound := by
  by_cases hoff : s.pkg = pkgOff
  · rwa [State.idleTick_off hoff]
  · obtain ⟨hsnap, hrest⟩ := State.idleTick_leads (κ := []) hoff (by simp) (by simp)
    exact hrest.2.2 (hsnap.2.2 h)

end

theorem step_of_pending {s : State} {c : Instr} {rest : List Instr} (h : s.pending = c :: rest) :
    step s = exec c { s with pending := rest } := by simp [step, h]

theorem step_of_idle {s : State} (h : s.pending = []) : step s = .next s.idleTick := by simp [step, h]

/-- Settles O5: a command keeps a sound state sound (`exec_sound`), and so does a tick (`idleTick_sound`); the queue has no
part in it. -/
theorem stepKeepsSound : Obligations.StepKeepsSound := by
  intro s t hs ht
  cases hq : s.pending with
  | nil =>
    rw [show Machine.step s = .next s.idleTick from step_of_idle hq] at ht
    cases ht
    exact State.idleTick_sound hs
  | cons c rest =>
    exact exec_sound (show State.sound { s with pending := rest } from hs) ((step_of_pending hq).symm.trans ht)

/-! ### What the writes of the dictionary leave -/

section
variable {s t u : State} {ks ls : List (Nat × Nat)}

theorem registersBut.trans (h : registersBut ks s t) (h' : registersBut ks t u) : registersBut ks s u :=
  fun i j hj hk => (h' i j hj hk).trans (h i j hj hk)

theorem registersBut.mono (h : registersBut ks s t) (hk : ks ⊆ ls) : registersBut ls s t :=
  fun i j hj hl => h i j hj fun hm => hl (hk hm)

theorem registersBut.of_dict (h : t.dict = s.dict) : registersBut ks s t := fun i j _ _ => by
  rw [State.obj, State.obj, h]

theorem registersBut.val (h : registersBut ks s t) {i j : Nat} (hj : j < 256) (hk : (i, j) ∉ ks) : t.val i j = s.val i j :=
  congrArg Octets.bits (h i j hj hk)

theorem State.setVal_registers (s : State) {i j : Nat} (v : Nat) (hj : j < 256) :
    registersBut [(i, j)] s (s.setVal i j v) := fun k l hl hk =>
  State.obj_setObj_other s _ fun hkey => hk (by obtain ⟨rfl, rfl⟩ := objKey_inj hl hj hkey; simp)

end

/-! ### What a tick leaves -/

section
variable {s : State}

/-- The pieces that the statement about a tick keeps. -/
def tickKeeps : List Piece :=
  [.pending, .ident, .sessions, .heard, .remoteNum, .mgmtRate, .mgmtSince, .i3cAddr, .ibien, .hellos]

theorem State.idleTick_tick (h : s.pkg ≠ pkgOff) : s.idleTick.tick = s.tick + 1 := by
  obtain ⟨hsnap, hrest⟩ := State.idleTick_leads h (show Piece.writes ∉ [] by simp) (by simp)
  exact hrest.1.trans (congrArg (· + 1) hsnap.1)

theorem State.idleTick_keeps (h : s.pkg ≠ pkgOff) : keeps tickKeeps s s.idleTick := by
  intro f hf
  obtain ⟨hsnap, hrest⟩ := State.idleTick_leads h (show Piece.writes ∉ tickKeeps by decide) (by decide)
  have hapart : f ∈ apartPieces := (show tickKeeps ⊆ apartPieces by decide) hf
  have htick : f ∉ [.tick] := fun hm => absurd ((List.mem_singleton.mp hm) ▸ hf) (by decide)
  exact Piece.same_trans (hsnap.2.1 f hapart hf)
    (Piece.same_trans (State.nextTick_frame _ f htick) (hrest.2.1 f hapart hf))

theorem State.leads.writes {s t : State} (h : s.leads [.writes] t) : t.writes = s.writes :=
  h.2.1 .writes (by decide) (by simp)

theorem State.leads.grants {s t : State} (h : s.leads [.grants] t) : t.grants = s.grants :=
  h.2.1 .grants (by decide) (by simp)

/-- The edge takes up every accepted write, and what comes after it in the tick accepts none. -/
theorem State.idleTick_writes (h : s.pkg ≠ pkgOff) : s.idleTick.writes = [] := by
  rw [State.idleTick_eq h]
  set u := s.settleSnapshots.nextTick.countThrottled.flipWaiting
  have hlive : State.leads [.writes] { u with writes := [] } u.liveWrites :=
    State.foldl_leads (fun t w => by simp) _ _
  have hrest : u.liveWrites.leads [.writes] u.liveWrites.tryReady.answerGrants.pilotWork := by simp
  exact hrest.writes.trans hlive.writes

/-- The edge answers every grant asked for, and what comes after it in the tick asks for none. -/
theorem State.idleTick_grants (h : s.pkg ≠ pkgOff) : s.idleTick.grants = [] := by
  rw [State.idleTick_eq h]
  set u := s.settleSnapshots.nextTick.countThrottled.flipWaiting.liveWrites.tryReady
  have hgrant : State.leads [.grants] { u with grants := [] } u.answerGrants :=
    State.foldl_leads (fun t m => by simp) _ _
  have hwork : u.answerGrants.leads [.grants] u.answerGrants.pilotWork := by simp
  exact hwork.grants.trans hgrant.grants

end

/-! ### A tick with nothing waiting -/

section
variable {s : State}

theorem State.flipReady_idle (h : s.deferred = []) : s.flipReady = s := by simp [State.flipReady, h]

theorem State.flipWaiting_idle (hc : s.commits = []) (hd : s.deferred = []) : s.flipWaiting = s := by
  simp [State.flipWaiting, State.flipReady_idle hd, State.passed, hc]

theorem State.liveWrites_idle (h : s.writes = []) : s.liveWrites = s := by
  have hclear : ({ s with writes := [] } : State) = s := by rw [← h]
  rwa [State.liveWrites, h]

theorem State.tryReady_idle (h : s.fw.ready = false) : s.tryReady = s := by simp [State.tryReady, h]

theorem State.answerGrants_idle (h : s.grants = []) : s.answerGrants = s := by
  have hclear : ({ s with grants := [] } : State) = s := by rw [← h]
  rwa [State.answerGrants, h]

theorem State.servePeers_idle (h : s.peerMail = []) : s.servePeers = s := by
  have hclear : ({ s with peerMail := [] } : State) = s := by rw [← h]
  simp [State.servePeers, h, hclear]

theorem State.serveRemotes_idle (h : s.remote = []) : s.serveRemotes = s := by
  simp [State.serveRemotes, h, State.runRemotes]

theorem State.serveCores_idle (h : s.coreLoads = []) : s.serveCores = s := by
  have hclear : ({ s with coreLoads := [] } : State) = s := by rw [← h]
  rwa [State.serveCores, h]

theorem State.plan_of_none (h : s.plans = []) (k : Nat) : s.plan k = {} := by simp [State.plan, h]

theorem State.resumeShards_idle (h : s.plans = []) : s.resumeShards = s := by
  unfold State.resumeShards
  exact List.foldl_fixed' (fun k => by simp [State.plan_of_none h]) _

theorem State.takeSnapshots_idle (h : s.snapRing.recs = []) : s.takeSnapshots = s := by
  have hclear : ({ s with snapRing := { s.snapRing with recs := [] } } : State) = s := by rw [← h]
  rwa [State.takeSnapshots, h]

theorem State.settleSnapshots_idle (h : s.snapRing.recs = []) (ht : s.tick < msTicks) : s.settleSnapshots = s := by
  simp [State.settleSnapshots, ht, State.takeSnapshots_idle h]

theorem State.countThrottled_frame (s : State) : changesOnly [.dict] s s.countThrottled := by
  unfold State.countThrottled
  dsimp only
  split <;> split
  · exact changesOnly.trans (State.bump_frame _ _ _ _) (State.bump_frame _ _ _ _)
  · exact State.bump_frame _ _ _ _
  · exact State.bump_frame _ _ _ _
  · exact changesOnly.refl _ s

/-- Nothing waits for the edge: the counters are all that the tick touches. -/
theorem State.idleTick_quiet (hoff : s.pkg ≠ pkgOff) (h : quietEdge s) :
    s.idleTick = s.nextTick.countThrottled.pushNew := by
  obtain ⟨hwrites, hcommits, hdeferred, hgrants, hremote, hpeer, hloads, hplans, -, hsnap, htick, hready⟩ := h
  rw [State.idleTick_eq hoff, State.settleSnapshots_idle hsnap htick]
  have hu : changesOnly [.tick, .dict] s s.nextTick.countThrottled :=
    (s.nextTick_frame.mono (by simp)).trans ((State.countThrottled_frame _).mono (by simp))
  set u := s.nextTick.countThrottled
  have hedge : u.pilotEdge = u := by
    rw [State.pilotEdge, State.flipWaiting_idle ((hu .commits (by decide)).trans hcommits)
        ((hu .deferred (by decide)).trans hdeferred),
      State.liveWrites_idle ((hu .writes (by decide)).trans hwrites),
      State.tryReady_idle ((congrArg Firmware.ready (hu .fw (by decide))).trans hready),
      State.answerGrants_idle ((hu .grants (by decide)).trans hgrants)]
  rw [hedge, State.pilotWork, State.servePeers_idle ((hu .peerMail (by decide)).trans hpeer),
    State.serveRemotes_idle ((hu .remote (by decide)).trans hremote),
    State.serveCores_idle ((hu .coreLoads (by decide)).trans hloads),
    State.resumeShards_idle ((hu .plans (by decide)).trans hplans)]

/-- With no session subscribed, pushing sends nothing. -/
theorem State.pushNew_frame_of_no_session (h : s.sessions = []) : changesOnly [.rings] s s.pushNew := by
  unfold State.pushNew
  dsimp only
  split
  · exact changesOnly.refl _ s
  · rw [h]
    exact State.setRing_frame _ _ _

/-- A counter that counts on a condition, and nothing else. -/
theorem State.ite_bump_obj (s : State) (c : Prop) [Decidable c] {i j : Nat} (n : Nat) (hj : j < 256) :
    registersBut [(i, j)] s (if c then s.bump i j n else s) ∧
      (if c then counts s (if c then s.bump i j n else s) i j n
        else (if c then s.bump i j n else s).obj i j = s.obj i j) := by
  split
  · exact ⟨s.setVal_registers _ hj, s.val_bump_same i j n⟩
  · exact ⟨fun _ _ _ _ => rfl, rfl⟩

/-- What a tick counts (R439, R440). -/
theorem State.countThrottled_obj (s : State) :
    registersBut [(0x2100, 3), (0x2200, 4)] s s.countThrottled ∧
      (if s.power.cap < 64 then counts s s.countThrottled 0x2100 3 1
        else s.countThrottled.obj 0x2100 3 = s.obj 0x2100 3) ∧
      (if s.val 0x2200 5 < 64 then counts s s.countThrottled 0x2200 4 1
        else s.countThrottled.obj 0x2200 4 = s.obj 0x2200 4) := by
  obtain ⟨hbut, hcap⟩ := s.ite_bump_obj (s.power.cap < 64) 1 (show 3 < 256 by decide)
  set t := if s.power.cap < 64 then s.bump 0x2100 3 1 else s with ht
  obtain ⟨hbut', hhot⟩ := t.ite_bump_obj (s.val 0x2200 5 < 64) 1 (show 4 < 256 by decide)
  have heq : s.countThrottled = if s.val 0x2200 5 < 64 then t.bump 0x2200 4 1 else t := by
    simp [State.countThrottled, ht]
  rw [heq]
  set u := if s.val 0x2200 5 < 64 then t.bump 0x2200 4 1 else t
  have hcapped : u.obj 0x2100 3 = t.obj 0x2100 3 := hbut' _ _ (by decide) (by decide)
  have hheat : t.obj 0x2200 4 = s.obj 0x2200 4 := hbut _ _ (by decide) (by decide)
  have hval : t.val 0x2200 4 = s.val 0x2200 4 := congrArg Octets.bits hheat
  refine ⟨fun i j hj hij => ?_, ?_, ?_⟩
  · simp only [List.mem_cons, List.not_mem_nil, or_false, not_or] at hij
    exact (hbut' i j hj (by simp [hij.2])).trans (hbut i j hj (by simp [hij.1]))
  · simpa only [counts, State.val, hcapped] using hcap
  · simpa only [counts, hval, hheat] using hhot

/-- Settles O2, by the parts of a tick: the counters, the edge and the work of the firmware. -/
theorem idleTick : Obligations.IdleTick := by
  refine ⟨fun s hq hoff => ?_, fun s hq hon => ⟨s.idleTick, step_of_idle hq, State.idleTick_tick hon,
    State.idleTick_writes hon, State.idleTick_grants hon, State.idleTick_keeps hon⟩, fun s hq hon hquiet =>
    ⟨s.idleTick, step_of_idle hq, State.idleTick_tick hon, ?_⟩⟩
  · exact (step_of_idle hq).trans (by rw [State.idleTick_off hoff])
  rw [State.idleTick_quiet hon hquiet]
  obtain ⟨-, -, -, -, -, -, -, -, hsessions, -⟩ := hquiet
  have hcount := s.nextTick.countThrottled_frame
  have hpush := State.pushNew_frame_of_no_session ((hcount .sessions (by decide)).trans hsessions)
  obtain ⟨hbut, hcap, hhot⟩ := s.nextTick.countThrottled_obj
  set u := s.nextTick.countThrottled
  have hdict : ∀ i j, u.pushNew.obj i j = u.obj i j := fun i j => by
    rw [State.obj, State.obj, hpush .dict (by decide)]
  have hval : ∀ i j, u.pushNew.val i j = u.val i j := fun i j => congrArg Octets.bits (hdict i j)
  refine ⟨(s.nextTick_frame.mono (by simp)).trans ((hcount.mono (by simp)).trans (hpush.mono (by simp))),
    fun n => ?_, fun i j hj hij => (hdict i j).trans (hbut i j hj hij), ?_, ?_⟩
  · obtain ⟨p, hp⟩ := u.pushNew_ring n
    have hring : u.ring n = s.ring n := by rw [State.ring, hcount .rings (by decide)]; rfl
    simp [hp, hring]
  · simp only [counts, hval, hdict]
    exact hcap
  · simp only [counts, hval, hdict]
    exact hhot

end

/-! ### RECOVERY_IMAGE (R457) -/

section
variable {s : State} {image : Octets}

theorem State.setFw_frame (s : State) (f : Firmware) : changesOnly [.fw] s { s with fw := f } := by
  intro f hf; cases f <;> simp at hf <;> rfl

theorem State.putImage_frame (s : State) (kind b : Nat) (image : Octets) :
    changesOnly [.fw, .dict] s (s.putImage kind b image) :=
  ((s.setFw_frame _).mono (by simp)).trans ((State.setVal_frame _ _ _ _).mono (by simp))

theorem State.putImage_registers (s : State) (kind b : Nat) (image : Octets) :
    registersBut [(0x7000, 2)] s (s.putImage kind b image) :=
  (registersBut.of_dict rfl).trans (State.setVal_registers _ _ (by decide))

/-- The state with a pilot image in bank A, marked preferred, and the ROM out of recovery. -/
def State.recovered (s : State) (image : Octets) : State :=
  { s.putImage 0 0 image with fw := { (s.putImage 0 0 image).fw with recovery := false } }

theorem State.recovered_frame (s : State) (image : Octets) : changesOnly [.fw, .dict] s (s.recovered image) :=
  (s.putImage_frame 0 0 image).trans ((State.setFw_frame _ _).mono (by simp))

theorem State.recovered_registers (s : State) (image : Octets) : registersBut [(0x7000, 2)] s (s.recovered image) :=
  (s.putImage_registers 0 0 image).trans (registersBut.of_dict rfl)

theorem State.recovered_bank (s : State) (image : Octets) : (s.recovered image).bank 0 0 = { image := image } :=
  FMap.get_put_same _ _ _ _

/-- Running a bank of the pilot firmware reports its version, its SVN and its number. -/
theorem State.runBank_registers (s : State) (b : Nat) :
    registersBut [(0x1010, 2), (0x7000, 5), (0x2500, 5)] s (s.runBank 0 b) :=
  (((State.setVal_registers s _ (by decide)).mono (by simp)).trans
    ((State.setVal_registers _ _ (by decide)).mono (by simp))).trans
      ((State.setVal_registers _ _ (by decide)).mono (by simp))

theorem State.runBank_frame (s : State) (b : Nat) : changesOnly [.dict] s (s.runBank 0 b) :=
  ((State.setVal_frame _ _ _ _).trans (State.setVal_frame _ _ _ _)).trans (State.setVal_frame _ _ _ _)

theorem State.runPilot_registers (s : State) (b : Nat) :
    registersBut [(0x1010, 2), (0x7000, 5), (0x2500, 5)] s (s.runPilot b) :=
  (s.runBank_registers b).trans (registersBut.of_dict rfl)

theorem State.runPilot_frame (s : State) (b : Nat) : changesOnly [.fw, .dict] s (s.runPilot b) :=
  ((s.runBank_frame b).mono (by simp)).trans ((State.setFw_frame _ _).mono (by simp))

theorem State.runPilot_fw (s : State) (b : Nat) : (s.runPilot b).fw = { s.fw with serviced := s.tick } := rfl

theorem State.runPilot_bankNumber (s : State) (b : Nat) : (s.runPilot b).val 0x2500 5 = b % 2 ^ (8 * objLen 0x2500 5) :=
  State.val_setVal_same _ _ _ _

theorem execRecoveryImage_invalid (h : s.imageFault 0 image ≠ 0) : execRecoveryImage image s = .next s := by
  simp [execRecoveryImage, guardEvent, h]

theorem execRecoveryImage_valid (hrec : s.fw.recovery = true) (h : s.imageFault 0 image = 0) :
    execRecoveryImage image s = .next (if 2 ≤ s.val 0x2500 1 then ((s.recovered image).runPilot 0).postPilot 0x2A10 []
      else ((s.recovered image).setVal 0x2500 1 1).setVal 0x2500 2 0) := by
  rw [← (s.recovered_registers image).val (show 1 < 256 by decide) (by decide)]
  exact if_pos (show (s.fw.recovery && s.imageFault 0 image == 0) = true by simp [hrec, h])

/-- Where start-up had not passed step 1, it resumes after it. -/
theorem recovered_resumes (s : State) (image : Octets) :
    let u := ((s.recovered image).setVal 0x2500 1 1).setVal 0x2500 2 0
    u.fw.recovery = false ∧ u.bank 0 0 = { image := image } ∧ u.val 0x2500 1 = 1 ∧ u.val 0x2500 2 = 0 ∧
      registersBut [(0x7000, 2), (0x2500, 1), (0x2500, 2)] s u ∧ changesOnly [.fw, .dict, .rings] s u := by
  have hstep : registersBut [(0x2500, 2)] ((s.recovered image).setVal 0x2500 1 1) _ :=
    State.setVal_registers _ 0 (by decide)
  refine ⟨rfl, s.recovered_bank image, ?_, ?_, ?_, ?_⟩
  · rw [hstep.val (by decide) (by decide), State.val_setVal_same]
    decide
  · simp
  · exact ((s.recovered_registers image).mono (by simp)).trans
      (((State.setVal_registers _ 1 (by decide)).mono (by simp)).trans (hstep.mono (by simp)))
  · exact ((s.recovered_frame image).mono (by simp)).trans
      (((State.setVal_frame _ _ _ _).trans (State.setVal_frame _ _ _ _)).mono (by simp))

/-- Where the package had booted, the firmware of bank A runs. -/
theorem recovered_runs (s : State) (image : Octets) :
    let u := ((s.recovered image).runPilot 0).postPilot 0x2A10 []
    u.fw.recovery = false ∧ u.bank 0 0 = { image := image } ∧ u.val 0x2500 5 = 0 ∧ u.fw.serviced = s.tick ∧
      registersBut [(0x7000, 2), (0x1010, 2), (0x7000, 5), (0x2500, 5)] s u ∧
      changesOnly [.fw, .dict, .rings] s u := by
  intro u
  have hrun := (s.recovered image).runPilot_fw 0
  have hregs := (s.recovered image).runPilot_registers 0
  have hnum := (s.recovered image).runPilot_bankNumber 0
  have hframe := (s.recovered image).runPilot_frame 0
  have hpost : changesOnly [.rings] ((s.recovered image).runPilot 0) u := State.postPilot_frame _ _ _
  generalize (s.recovered image).runPilot 0 = t at *
  have hfw : u.fw = { (s.recovered image).fw with serviced := s.tick } := (hpost .fw (by decide)).trans hrun
  have hdict : u.dict = t.dict := hpost .dict (by decide)
  refine ⟨by rw [hfw]; rfl, ?_, ?_, by rw [hfw], ?_, ?_⟩
  · rw [State.bank, hfw]
    exact s.recovered_bank image
  · rw [State.val, State.obj, hdict]
    exact hnum.trans (by simp)
  · exact ((s.recovered_registers image).mono (by simp)).trans
      ((hregs.mono (by simp)).trans (registersBut.of_dict hdict))
  · exact ((s.recovered_frame image).mono (by simp)).trans
      ((hframe.mono (by simp)).trans (hpost.mono (by simp)))

/-- What RECOVERY_IMAGE leaves. -/
theorem execRecoveryImage_spec (hrec : s.fw.recovery = true) : ∃ u, execRecoveryImage image s = .next u ∧
    (if s.imageFault 0 image ≠ 0 then u = s else u.fw.recovery = false ∧ u.bank 0 0 = { image := image } ∧
      (s.val 0x2500 1 < 2 → u.val 0x2500 1 = 1 ∧ u.val 0x2500 2 = 0 ∧
        registersBut [(0x7000, 2), (0x2500, 1), (0x2500, 2)] s u) ∧
      (2 ≤ s.val 0x2500 1 → u.val 0x2500 5 = 0 ∧ u.fw.serviced = s.tick ∧
        registersBut [(0x7000, 2), (0x1010, 2), (0x7000, 5), (0x2500, 5)] s u)) ∧
    changesOnly [.fw, .dict, .rings] s u := by
  by_cases hvalid : s.imageFault 0 image = 0
  case neg => exact ⟨s, execRecoveryImage_invalid hvalid, by rw [if_pos hvalid], changesOnly.refl _ s⟩
  simp only [execRecoveryImage_valid hrec hvalid, if_neg (show ¬ s.imageFault 0 image ≠ 0 from not_not.mpr hvalid)]
  by_cases hstep : 2 ≤ s.val 0x2500 1
  · obtain ⟨hdone, hbank, hnum, hserviced, hregs, hframe⟩ := recovered_runs s image
    exact ⟨_, by rw [if_pos hstep], ⟨hdone, hbank, fun h => absurd hstep (by omega), fun _ =>
      ⟨hnum, hserviced, hregs⟩⟩, hframe⟩
  · obtain ⟨hdone, hbank, hone, hzero, hregs, hframe⟩ := recovered_resumes s image
    exact ⟨_, by rw [if_neg hstep], ⟨hdone, hbank, fun _ => ⟨hone, hzero, hregs⟩, fun h => absurd h hstep⟩,
      hframe⟩

end

/-! ### The package reset (Table 13.7) -/

theorem FMap.get_filter {α : Type} (m : FMap α) (p : Nat × α → Bool) {k : Nat} (d : α) (h : ∀ v, p (k, v) = true) :
    FMap.get (m.filter p) k d = FMap.get m k d := by
  induction m with
  | nil => rfl
  | cons e r ih =>
    obtain ⟨j, v⟩ := e
    by_cases hj : j = k
    · subst hj
      simp [h, FMap.get]
    · cases hp : p (j, v) <;> simp [hp, FMap.get, hj, ih]

section
variable {s : State}

theorem State.setPlan_frame (s : State) (k : Nat) (x : Plan) : changesOnly [.plans, .dict] s (s.setPlan k x) := by
  have hplans : changesOnly [.plans] s { s with plans := FMap.set s.plans k {} x } := by
    intro f hf; cases f <;> simp at hf <;> rfl
  exact (hplans.mono (by simp)).trans
    (((State.setVal_frame _ _ _ _).trans (State.setVal_frame _ _ _ _)).mono (by simp))

/-- The pieces outside the pilot domain. -/
def fabricPieces : List Piece :=
  [.mem, .poisoned, .grad, .panes, .trims, .lines, .uses, .directory, .openRows, .heldReqs, .hotSince, .trackers, .streams,
    .hot, .hbm, .lantern, .plans, .holds, .sent, .masts, .grants, .silent, .remote, .coreLoads, .bondSince, .ports, .rats,
    .flows, .mailSlots, .mailbox, .peerMail]

theorem State.loseFabric_frame (s : State) : changesOnly (.dict :: fabricPieces) s s.loseFabric := by
  have hplans := changesOnly.foldl (fun (s : State) (e : Nat × Plan) => s.setPlan e.1 {})
    (fun s e => s.setPlan_frame e.1 {}) s.plans s
  refine (hplans.mono (by decide)).trans ?_
  intro f hf
  cases f <;> simp [fabricPieces] at hf <;> rfl

theorem State.darkFabric_frame (s : State) : changesOnly [.dict] s s.darkFabric :=
  ((State.setVal_frame _ _ _ _).trans (State.setVal_frame _ _ _ _)).trans (State.setVal_frame _ _ _ _)

/-- What a package reset clears of the pilot domain, on a state that the fabric has lost. -/
def State.clearPilot (s : State) : State :=
  { s with dict := s.dict.filter fun (e : Nat × Octets) => keptObject e.1, parts := [], snaps := [],
           snapRing := { s.snapRing with recs := [], last := [] }, domains := [], carve := s.val 0x7040 1,
           power := { s.power with cap := 64, above := 0, atOne := 0, posted := false },
           fw := { s.fw with ready := false } }

/-- The values from which start-up goes on. -/
def State.startValues (s : State) (key : Nat) : State :=
  let s := (s.setPart packageKeyPlace { key := key }).bump 0x3400 17 1
  let s := (List.range 16).foldl (fun s d => s.goDomain d (if s.val 0x2400 (d + 1) = 1 then 2 else 0)) s
  let s := ((s.setVal 0x2500 1 2).setVal 0x2500 2 0).setVal 0x2500 4 0
  s.setVal 0x2100 2 (min 64 (s.val 0x2200 5))

theorem State.resetPackage_eq (s : State) :
    s.resetPackage = ((s.loseFabric.darkFabric.draw 64).2.clearPilot.startValues
      (s.loseFabric.darkFabric.draw 64).1).setVal 0x2000 1 pkgBooting := rfl

theorem State.clearPilot_frame (s : State) :
    changesOnly [.dict, .parts, .snaps, .snapRing, .domains, .carve, .power, .fw] s s.clearPilot := by
  intro f hf; cases f <;> simp at hf <;> rfl

theorem State.startValues_frame (s : State) (key : Nat) : changesOnly [.parts, .dict] s (s.startValues key) := by
  have hset {i j v : Nat} (t : State) : changesOnly [.parts, .dict] t (t.setVal i j v) :=
    (t.setVal_frame i j v).mono (by simp)
  have hpart : changesOnly [.parts, .dict] s ((s.setPart packageKeyPlace { key := key }).bump 0x3400 17 1) :=
    ((s.setPart_frame _ _).mono (by simp)).trans ((State.bump_frame _ _ _ _).mono (by simp))
  have hdoms := hpart.trans (changesOnly.foldl
    (fun (s : State) d => s.goDomain d (if s.val 0x2400 (d + 1) = 1 then 2 else 0)) (fun t _ => hset t) (List.range 16) _)
  exact (((hdoms.trans (hset _)).trans (hset _)).trans (hset _)).trans (hset _)

/-- The pieces that a package reset changes. -/
def resetPieces : List Piece :=
  fabricPieces ++ [.draws, .dict, .parts, .snaps, .snapRing, .domains, .carve, .power, .fw]

theorem State.resetPackage_frame (s : State) : changesOnly resetPieces s s.resetPackage := by
  have hlose : changesOnly resetPieces s s.loseFabric.darkFabric :=
    (s.loseFabric_frame.mono (by decide)).trans (s.loseFabric.darkFabric_frame.mono (by decide))
  have hdraw := hlose.trans ((State.draw_frame _ 64).mono (by decide))
  have hclear := hdraw.trans ((State.clearPilot_frame _).mono (by decide))
  exact (hclear.trans ((State.startValues_frame _ _).mono (by decide))).trans
    ((State.setVal_frame _ _ _ _).mono (by decide))

/-- The state of a package reset whose values are not yet set: the fabric lost, the pilot domain cleared. -/
def State.resetCleared (s : State) : State := (s.loseFabric.darkFabric.draw 64).2.clearPilot

theorem State.resetPackage_frame_of_cleared (s : State) : changesOnly [.parts, .dict] s.resetCleared s.resetPackage :=
  (State.startValues_frame _ _).trans ((State.setVal_frame _ _ _ _).mono (by simp))

theorem State.resetPackage_fw (s : State) : s.resetPackage.fw = { s.fw with ready := false } := by
  have hlose : s.loseFabric.fw = s.fw := s.loseFabric_frame .fw (by decide)
  have hclear : s.resetCleared.fw = { s.loseFabric.fw with ready := false } := rfl
  exact (s.resetPackage_frame_of_cleared .fw (by decide)).trans (by rw [hclear, hlose])

theorem State.resetPackage_pkg (s : State) : s.resetPackage.pkg = pkgBooting :=
  (State.val_setVal_same _ _ _ _).trans (by decide)

/-! ### The open debug scopes through a package reset -/

/-- No debug scope is open. -/
def State.debugShut (s : State) : Prop := s.val 0x7080 4 = 0

/-- No write opens one but a write of another value to 7080h:04. -/
theorem State.debugShut.setVal (h : s.debugShut) {i j v : Nat} (hj : j < 256) (hv : (i, j) ≠ (0x7080, 4) ∨ v = 0) :
    (s.setVal i j v).debugShut := by
  rcases hv with hkey | rfl
  · exact ((s.setVal_registers v hj).val (by decide) (by simpa using Ne.symm hkey)).trans h
  · by_cases hkey : (0x7080, 4) = (i, j)
    · cases hkey
      exact (State.val_setVal_same _ _ _ _).trans (Nat.zero_mod _)
    · exact ((s.setVal_registers 0 hj).val (by decide) (by simpa using hkey)).trans h

theorem State.debugShut.of_dict {t : State} (h : s.debugShut) (hdict : t.dict = s.dict) : t.debugShut := by
  rwa [State.debugShut, State.val, State.obj, hdict]

theorem State.debugShut.foldl {β : Type} {f : State → β → State} {l : List β} (h : s.debugShut)
    (hf : ∀ b ∈ l, ∀ t : State, t.debugShut → (f t b).debugShut) : (l.foldl f s).debugShut :=
  List.foldlRecOn l f h fun t ht b hb => hf b hb t ht

theorem State.debugShut.setPlan_empty (h : s.debugShut) (k : Nat) : (s.setPlan k {}).debugShut := by
  have hplans : State.debugShut { s with plans := FMap.set s.plans k {} {} } := h.of_dict rfl
  exact (hplans.setVal (by decide) (.inl (by simp))).setVal (by decide) (.inr rfl)

theorem State.debugShut.loseFabric (h : s.debugShut) : s.loseFabric.debugShut := by
  have hplans : (s.plans.foldl (fun s e => s.setPlan e.1 {}) s).debugShut :=
    h.foldl fun e _ t ht => ht.setPlan_empty e.1
  exact hplans.of_dict rfl

theorem State.debugShut.clearPilot (h : s.debugShut) : s.clearPilot.debugShut := by
  have hget : s.clearPilot.obj 0x7080 4 = s.obj 0x7080 4 :=
    FMap.get_filter s.dict (fun e => keptObject e.1) _ fun _ =>
      show keptObject (objKey 0x7080 4) = true by decide
  exact (congrArg Octets.bits hget).trans h

theorem State.debugShut.startValues (h : s.debugShut) (key : Nat) : (s.startValues key).debugShut := by
  unfold State.startValues
  have hpart : ((s.setPart packageKeyPlace { key := key }).bump 0x3400 17 1).debugShut :=
    State.debugShut.setVal (h.of_dict rfl) (by decide) (.inl (by decide))
  have hdoms : ((List.range 16).foldl (fun (s : State) d => s.goDomain d (if s.val 0x2400 (d + 1) = 1 then 2 else 0))
      ((s.setPart packageKeyPlace { key := key }).bump 0x3400 17 1)).debugShut := hpart.foldl fun d hd t ht =>
    ht.setVal (by have := List.mem_range.mp hd; omega) (.inl (by simp))
  exact (((hdoms.setVal (by decide) (.inl (by decide))).setVal (by decide) (.inl (by decide))).setVal
    (by decide) (.inl (by decide))).setVal (by decide) (.inl (by decide))

theorem State.debugShut.resetPackage (h : s.debugShut) : s.resetPackage.debugShut := by
  have hdark : s.loseFabric.darkFabric.debugShut :=
    ((h.loseFabric.setVal (by decide) (.inl (by decide))).setVal (by decide) (.inl (by decide))).setVal
      (by decide) (.inl (by decide))
  have hclear : s.resetCleared.debugShut := State.debugShut.clearPilot (hdark.of_dict rfl)
  exact (hclear.startValues _).setVal (by decide) (.inl (by decide))

end

/-! ### DEBUG_LIFE_EXPIRY (R462) -/

section
variable {s : State}

/-- With no reset in progress, one that begins absorbs nothing and is absorbed by none (R450). -/
theorem State.beginReset_first (kind scope before : Nat) (act : State → State) (h : s.resets = []) :
    s.beginReset kind scope before act =
      { act (s.postReset 0x2610 kind scope []) with resets := (act (s.postReset 0x2610 kind scope [])).resets ++
          [{ kind := kind, scope := scope, before := before,
             since := (act (s.postReset 0x2610 kind scope [])).tick, absorbed := 0 }] } := by
  have hclear : ({ s with resets := [] } : State) = s := by rw [← h]
  simp [State.beginReset, h, hclear]

/-- The open scopes closed, before the package reset begins. -/
def State.scopesClosed (s : State) (cause : Nat) : State :=
  (({ s with fw := { s.fw with life := none } }.setVal 0x7080 4 0).postPilot 0x7422 [(1, cause)]).postReset
    0x2610 1 0 []

theorem State.scopesClosed_frame (s : State) (cause : Nat) : changesOnly [.fw, .dict, .rings] s (s.scopesClosed cause) :=
  ((s.setFw_frame _).mono (by simp)).trans (((State.setVal_frame _ _ _ _).mono (by simp)).trans
    (((State.postPilot_frame _ _ _).mono (by simp)).trans ((State.post_frame _ _).mono (by simp))))

theorem State.scopesClosed_frame_of_set (s : State) (cause : Nat) :
    changesOnly [.rings] ({ s with fw := { s.fw with life := none } }.setVal 0x7080 4 0) (s.scopesClosed cause) :=
  (State.postPilot_frame _ _ _).trans (State.post_frame _ _)

theorem State.scopesClosed_life (s : State) (cause : Nat) : (s.scopesClosed cause).fw.life = none :=
  congrArg Firmware.life (s.scopesClosed_frame_of_set cause .fw (by decide))

theorem State.scopesClosed_shut (s : State) (cause : Nat) : (s.scopesClosed cause).debugShut :=
  State.debugShut.of_dict ((State.val_setVal_same _ _ _ _).trans (Nat.zero_mod _))
    (s.scopesClosed_frame_of_set cause .dict (by decide))

/-- Closing the scopes with no reset in progress begins a package reset. -/
theorem State.closeDebug_first (cause : Nat) (h : s.resets = []) :
    s.closeDebug cause = { (s.scopesClosed cause).resetPackage with
      resets := [{ kind := 1, scope := 0, before := 0, since := s.tick, absorbed := 0 }] } := by
  have hreset : changesOnly resetPieces _ (s.scopesClosed cause).resetPackage := State.resetPackage_frame _
  have hclosed := s.scopesClosed_frame cause
  have hresets : (s.scopesClosed cause).resetPackage.resets = [] :=
    ((hreset .resets (by decide)).trans (hclosed .resets (by decide))).trans h
  have htick : (s.scopesClosed cause).resetPackage.tick = s.tick :=
    (hreset .tick (by decide)).trans (hclosed .tick (by decide))
  have hbefore :
      (({ s with fw := { s.fw with life := none } }.setVal 0x7080 4 0).postPilot 0x7422 [(1, cause)]).resets = [] :=
    (State.postPilot_frame _ _ _ .resets (by decide)).trans h
  have hfirst := State.beginReset_first 1 0 0 State.resetPackage hbefore
  rw [show State.postReset _ _ _ _ _ = s.scopesClosed cause from rfl, hresets, htick] at hfirst
  exact hfirst

/-- Every piece that the statement about DEBUG_LIFE_EXPIRY keeps. -/
def lifeKeeps : List Piece :=
  [.pending, .tick, .free, .outbox, .ident, .writes, .limits, .sessions, .stagers, .commits, .commitNum, .deferred,
    .accepted, .holdNum, .sentNum, .heard, .remoteNum, .mgmtRate, .mgmtSince, .i3cAddr, .ibien, .hellos]

theorem State.setResets_frame (s : State) (l : List Reset) : changesOnly [.resets] s { s with resets := l } := by
  intro f hf; cases f <;> simp at hf <;> rfl

theorem State.closeDebug_keeps (cause : Nat) (h : s.resets = []) : keeps lifeKeeps s (s.closeDebug cause) := by
  have hclosed : changesOnly (.resets :: .rings :: resetPieces) s (s.scopesClosed cause) :=
    (s.scopesClosed_frame cause).mono (by decide)
  have hreset := hclosed.trans ((State.resetPackage_frame _).mono (by decide))
  rw [State.closeDebug_first cause h]
  exact (hreset.trans ((State.setResets_frame _ _).mono (by decide))).keeps (by decide)

/-- What the end of a debug life leaves. -/
theorem State.closeDebug_spec (cause : Nat) (h : s.resets = []) :
    (s.closeDebug cause).val 0x7080 4 = 0 ∧ (s.closeDebug cause).fw.life = none ∧ (s.closeDebug cause).pkg = pkgBooting ∧
      (s.closeDebug cause).resets.length = 1 ∧ keeps lifeKeeps s (s.closeDebug cause) := by
  have hkeeps := State.closeDebug_keeps cause h
  have hshut := (s.scopesClosed_shut cause).resetPackage
  have hlife := (congrArg Firmware.life (State.resetPackage_fw _)).trans (s.scopesClosed_life cause)
  have hpkg := (s.scopesClosed cause).resetPackage_pkg
  rw [State.closeDebug_first cause h] at hkeeps ⊢
  generalize (s.scopesClosed cause).resetPackage = t at *
  exact ⟨hshut, hlife, hpkg, rfl, hkeeps⟩

theorem execDebugLifeExpiry_due {t : Nat} (hlife : s.fw.life = some t) (ht : t ≤ s.tick) :
    execDebugLifeExpiry s = .next (s.closeDebug 1) := by
  simp [execDebugLifeExpiry, hlife, guardEvent, ht]

end

/-! ### What sending out of a port changes -/

section
variable (s : State)

/-- The pieces that sending changes. -/
def sendPieces : List Piece := [.ports, .outbox]

theorem State.setPort_sends (p : Nat) (x : Port) : changesOnly sendPieces s (s.setPort p x) :=
  (s.setPort_frame p x).mono (by decide)

theorem State.emitFlit_sends (p : Nat) (f : StayFlit) : changesOnly sendPieces s (s.emitFlit p f) :=
  (s.emit_frame _ _ _ _).mono (by decide)

theorem State.sendControl_sends (p kind contents : Nat) : changesOnly sendPieces s (s.sendControl p kind contents) :=
  (s.setPort_sends _ _).trans (State.emitFlit_sends _ _ _)

theorem State.grantShared_sends (p : Nat) : changesOnly sendPieces s (s.grantShared p) := by
  unfold State.grantShared
  dsimp only
  split
  · exact changesOnly.refl _ s
  · exact s.setPort_sends _ _

theorem State.freeCredit_sends (p vc cls n : Nat) : changesOnly sendPieces s (s.freeCredit p vc cls n) :=
  ((s.setPort_sends _ _).trans (State.grantShared_sends _ _)).trans (State.sendControl_sends _ _ _ _)

theorem State.sendPiece_sends (p : Nat) (q : Queued) : changesOnly sendPieces s (s.sendPiece p q) :=
  (s.setPort_sends _ _).trans (State.emitFlit_sends _ _ _)

theorem State.sendFlit_sends (p : Nat) (q : Queued) : changesOnly sendPieces s (s.sendFlit p q) := by
  have hpieces (t : State) (g : Nat → Queued) (n : Nat) :
      changesOnly sendPieces t ((List.range n).foldl (fun t i => t.sendPiece p (g i)) t) :=
    changesOnly.foldl _ (fun t _ => t.sendPiece_sends p _) _ _
  exact changesOnly.ite (((s.setPort_sends _ _).trans (hpieces _ _ _)).trans (State.freeCredit_sends _ _ _ _ _))
    ((s.setPort_sends _ _).trans (hpieces _ _ _))

theorem State.pumpFrom_sends (p fuel : Nat) : changesOnly sendPieces s (s.pumpFrom p fuel) := by
  induction fuel generalizing s with
  | zero => exact changesOnly.refl _ s
  | succ fuel ih =>
    rw [State.pumpFrom]
    split
    · exact changesOnly.refl _ s
    · exact ((s.setPort_sends _ _).trans (State.sendFlit_sends _ _ _)).trans (ih _)

theorem State.pump_sends (p : Nat) : changesOnly sendPieces s (s.pump p) :=
  (s.pumpFrom_sends p _).trans (State.setPort_sends _ _ _)

theorem State.enqueue_sends (p : Nat) (qs : List Queued) : changesOnly sendPieces s (s.enqueue p qs) :=
  (s.setPort_sends _ _).trans (State.pump_sends _ _)

theorem State.sendPort_sends (p vc : Nat) (msg : Octets) : changesOnly sendPieces s (s.sendPort p vc msg) :=
  s.enqueue_sends _ _

theorem State.sendTo_sends (vc dst mark : Nat) (msg : Octets) : changesOnly sendPieces s (s.sendTo vc dst mark msg) := by
  unfold State.sendTo
  split
  · exact changesOnly.refl _ s
  · exact s.enqueue_sends _ _

theorem State.busyPeer_sends (q : PeerRequest) : changesOnly sendPieces s (s.busyPeer q) :=
  changesOnly.ite (s.sendPort_sends _ _ _) (s.sendTo_sends _ _ _ _)

end

/-! ### PILOT_RESTARTED (R43) -/

section
variable {s : State}

theorem State.mailReply_frame (s : State) (k : Nat) (d : Octets) : changesOnly [.mailbox] s (s.mailReply k d) := by
  intro f hf; cases f <;> simp at hf <;> rfl

/-- No request waits in the host mailbox and none in the peer mailbox. -/
def State.dropMail (s : State) : State := { s with mailSlots := [], peerMail := [] }

theorem State.dropMail_frame (s : State) : changesOnly [.mailSlots, .peerMail] s s.dropMail := by
  intro f hf; cases f <;> simp at hf <;> rfl

/-- The slots answered, then the partners. -/
theorem State.emptyMail_parts (s : State) :
    ∃ t, changesOnly [.mailbox] s t ∧ changesOnly sendPieces t.dropMail s.emptyMail :=
  ⟨_, changesOnly.foldl _ (fun t _ => t.mailReply_frame _ _) _ _, changesOnly.foldl _ (fun t q => t.busyPeer_sends q) _ _⟩

theorem State.emptyMail_frame (s : State) :
    changesOnly [.mailbox, .mailSlots, .peerMail, .ports, .outbox] s s.emptyMail := by
  obtain ⟨t, hslots, hpeers⟩ := s.emptyMail_parts
  exact ((hslots.mono (by simp)).trans (t.dropMail_frame.mono (by simp))).trans (hpeers.mono (by decide))

theorem State.emptyMail_empty (s : State) : s.emptyMail.mailSlots = [] ∧ s.emptyMail.peerMail = [] := by
  obtain ⟨t, -, hpeers⟩ := s.emptyMail_parts
  exact ⟨hpeers .mailSlots (by decide), hpeers .peerMail (by decide)⟩

/-- A commit dropped from those that wait. -/
def State.dropCommit (s : State) (num : Nat) : State := { s with commits := s.commits.filter fun c => c.num != num }

theorem State.dropCommit_frame (s : State) (num : Nat) : changesOnly [.commits] s (s.dropCommit num) := by
  intro f hf; cases f <;> simp at hf <;> rfl

theorem State.setRec_frame (s : State) (num : Nat) (g : CommitRec → CommitRec) :
    changesOnly [.stagers] s (s.setRec num g) := by
  intro f hf; cases f <;> simp at hf <;> rfl

theorem State.postCommit_frame (s : State) (code stager : Nat) (d : List (Nat × Nat)) :
    changesOnly [.rings] s (s.postCommit code stager d) := changesOnly.foldl _ (fun t _ => t.post_frame _) _ _

theorem State.refuseCommit_frame_of_drop (s : State) (q : CommitReq) (r : Refused) :
    changesOnly [.stagers, .rings] (s.dropCommit q.num) (s.refuseCommit q r) :=
  ((State.setRec_frame _ _ _).mono (by simp)).trans ((State.postCommit_frame _ _ _ _).mono (by simp))

theorem State.restartCommit_frame (s : State) : changesOnly [.commits, .stagers, .rings] s s.restartCommit := by
  unfold State.restartCommit
  split
  · exact changesOnly.refl _ s
  · exact ((s.dropCommit_frame _).mono (by simp)).trans ((s.refuseCommit_frame_of_drop _ _).mono (by simp))

/-- The commit in checks waits no more. -/
theorem State.restartCommit_commits {q : CommitReq} (h : (s.commits.find? fun c => !c.passed) = some q) :
    s.restartCommit.commits = s.commits.filter fun c => c.num != q.num := by
  rw [State.restartCommit, h]
  exact s.refuseCommit_frame_of_drop _ _ .commits (by decide)

/-- The state when the ROM verifies the banks again. -/
def State.restarting (s : State) : State := s.restartCommit.emptyMail

/-- The pieces that change until then. -/
def restartPieces : List Piece := [.outbox, .rings, .stagers, .commits, .ports, .mailSlots, .mailbox, .peerMail]

theorem State.restarting_frame (s : State) : changesOnly restartPieces s s.restarting :=
  (s.restartCommit_frame.mono (by decide)).trans (s.restartCommit.emptyMail_frame.mono (by decide))

/-- Which bank runs, the dictionary and the firmware's own state say. -/
theorem State.bankToRun_congr {t : State} (hdict : t.dict = s.dict) (hfw : t.fw = s.fw) (kind : Nat) :
    t.bankToRun kind = s.bankToRun kind := by
  have hval : ∀ i j, t.val i j = s.val i j := fun i j => by simp only [State.val, State.obj, hdict]
  have himage : ∀ o, t.imageFault kind o = s.imageFault kind o := fun o => by
    rw [State.imageFault, State.imageFault, hval]
  have hfault : ∀ b, t.bankFault kind b = s.bankFault kind b := fun b => by
    rw [State.bankFault, State.bankFault, State.bank, State.bank, hfw, hval, himage]
  rw [State.bankToRun, State.bankToRun, hval]
  simp only [hfault]

theorem State.reportBank_frame (s : State) (kind : Nat) : changesOnly [.rings] s (s.reportBank kind) :=
  changesOnly.ite (changesOnly.refl _ s) (changesOnly.ite (s.postPilot_frame _ _)
    ((s.postPilot_frame _ _).trans (State.postPilot_frame _ _ _)))

/-- What follows where the banks have been verified. -/
def State.afterBanks (s : State) : State :=
  match s.bankToRun 0 with
  | none => { s with fw := { s.fw with recovery := true } }
  | some b => ((s.runPilot b).reportBank 0).postPilot 0x2A10 []

theorem State.afterBanks_of_none (h : s.bankToRun 0 = none) :
    s.afterBanks = { s with fw := { s.fw with recovery := true } } := by
  rw [State.afterBanks, h]

theorem State.afterBanks_frame_of_some {b : Nat} (h : s.bankToRun 0 = some b) :
    changesOnly [.rings] (s.runPilot b) s.afterBanks := by
  rw [State.afterBanks, h]
  exact (State.reportBank_frame _ 0).trans (State.postPilot_frame _ _ _)

theorem State.afterBanks_frame (s : State) : changesOnly [.fw, .dict, .rings] s s.afterBanks := by
  cases h : s.bankToRun 0 with
  | none => rw [State.afterBanks_of_none h]; exact (s.setFw_frame _).mono (by simp)
  | some b => exact ((s.runPilot_frame b).mono (by simp)).trans ((State.afterBanks_frame_of_some h).mono (by simp))

/-- A bank runs, or the ROM is in recovery. -/
theorem State.afterBanks_fw (s : State) : s.afterBanks.fw =
    if s.bankToRun 0 = none then { s.fw with recovery := true } else { s.fw with serviced := s.tick } := by
  cases h : s.bankToRun 0 with
  | none => rw [State.afterBanks_of_none h]; rfl
  | some b => exact State.afterBanks_frame_of_some h .fw (by decide)

theorem execPilotRestarted_due (hup : s.choanUp = true) (ht : s.fw.serviced + msTicks ≤ s.tick) :
    execPilotRestarted s = .next s.restarting.afterBanks := by
  have hexec : execPilotRestarted s = match s.restarting.bankToRun 0 with
      | none => .next { s.restarting with fw := { s.restarting.fw with recovery := true } }
      | some b => .next (((s.restarting.runPilot b).reportBank 0).postPilot 0x2A10 []) :=
    if_pos (show (s.choanUp && decide (s.fw.serviced + msTicks ≤ s.tick)) = true by simp [hup, ht])
  rw [hexec, State.afterBanks]
  cases s.restarting.bankToRun 0 <;> rfl

/-- What PILOT_RESTARTED leaves. -/
theorem State.afterBanks_spec (hup : s.choanUp = true) :
    s.restarting.afterBanks.mailSlots = [] ∧ s.restarting.afterBanks.peerMail = [] ∧
      (∀ q, (s.commits.find? fun c => !c.passed) = some q →
        ∀ c, c ∈ s.restarting.afterBanks.commits ↔ c ∈ s.commits ∧ c.num ≠ q.num) ∧
      (if s.bankToRun 0 = none then s.restarting.afterBanks.fw.recovery = true
        else s.restarting.afterBanks.fw.serviced = s.tick ∧ s.restarting.afterBanks.fw.recovery = false) ∧
      changesOnly [.outbox, .dict, .rings, .stagers, .commits, .ports, .mailSlots, .mailbox, .peerMail, .fw] s
        s.restarting.afterBanks := by
  have hbegin := s.restarting_frame
  have hend := s.restarting.afterBanks_frame
  have hrecovery : s.fw.recovery = false := by simp [State.choanUp] at hup; exact hup.2
  refine ⟨(hend .mailSlots (by decide)).trans s.restartCommit.emptyMail_empty.1,
    (hend .peerMail (by decide)).trans s.restartCommit.emptyMail_empty.2, fun q hq c => ?_, ?_,
    (hbegin.mono (by decide)).trans (hend.mono (by decide))⟩
  · have hcommits : s.restarting.afterBanks.commits = s.commits.filter fun c => c.num != q.num :=
      ((hend .commits (by decide)).trans (s.restartCommit.emptyMail_frame .commits (by decide))).trans
        (State.restartCommit_commits hq)
    simp [hcommits]
  · have hfw : s.restarting.fw = s.fw := hbegin .fw (by decide)
    have htick : s.restarting.tick = s.tick := hbegin .tick (by decide)
    rw [State.afterBanks_fw, State.bankToRun_congr (hbegin .dict (by decide)) hfw 0, hfw, htick]
    split <;> simp [hrecovery]

end

/-- Settles O59: each of the three events by what it leaves, its package reset or its verified bank included. -/
theorem firmwareEvents : Obligations.FirmwareEvents := by
  intro s image t
  refine ⟨fun hrec => execRecoveryImage_spec hrec, fun hlife ht hresets => ?_, fun hup ht => ?_⟩
  · exact ⟨_, execDebugLifeExpiry_due hlife ht, State.closeDebug_spec 1 hresets⟩
  · exact ⟨_, execPilotRestarted_due hup ht, State.afterBanks_spec hup⟩

end Sys2Proof.Machine

/-! SUPPORT. Numbers: widening from one format of Table 2.2 to another (O18) and conversion to integers (O19).

A dyadic has many forms of the same value, and rounding changes the form. What decides the encoding is `Dyad.size`, its magnitude
as a rational. The finite encodings of a format, taken as the number `n` that exponent and fraction spell, rise with their values
`f.fieldSize n`. Two facts carry O18: reading `n` gives a dyadic of size `f.fieldSize n`, and narrowing any dyadic of that size
gives `n` back (`FpFormat.narrow_fin`). A value of the narrower format is one of the wider (`FpFormat.Widens.exists_fields`),
so the second fact holds on the way there and on the way back, and the wide value is the narrow one, not only close to it
(`FpFormat.Widens.narrow_fin`). -/

namespace Sys2Proof.Machine

/-! ### Rounding of a quotient by a power of two -/

/-- The quotient misses `m` by no more than half a unit, and is even where it misses it by just that. -/
theorem shiftRne_nearest (m k : Nat) :
    (2 * ((shiftRne m k : Int) * 2 ^ k - m)).natAbs ≤ 2 ^ k ∧
      ((2 * ((shiftRne m k : Int) * 2 ^ k - m)).natAbs = 2 ^ k → shiftRne m k % 2 = 0) := by
  have hm : m / 2 ^ k * 2 ^ k + m % 2 ^ k = m := Nat.div_add_mod' m (2 ^ k)
  have hr : m % 2 ^ k < 2 ^ k := Nat.mod_lt m (Nat.two_pow_pos k)
  have hone : k = 0 → 2 ^ k = 1 := fun h => by simp [h]
  have hrest : m - m / 2 ^ k * 2 ^ k = m % 2 ^ k := by omega
  simp only [shiftRne, Nat.shiftRight_eq_div_pow, Nat.shiftLeft_eq, one_mul, hrest]
  rw [show ((2 : Int) ^ k) = ((2 ^ k : Nat) : Int) by push_cast; rfl]
  generalize m / 2 ^ k = q at *
  generalize m % 2 ^ k = r at *
  generalize 2 ^ k = h at *
  have hup : (q + 1) * h = q * h + h := by ring
  split_ifs with habove htie
  · rw [← Nat.cast_mul, hup]; omega
  · rcases Nat.mod_two_eq_zero_or_one q with hq | hq
    · rw [hq, Nat.add_zero, ← Nat.cast_mul]; omega
    · rw [hq, ← Nat.cast_mul, hup]; omega
  · rw [← Nat.cast_mul]; omega

/-- What divides without a rest is not rounded. -/
theorem shiftRne_mul_two_pow (c k : Nat) : shiftRne (c * 2 ^ k) k = c := by
  have hpos : 0 < 2 ^ k := Nat.two_pow_pos k
  simp [shiftRne, Nat.shiftRight_eq_div_pow, Nat.shiftLeft_eq, hpos.ne]

/-! ### Conversion to integers (R61) -/

/-- The integer that `narrowInt` holds within the bounds of its width. -/
def Dyad.nearest (d : Dyad) : Int :=
  if d.exp ≥ 0 then d.toUnits 0
  else if d.neg then -(shiftRne d.mag (-d.exp).toNat : Int) else shiftRne d.mag (-d.exp).toNat

theorem narrowInt_fin (w : Nat) (d : Dyad) :
    narrowInt w (.fin d) =
      if (2 : Int) ^ (w - 1) - 1 < d.nearest then ⟨(((2 : Int) ^ (w - 1) - 1) % 2 ^ w).toNat, .saturated⟩
      else if d.nearest < -(2 : Int) ^ (w - 1) then ⟨((-(2 : Int) ^ (w - 1)) % 2 ^ w).toNat, .saturated⟩
      else ⟨(d.nearest % 2 ^ w).toNat, .plain⟩ := rfl

/-- A dyadic of exponent 0 or more is itself an integer; below, the rounded quotient is the nearest. -/
theorem nearestTo_nearest (d : Dyad) : nearestTo d d.nearest := by
  obtain ⟨neg, mag, exp⟩ := d
  by_cases hexp : 0 ≤ exp
  · have hzero : (-exp).toNat = 0 := by omega
    cases neg <;> simp [nearestTo, Dyad.nearest, Dyad.toUnits, hexp, hzero, Nat.shiftLeft_eq]
  · have hzero : exp.toNat = 0 := by omega
    obtain ⟨hnear, heven⟩ := shiftRne_nearest mag (-exp).toNat
    cases neg <;>
      simp only [nearestTo, Dyad.nearest, hexp, hzero, if_false, if_true, Bool.false_eq_true, pow_zero, mul_one, neg_mul] <;>
      omega

/-- Settles O19: the three kinds of value, a finite one by the integer nearest to it. -/
theorem integerConversion : Obligations.IntegerConversion := by
  intro w x _
  refine ⟨fun h => by rw [h]; rfl, fun neg h => by rw [h]; rfl, fun d h => ?_⟩
  exact ⟨d.nearest, nearestTo_nearest d, h ▸ narrowInt_fin w d⟩

/-! ### The size of a dyadic -/

/-- The magnitude of a dyadic as a rational. -/
def Dyad.size (d : Dyad) : ℚ := d.mag * 2 ^ d.exp

theorem Dyad.size_eq_zero {d : Dyad} : d.size = 0 ↔ d.mag = 0 := by simp [Dyad.size, zpow_ne_zero]

@[simp] theorem Dyad.abs_size (d : Dyad) : d.abs.size = d.size := rfl

/-- A unit of 2^j counted in units of a finer power. -/
theorem two_zpow_eq {i j : Int} (hij : i ≤ j) : (2 : ℚ) ^ j = ((2 ^ (j - i).toNat : Nat) : ℚ) * 2 ^ i := by
  rw [Nat.cast_pow, Nat.cast_ofNat, ← zpow_natCast, ← zpow_add₀ two_ne_zero]
  congr 1
  omega

/-- Equal sizes in units of two powers of two: the count of the finer unit is a multiple of the other count. -/
theorem eq_mul_two_pow {a b : Nat} {i j : Int} (hij : i ≤ j) (h : (a : ℚ) * 2 ^ i = b * 2 ^ j) :
    a = b * 2 ^ (j - i).toNat := by
  rw [two_zpow_eq hij, ← mul_assoc] at h
  exact_mod_cast mul_right_cancel₀ (zpow_ne_zero i two_ne_zero) h

/-- A dyadic that is `m` units of 2^e has `m` as its count of units, for every `e`. -/
theorem Dyad.toUnits_of_size {d : Dyad} {m : Nat} {e : Int} (h : d.size = m * 2 ^ e) :
    d.toUnits e = if d.neg then -(m : Int) else m := by
  rw [Dyad.toUnits]
  by_cases he : e ≤ d.exp
  · rw [if_pos he, Nat.shiftLeft_eq, ← eq_mul_two_pow he h.symm]
  · have hmag := eq_mul_two_pow (not_le.mp he).le h
    rw [if_neg he, hmag, Nat.shiftRight_eq_div_pow, Nat.mul_div_cancel _ (Nat.two_pow_pos _)]

/-- Every dyadic is a whole number of units of 2^e, where `e` is no more than its exponent. -/
theorem Dyad.exists_size_eq {d : Dyad} {e : Int} (he : e ≤ d.exp) : ∃ m : Nat, d.size = m * 2 ^ e :=
  ⟨d.mag * 2 ^ (d.exp - e).toNat, by rw [Dyad.size, two_zpow_eq he, Nat.cast_mul, mul_assoc]⟩

/-- Of two dyadics that are not negative, the order is that of their sizes. -/
theorem Dyad.lt_iff_size {a b : Dyad} (ha : a.neg = false) (hb : b.neg = false) : a.lt b = true ↔ a.size < b.size := by
  obtain ⟨m, hm⟩ := Dyad.exists_size_eq (min_le_left a.exp b.exp)
  obtain ⟨n, hn⟩ := Dyad.exists_size_eq (min_le_right a.exp b.exp)
  have hpos : (0 : ℚ) < 2 ^ min a.exp b.exp := zpow_pos two_pos _
  simp [Dyad.lt, Dyad.toUnits_of_size hm, Dyad.toUnits_of_size hn, ha, hb, hm, hn, mul_lt_mul_iff_left₀ hpos]

/-! ### Rounding what needs no rounding -/

/-- `d` has no more than `p` significant bits, none finer than 2^q. -/
def Dyad.Fits (d : Dyad) (p : Nat) (q : Int) : Prop :=
  ∃ (c : Nat) (j : Int), c < 2 ^ p ∧ q ≤ j ∧ d.size = c * 2 ^ j

theorem Dyad.Fits.mono {d : Dyad} {p p' : Nat} {q q' : Int} (h : d.Fits p q) (hp : p ≤ p') (hq : q' ≤ q) : d.Fits p' q' := by
  obtain ⟨c, j, hc, hj, hd⟩ := h
  exact ⟨c, j, hc.trans_le (Nat.pow_le_pow_right two_pos hp), hq.trans hj, hd⟩

@[simp] theorem Dyad.round_neg (d : Dyad) (p : Nat) (q : Int) : (d.round p q).neg = d.neg := by
  simp only [Dyad.round]; split_ifs <;> rfl

/-- The leading bit of what fits `p` bits in units of 2^j has a weight below 2^(j + p). -/
theorem Dyad.lead_lt {d : Dyad} {c p : Nat} {j : Int} (hmag : d.mag ≠ 0) (hc : c < 2 ^ p) (hd : d.size = c * 2 ^ j) :
    d.lead < j + p := by
  have hlog : 2 ^ d.mag.log2 ≤ d.mag := Nat.log2_self_le hmag
  have hlt : (2 : ℚ) ^ d.lead < 2 ^ (j + p) := calc
    (2 : ℚ) ^ d.lead = ((2 ^ d.mag.log2 : Nat) : ℚ) * 2 ^ d.exp := by
      rw [Dyad.lead, zpow_add₀ two_ne_zero, zpow_natCast]; push_cast; rfl
    _ ≤ d.size := by rw [Dyad.size]; gcongr
    _ = c * 2 ^ j := hd
    _ < ((2 ^ p : Nat) : ℚ) * 2 ^ j := by gcongr
    _ = 2 ^ (j + p) := by rw [zpow_add₀ two_ne_zero, zpow_natCast]; push_cast; ring
  exact (zpow_lt_zpow_iff_right₀ one_lt_two).mp hlt

/-- Rounding does not change the size of what fits: the bits that it drops are zeros. -/
theorem Dyad.Fits.round_size {d : Dyad} {p : Nat} {q : Int} (h : d.Fits p q) : (d.round p q).size = d.size := by
  obtain ⟨c, j, hc, hj, hd⟩ := h
  by_cases hmag : d.mag = 0
  · simp [Dyad.round, Dyad.size, hmag]
  have hlead := Dyad.lead_lt hmag hc hd
  simp only [Dyad.round, hmag, if_false]
  generalize hQ : max (d.lead - ((p : Int) - 1)) q = Q
  by_cases hfine : Q ≤ d.exp
  · rw [if_pos hfine]
  have hQj : Q ≤ j := by omega
  have hdQ : (d.mag : ℚ) * 2 ^ d.exp = ((c * 2 ^ (j - Q).toNat : Nat) : ℚ) * 2 ^ Q := by
    rw [Nat.cast_mul, mul_assoc, ← two_zpow_eq hQj]; exact hd
  rw [if_neg hfine, eq_mul_two_pow (not_le.mp hfine).le hdQ, shiftRne_mul_two_pow]
  exact hdQ.symm

/-! ### The finite encodings of a format in order -/

/-- The value of the exponent and fraction fields `n`, in units of the smallest subnormal: the significand `c` of
`n = k * 2 ^ f.fracBits + c`, its leading bit included, shifted by `k`, which is 0 for a subnormal. -/
def FpFormat.units (f : FpFormat) (n : Nat) : Nat :=
  (n - (n / 2 ^ f.fracBits - 1) * 2 ^ f.fracBits) * 2 ^ (n / 2 ^ f.fracBits - 1)

/-- A significand and a shift as the fields of a format hold them: the leading bit is there or nothing is shifted. -/
def FpFormat.Significand (f : FpFormat) (k c : Nat) : Prop :=
  c < 2 ^ (f.fracBits + 1) ∧ (k = 0 ∨ 2 ^ f.fracBits ≤ c)

section
variable {f : FpFormat} {k c n : Nat}

theorem FpFormat.Significand.units_eq (h : f.Significand k c) : f.units (k * 2 ^ f.fracBits + c) = c * 2 ^ k := by
  obtain ⟨hc, hlead⟩ := h
  have hpos := Nat.two_pow_pos f.fracBits
  rw [pow_succ] at hc
  have hshift : (k * 2 ^ f.fracBits + c) / 2 ^ f.fracBits - 1 = k := by
    rw [add_comm, Nat.add_mul_div_right _ _ hpos]
    obtain rfl | hge := hlead
    · have := Nat.div_lt_of_lt_mul hc; omega
    · rw [Nat.div_eq_of_lt_le (k := 1) (by omega) (by omega)]; omega
  rw [FpFormat.units, hshift, Nat.add_sub_cancel_left]

/-- A fraction under the exponent field 0. -/
theorem FpFormat.significand_zero (hc : c < 2 ^ f.fracBits) : f.Significand 0 c := ⟨by rw [pow_succ]; omega, .inl rfl⟩

/-- A fraction under an exponent field that is not 0: the leading bit stands before it. -/
theorem FpFormat.significand_succ (hc : c < 2 ^ f.fracBits) : f.Significand k (2 ^ f.fracBits + c) :=
  ⟨by rw [pow_succ]; omega, .inr (Nat.le_add_right _ _)⟩

/-- All fields hold a significand, without its leading bit where the exponent field is not zero. -/
theorem FpFormat.exists_significand (f : FpFormat) (n : Nat) : ∃ k c, f.Significand k c ∧ n = k * 2 ^ f.fracBits + c := by
  have hdiv := Nat.div_add_mod' n (2 ^ f.fracBits)
  have hfrac := Nat.mod_lt n (Nat.two_pow_pos f.fracBits)
  cases he : n / 2 ^ f.fracBits with
  | zero => exact ⟨0, _, FpFormat.significand_zero hfrac, by rw [he] at hdiv; exact hdiv.symm⟩
  | succ e => exact ⟨e, _, FpFormat.significand_succ hfrac, by rw [he, add_mul, one_mul, add_assoc] at hdiv; exact hdiv.symm⟩

/-- The next fields: one unit of the shifted significand more, across the end of an exponent also. -/
theorem FpFormat.Significand.units_succ (h : f.Significand k c) :
    f.units (k * 2 ^ f.fracBits + c + 1) = (c + 1) * 2 ^ k := by
  obtain ⟨hc, hlead⟩ := h
  by_cases hnext : c + 1 < 2 ^ (f.fracBits + 1)
  · have hsucc : f.Significand k (c + 1) := ⟨hnext, hlead.imp_right (by omega)⟩
    rw [add_assoc, hsucc.units_eq]
  · have hfirst : f.Significand (k + 1) (2 ^ f.fracBits) := ⟨by rw [pow_succ]; omega, .inr le_rfl⟩
    have hlast : c + 1 = 2 ^ f.fracBits * 2 := by rw [pow_succ] at hc hnext; omega
    rw [show k * 2 ^ f.fracBits + c + 1 = (k + 1) * 2 ^ f.fracBits + 2 ^ f.fracBits by rw [add_mul]; omega,
      hfirst.units_eq, hlast, pow_succ', mul_assoc]

theorem FpFormat.units_strictMono (f : FpFormat) : StrictMono f.units := by
  refine strictMono_nat_of_lt_succ fun n => ?_
  obtain ⟨k, c, h, rfl⟩ := f.exists_significand n
  rw [h.units_eq, h.units_succ]
  exact Nat.mul_lt_mul_of_pos_right c.lt_succ_self (Nat.two_pow_pos k)

/-- What has no more significant bits than the format is the value of some fields. -/
theorem FpFormat.exists_units_eq (f : FpFormat) (k c : Nat) (hc : c < 2 ^ (f.fracBits + 1)) :
    ∃ n, f.units n = c * 2 ^ k := by
  induction k generalizing c with
  | zero => exact ⟨_, FpFormat.Significand.units_eq ⟨hc, .inl rfl⟩⟩
  | succ k ih =>
    by_cases hlead : 2 ^ f.fracBits ≤ c
    · exact ⟨_, FpFormat.Significand.units_eq ⟨hc, .inr hlead⟩⟩
    · obtain ⟨n, hn⟩ := ih (2 * c) (by rw [pow_succ']; omega)
      exact ⟨n, by rw [hn, pow_succ']; ring⟩

/-- The value of the fields `n` (Table 2.2). -/
def FpFormat.fieldSize (f : FpFormat) (n : Nat) : ℚ := f.units n * 2 ^ f.quantum

theorem FpFormat.fieldSize_strictMono (f : FpFormat) : StrictMono f.fieldSize := fun _ _ h =>
  mul_lt_mul_of_pos_right (Nat.cast_lt.mpr (f.units_strictMono h)) (zpow_pos two_pos _)

theorem FpFormat.fieldSize_eq_zero : f.fieldSize n = 0 ↔ n = 0 := by
  have h0 : f.fieldSize 0 = 0 := by simp [FpFormat.fieldSize, FpFormat.units]
  rw [← h0, f.fieldSize_strictMono.injective.eq_iff]

/-- A value of the format is one of its precision. -/
theorem FpFormat.fits_of_size {d : Dyad} (h : d.size = f.fieldSize n) : d.Fits (f.fracBits + 1) f.quantum := by
  obtain ⟨k, c, hs, rfl⟩ := f.exists_significand n
  refine ⟨c, f.quantum + k, hs.1, by omega, ?_⟩
  rw [h, FpFormat.fieldSize, hs.units_eq, add_comm, zpow_add₀ two_ne_zero, zpow_natCast]
  push_cast; ring

theorem FpFormat.exists_fieldSize {d : Dyad} (h : d.Fits (f.fracBits + 1) f.quantum) : ∃ n, d.size = f.fieldSize n := by
  obtain ⟨c, j, hc, hj, hd⟩ := h
  obtain ⟨n, hn⟩ := f.exists_units_eq (j - f.quantum).toNat c hc
  exact ⟨n, by rw [hd, FpFormat.fieldSize, hn, Nat.cast_mul, mul_assoc, ← two_zpow_eq hj]⟩

@[simp] theorem FpFormat.finite_neg (f : FpFormat) (neg : Bool) (e frac : Nat) : (f.finite neg e frac).neg = neg := by
  simp only [FpFormat.finite]; split_ifs <;> rfl

/-- Reading fields gives their value. -/
theorem FpFormat.finite_size (f : FpFormat) (neg : Bool) (n : Nat) :
    (f.finite neg (n / 2 ^ f.fracBits) (n % 2 ^ f.fracBits)).size = f.fieldSize n := by
  have hdiv := Nat.div_add_mod' n (2 ^ f.fracBits)
  have hfrac := Nat.mod_lt n (Nat.two_pow_pos f.fracBits)
  generalize n % 2 ^ f.fracBits = c at *
  cases he : n / 2 ^ f.fracBits with
  | zero =>
    have hn : f.units n = c * 2 ^ 0 := by rw [← hdiv, he, (FpFormat.significand_zero hfrac).units_eq]
    rw [FpFormat.fieldSize, hn, pow_zero, mul_one]; rfl
  | succ e =>
    have hn : f.units n = (2 ^ f.fracBits + c) * 2 ^ e := by
      rw [← hdiv, he, add_mul, one_mul, add_assoc, (FpFormat.significand_succ hfrac).units_eq]
    have hexp : ((e + 1 : Nat) : Int) - f.bias - f.fracBits = e + f.quantum := by
      simp only [FpFormat.quantum, FpFormat.minExp]; omega
    rw [FpFormat.finite, if_neg e.succ_ne_zero, Dyad.size, hexp, FpFormat.fieldSize, hn, zpow_add₀ two_ne_zero, zpow_natCast]
    push_cast; ring

/-- The shift that encoding reads off the leading bit. -/
theorem FpFormat.Significand.log2_eq (h : f.Significand k c) (hlead : 2 ^ f.fracBits ≤ c) :
    (c * 2 ^ k).log2 = f.fracBits + k := by
  obtain ⟨hc, -⟩ := h
  have hne : c * 2 ^ k ≠ 0 := Nat.mul_ne_zero ((Nat.two_pow_pos _).trans_le hlead).ne' (Nat.two_pow_pos k).ne'
  rw [Nat.log2_eq_iff hne, pow_add, pow_succ', pow_add, ← mul_assoc, ← pow_succ']
  exact ⟨Nat.mul_le_mul_right _ hlead, Nat.mul_lt_mul_of_pos_right hc (Nat.two_pow_pos k)⟩

/-- A dyadic of the value of some fields is encoded as these, after its sign. -/
theorem FpFormat.encodeExact_of_size {d : Dyad} (h : d.size = f.fieldSize n) : f.encodeExact d = f.signBit d.neg + n := by
  have hunits : (d.toUnits f.quantum).natAbs = f.units n := by rw [Dyad.toUnits_of_size h]; split <;> simp
  by_cases hzero : d.mag = 0
  · have hn : n = 0 := by rw [← FpFormat.fieldSize_eq_zero (f := f), ← h, Dyad.size_eq_zero.mpr hzero]
    rw [FpFormat.encodeExact, if_pos hzero, hn, add_zero]
  obtain ⟨k, c, hs, rfl⟩ := f.exists_significand n
  rw [FpFormat.encodeExact, if_neg hzero, hunits, hs.units_eq]
  by_cases hlead : 2 ^ f.fracBits ≤ c
  · have hge : ¬ c * 2 ^ k < 2 ^ f.fracBits := not_lt.mpr (hlead.trans (Nat.le_mul_of_pos_right c (Nat.two_pow_pos k)))
    simp only [hge, if_false, hs.log2_eq hlead, Nat.add_sub_cancel_left, Nat.shiftRight_eq_div_pow,
      Nat.mul_div_cancel _ (Nat.two_pow_pos k), add_mul]
    omega
  · obtain ⟨-, hshift⟩ := hs
    obtain rfl : k = 0 := hshift.resolve_right hlead
    simp [not_le.mp hlead]
end

/-! ### Narrowing a value of the format -/

section
variable {f : FpFormat} {n : Nat}

theorem FpFormat.maxDyad_neg (f : FpFormat) : f.maxDyad.neg = false := f.finite_neg false _ _

theorem FpFormat.maxDyad_size (f : FpFormat) : f.maxDyad.size = f.fieldSize f.maxBits := f.finite_size false f.maxBits

/-- Narrowing a value of the format is exact: it finds the fields of that value, and nothing is noted. -/
theorem FpFormat.narrow_fin (novf compat : Bool) {d : Dyad} (hd : d.size = f.fieldSize n) (hn : n ≤ f.maxBits) :
    f.narrow novf true compat (.fin d) = ⟨f.signBit d.neg + n, .plain⟩ := by
  have hround := (FpFormat.fits_of_size hd).round_size.trans hd
  have hrange : f.maxDyad.lt (d.round (f.fracBits + 1) f.quantum).abs = false := by
    rw [Bool.eq_false_iff, ne_eq, Dyad.lt_iff_size f.maxDyad_neg rfl, f.maxDyad_size, Dyad.abs_size, hround,
      f.fieldSize_strictMono.lt_iff_lt]
    exact not_lt.mpr hn
  have hzero : (d.round (f.fracBits + 1) f.quantum).mag = 0 ↔ n = 0 := by
    rw [← Dyad.size_eq_zero, hround, FpFormat.fieldSize_eq_zero]
  have hmag : d.mag = 0 ↔ n = 0 := by rw [← Dyad.size_eq_zero, hd, FpFormat.fieldSize_eq_zero]
  simp only [FpFormat.narrow, hrange, hzero, hmag, FpFormat.encodeExact_of_size hround, Dyad.round_neg]
  by_cases hn0 : n = 0 <;> simp [hn0]

end

/-! ### Reading encodings -/

/-- The exponent and fraction fields each have a bit: every format of Table 2.2. -/
structure FpFormat.Proper (f : FpFormat) : Prop where
  expBits_pos : 0 < f.expBits
  fracBits_pos : 0 < f.fracBits

section
variable {f : FpFormat} {n : Nat}

/-- Every encoding is a sign and fields. -/
theorem FpFormat.exists_signBit_add {e : Nat} (he : e < 2 ^ f.width) :
    ∃ neg n, n < 2 ^ (f.expBits + f.fracBits) ∧ e = f.signBit neg + n := by
  rw [FpFormat.width, add_assoc, pow_add, pow_one] at he
  by_cases h : e < 2 ^ (f.expBits + f.fracBits)
  · exact ⟨false, e, h, by simp [FpFormat.signBit]⟩
  · exact ⟨true, e - 2 ^ (f.expBits + f.fracBits), by omega, by simp only [FpFormat.signBit, if_true]; omega⟩

theorem FpFormat.signBit_eq (f : FpFormat) (neg : Bool) : f.signBit neg = neg.toNat * 2 ^ (f.expBits + f.fracBits) := by
  cases neg <;> simp [FpFormat.signBit]

theorem FpFormat.sign_signBit_add (neg : Bool) (hn : n < 2 ^ (f.expBits + f.fracBits)) :
    ((f.signBit neg + n) / 2 ^ (f.expBits + f.fracBits) % 2 == 1) = neg := by
  rw [f.signBit_eq, add_comm, Nat.add_mul_div_right _ _ (Nat.two_pow_pos _), Nat.div_eq_of_lt hn]
  cases neg <;> rfl

theorem FpFormat.exponent_signBit_add (neg : Bool) (hn : n < 2 ^ (f.expBits + f.fracBits)) :
    (f.signBit neg + n) / 2 ^ f.fracBits % 2 ^ f.expBits = n / 2 ^ f.fracBits := by
  rw [f.signBit_eq, add_comm, pow_add, ← mul_assoc, Nat.add_mul_div_right _ _ (Nat.two_pow_pos _), Nat.add_mul_mod_self_right,
    Nat.mod_eq_of_lt (Nat.div_lt_of_lt_mul (by rwa [mul_comm, ← pow_add]))]

theorem FpFormat.fraction_signBit_add (neg : Bool) : (f.signBit neg + n) % 2 ^ f.fracBits = n % 2 ^ f.fracBits := by
  rw [f.signBit_eq, add_comm, pow_add, ← mul_assoc, Nat.add_mul_mod_self_right]

theorem FpFormat.allOnes_fields (f : FpFormat) :
    f.allOnes * 2 ^ f.fracBits + 2 ^ f.fracBits = 2 ^ (f.expBits + f.fracBits) := by
  rw [← Nat.succ_mul, FpFormat.allOnes, Nat.succ_eq_add_one, Nat.sub_add_cancel (Nat.one_le_two_pow), pow_add]

theorem FpFormat.pred_allOnes_fields (hf : f.Proper) :
    (f.allOnes - 1) * 2 ^ f.fracBits + 2 ^ f.fracBits = f.allOnes * 2 ^ f.fracBits := by
  have hones : 1 ≤ f.allOnes := Nat.le_sub_one_of_lt (Nat.one_lt_two_pow hf.expBits_pos.ne')
  rw [← Nat.succ_mul, Nat.succ_eq_add_one, Nat.sub_add_cancel hones]

/-- The largest finite encoding leaves room for the sign. -/
theorem FpFormat.maxBits_lt (f : FpFormat) : f.maxBits < 2 ^ (f.expBits + f.fracBits) := by
  have hall := f.allOnes_fields
  have hpos := Nat.two_pow_pos f.fracBits
  have hpred := Nat.mul_le_mul_right (2 ^ f.fracBits) (Nat.sub_le f.allOnes 1)
  rw [FpFormat.maxBits]
  split <;> omega

/-- Fields below the all-ones exponent and fields with it. -/
theorem FpFormat.fields_lt_or_eq (hn : n < 2 ^ (f.expBits + f.fracBits)) :
    (n / 2 ^ f.fracBits ≠ f.allOnes ∧ n < f.allOnes * 2 ^ f.fracBits) ∨
      (n / 2 ^ f.fracBits = f.allOnes ∧ n = f.allOnes * 2 ^ f.fracBits + n % 2 ^ f.fracBits) := by
  have hpos := Nat.two_pow_pos f.fracBits
  have hexp : n / 2 ^ f.fracBits < 2 ^ f.expBits := Nat.div_lt_of_lt_mul (by rwa [mul_comm, ← pow_add])
  by_cases h : n / 2 ^ f.fracBits = f.allOnes
  · exact .inr ⟨h, by rw [← h, Nat.div_add_mod']⟩
  · exact .inl ⟨h, (Nat.div_lt_iff_lt_mul hpos).mp (by rw [FpFormat.allOnes] at *; omega)⟩

/-- What the fields `n` after a sign read as: a finite value up to the largest, past it an infinity or a NaN. -/
theorem FpFormat.decode_signBit_add (hf : f.Proper) (neg : Bool) (hn : n < 2 ^ (f.expBits + f.fracBits)) :
    f.decode (f.signBit neg + n) =
      if n ≤ f.maxBits then .fin (f.finite neg (n / 2 ^ f.fracBits) (n % 2 ^ f.fracBits))
      else if f.hasInf ∧ n = f.allOnes * 2 ^ f.fracBits then .inf neg else .nan := by
  have hfr : 2 ≤ 2 ^ f.fracBits := Nat.le_self_pow hf.fracBits_pos.ne' 2
  have hpred := FpFormat.pred_allOnes_fields hf
  have hfrac := Nat.mod_lt n (Nat.two_pow_pos f.fracBits)
  have hsign := FpFormat.sign_signBit_add neg hn
  have hexponent := FpFormat.exponent_signBit_add neg hn
  have hfraction := FpFormat.fraction_signBit_add (f := f) (n := n) neg
  have hfields := FpFormat.fields_lt_or_eq hn
  cases hs : f.special with
  | ieee =>
    have hmax : n ≤ f.maxBits ↔ n / 2 ^ f.fracBits ≠ f.allOnes := by simp only [FpFormat.maxBits, hs]; omega
    have hinf : n / 2 ^ f.fracBits = f.allOnes → (n % 2 ^ f.fracBits = 0 ↔ n = f.allOnes * 2 ^ f.fracBits) := by omega
    by_cases h : n / 2 ^ f.fracBits = f.allOnes <;>
      simp [FpFormat.decode, FpFormat.hasInf, hs, hsign, hexponent, hfraction, hmax, hinf, h]
  | e4m3 =>
    have hmax : n ≤ f.maxBits ↔ ¬ (n / 2 ^ f.fracBits = f.allOnes ∧ n % 2 ^ f.fracBits = 2 ^ f.fracBits - 1) := by
      simp only [FpFormat.maxBits, hs]; omega
    simp only [FpFormat.decode, FpFormat.hasInf, hs, hsign, hexponent, hfraction, hmax, ite_not]
    rfl
  | none =>
    have hmax : n ≤ f.maxBits := by simp only [FpFormat.maxBits, hs]; omega
    simp [FpFormat.decode, hs, hsign, hexponent, hfraction, hmax]

/-- Fields up to the largest read as a finite value of their sign and size. -/
theorem FpFormat.exists_decode_fin (hf : f.Proper) (neg : Bool) (hn : n ≤ f.maxBits) :
    ∃ d, f.decode (f.signBit neg + n) = .fin d ∧ d.neg = neg ∧ d.size = f.fieldSize n :=
  ⟨_, by rw [FpFormat.decode_signBit_add hf neg (hn.trans_lt f.maxBits_lt), if_pos hn], f.finite_neg .., f.finite_size ..⟩

theorem FpFormat.decode_infBits (hf : f.Proper) (neg : Bool) (hinf : f.hasInf = true) : f.decode (f.infBits neg) = .inf neg := by
  have hspecial : f.special = .ieee := by simpa [FpFormat.hasInf] using hinf
  have hall := f.allOnes_fields
  have hpos := Nat.two_pow_pos f.fracBits
  have hpred := FpFormat.pred_allOnes_fields hf
  have hmax : ¬ f.allOnes * 2 ^ f.fracBits ≤ f.maxBits := by simp only [FpFormat.maxBits, hspecial]; omega
  rw [FpFormat.infBits, FpFormat.decode_signBit_add hf neg (by omega), if_neg hmax, if_pos ⟨hinf, rfl⟩]

/-- An encoding that is no NaN is a sign with fields up to the largest, or an infinity. -/
theorem FpFormat.encoding_cases (hf : f.Proper) {e : Nat} (he : e < 2 ^ f.width) (hnan : f.decode e ≠ .nan) :
    ∃ neg, (∃ n, n ≤ f.maxBits ∧ e = f.signBit neg + n) ∨ (f.hasInf = true ∧ e = f.infBits neg) := by
  obtain ⟨neg, n, hn, rfl⟩ := FpFormat.exists_signBit_add he
  refine ⟨neg, ?_⟩
  rw [FpFormat.decode_signBit_add hf neg hn] at hnan
  by_cases hmax : n ≤ f.maxBits
  · exact .inl ⟨n, hmax, rfl⟩
  · rw [if_neg hmax] at hnan
    obtain ⟨hinf, rfl⟩ := (ite_ne_right_iff.mp hnan).1
    exact .inr ⟨hinf, rfl⟩

end

/-! ### Widening (R58) -/

/-- `g` has the precision, the smallest unit, the range and the infinities of `f`. -/
structure FpFormat.Widens (f g : FpFormat) : Prop where
  proper : f.Proper
  wideProper : g.Proper
  fracBits_le : f.fracBits ≤ g.fracBits
  quantum_le : g.quantum ≤ f.quantum
  max_le : g.maxDyad.lt f.maxDyad = false
  hasInf : f.hasInf = true → g.hasInf = true

section
variable {f g : FpFormat} (h : f.Widens g) (novf compat : Bool)
include h

/-- Every finite value of the narrower format is one of the wider. -/
theorem FpFormat.Widens.exists_fields {d : Dyad} {n : Nat} (hd : d.size = f.fieldSize n) (hn : n ≤ f.maxBits) :
    ∃ m, m ≤ g.maxBits ∧ d.size = g.fieldSize m := by
  have hfits := (FpFormat.fits_of_size hd).mono (Nat.add_le_add_right h.fracBits_le 1) h.quantum_le
  obtain ⟨m, hm⟩ := FpFormat.exists_fieldSize hfits
  have hrange : ¬ g.maxDyad.size < f.maxDyad.size :=
    (Dyad.lt_iff_size g.maxDyad_neg f.maxDyad_neg).not.mp (Bool.eq_false_iff.mp h.max_le)
  have hle : g.fieldSize m ≤ g.fieldSize g.maxBits := calc
    g.fieldSize m = f.fieldSize n := hm.symm.trans hd
    _ ≤ f.fieldSize f.maxBits := f.fieldSize_strictMono.monotone hn
    _ ≤ g.fieldSize g.maxBits := by simpa only [FpFormat.maxDyad_size, not_lt] using hrange
  exact ⟨m, g.fieldSize_strictMono.le_iff_le.mp hle, hm⟩

/-- Widening a finite value keeps its sign and its size. -/
theorem FpFormat.Widens.narrow_fin {d : Dyad} {n : Nat} (hd : d.size = f.fieldSize n) (hn : n ≤ f.maxBits) :
    ∃ bits d', g.narrow novf true compat (.fin d) = ⟨bits, .plain⟩ ∧ g.decode bits = .fin d' ∧
      d'.neg = d.neg ∧ d'.size = d.size := by
  obtain ⟨m, hm, hsize⟩ := h.exists_fields hd hn
  obtain ⟨d', hdecode, hneg, hd'⟩ := FpFormat.exists_decode_fin h.wideProper d.neg hm
  exact ⟨_, d', FpFormat.narrow_fin novf compat hsize hm, hdecode, hneg, hd'.trans hsize.symm⟩

/-- What is widened narrows back to its encoding. -/
theorem FpFormat.Widens.narrow_decode {e : Nat} (he : e < 2 ^ f.width) (hnan : f.decode e ≠ .nan) :
    (g.narrow novf true compat (f.decode e)).note = .plain ∧
      f.narrow novf true compat (g.decode (g.narrow novf true compat (f.decode e)).bits) = ⟨e, .plain⟩ := by
  obtain ⟨neg, ⟨n, hn, rfl⟩ | ⟨hinf, rfl⟩⟩ := FpFormat.encoding_cases h.proper he hnan
  · obtain ⟨d, hdecode, hneg, hd⟩ := FpFormat.exists_decode_fin h.proper neg hn
    obtain ⟨bits, d', hwide, hback, hneg', hd'⟩ := h.narrow_fin novf compat hd hn
    rw [hdecode, hwide, hback, FpFormat.narrow_fin novf compat (hd'.trans hd) hn, hneg', hneg]
    exact ⟨rfl, rfl⟩
  · have hwide : g.narrow novf true compat (.inf neg) = ⟨g.infBits neg, .plain⟩ := if_pos (h.hasInf hinf)
    rw [FpFormat.decode_infBits h.proper neg hinf, hwide, FpFormat.decode_infBits h.wideProper neg (h.hasInf hinf)]
    exact ⟨rfl, if_pos hinf⟩

end

/-- Each row of Table 2.2 against that of F32. -/
theorem widens_f32Format {code : Nat} {f : FpFormat} (h : fpFormatOf code = some f) : f.Widens f32Format := by
  unfold fpFormatOf at h
  split at h <;> cases h <;>
    exact ⟨⟨by decide, by decide⟩, ⟨by decide, by decide⟩, by decide, by decide, by decide, by decide⟩

theorem e2m1Format_widens_e4m3Format : e2m1Format.Widens e4m3Format :=
  ⟨⟨by decide, by decide⟩, ⟨by decide, by decide⟩, by decide, by decide, by decide, by decide⟩

/-- E2M1 has no NaN (Table 2.3). -/
theorem e2m1Format_decode_ne_nan (e : Nat) : e2m1Format.decode e ≠ .nan := by
  simp [FpFormat.decode, e2m1Format]

/-- Settles O18: every format of Table 2.2 is widened by F32, and E2M1 by E4M3. -/
theorem wideningIsExact : Obligations.WideningIsExact := by
  intro code f e novf compat hcode he
  refine ⟨fun hnan => ?_, fun hnan => ?_, fun hcode6 => ?_⟩
  · rw [hnan]; rfl
  · exact (widens_f32Format hcode).narrow_decode novf compat he hnan
  · subst hcode6
    obtain rfl : e2m1Format = f := Option.some.inj hcode
    exact e2m1Format_widens_e4m3Format.narrow_decode novf compat he (e2m1Format_decode_ne_nan e)

end Sys2Proof.Machine

/-! SUPPORT. The control core, completion counters, thread faults and the power states of a mast (O8, O9, O12, O13, O16, O17,
O25).

An operation of Table 3.4 ends in `retire`, which puts one thread back; `retire_movesTo` says once what that leaves, and
`retire_writesReg` the same for an operation that also writes a register. -/

namespace Sys2Proof.Machine

/-! ### What an issued operation leaves -/

theorem State.setMast_others (s : State) (m : Nat) (x : Mast) : mastsBut m s (s.setMast m x) := fun n hn => by
  rw [State.mast_setMast, if_neg hn]

@[simp] theorem Mast.issued_thread (x : Mast) (t u : Nat) : (x.issued t).thread u = x.thread u := rfl

/-- Putting thread `t` back touches it alone. -/
theorem onlyThread_setThread (x : Mast) (t : Nat) (th : Thread) : onlyThread t x (x.setThread t th) :=
  ⟨rfl, fun u hu => by rw [Mast.thread_setThread, if_neg hu]⟩

/-- The note of who issued is no part of a thread. -/
theorem onlyThread.issued {x y : Mast} {t : Nat} (h : onlyThread t x y) : onlyThread t x (y.issued t) := by
  obtain ⟨hrest, hothers⟩ := h
  refine ⟨?_, hothers⟩
  rw [hrest]; rfl

/-- An operation whose whole effect is on its thread moves the thread. -/
theorem retire_movesTo (s : State) (m t : Nat) (th : Thread) : movesTo s (retire m t s (s.mast m) th) m t th := by
  unfold movesTo
  rw [retire_mast]
  exact ⟨Mast.thread_setThread_same .., ⟨rfl, rfl⟩, (onlyThread_setThread _ t th).issued, State.setMast_others s m _,
    retire_frame m t s _ th⟩

/-- Writing a register changes registers only. -/
theorem Thread.setReg_eq (th : Thread) (d : Nat) (v : Word64) : th.setReg d v = { th with regs := (th.setReg d v).regs } := by
  unfold Thread.setReg; split <;> rfl

@[simp] theorem Thread.setReg_pc (th : Thread) (d : Nat) (v : Word64) : (th.setReg d v).pc = th.pc := by
  rw [Thread.setReg_eq]

@[simp] theorem Thread.setReg_item (th : Thread) (d : Nat) (v : Word64) : (th.setReg d v).item = th.item := by
  rw [Thread.setReg_eq]

theorem Thread.advance_setReg (th : Thread) (d : Nat) (v : Word64) :
    (th.setReg d v).advance = { th.setReg d v with pc := th.pc + 8#20 } := by
  rw [Thread.advance, Thread.setReg_pc]

/-- An operation whose whole effect is to write a register and to move the program counter. -/
theorem retire_writesReg (s : State) (m t d : Nat) (v : Word64) (pc : BitVec 20) :
    writesReg s (retire m t s (s.mast m) { ((s.mast m).thread t).setReg d v with pc := pc }) m t d v pc := by
  obtain ⟨hth, hrest⟩ := retire_movesTo s m t { ((s.mast m).thread t).setReg d v with pc := pc }
  have hreg (r : Nat) : ({ ((s.mast m).thread t).setReg d v with pc := pc } : Thread).reg r =
      if r = d ∧ d ≠ 0 then v else ((s.mast m).thread t).reg r := Thread.reg_setReg ..
  unfold writesReg
  dsimp only
  rw [hth]
  refine ⟨?_, fun r hr => ?_, ?_, hrest⟩
  · rw [hreg]; by_cases hd : d = 0 <;> simp [hd]
  · rw [hreg, if_neg fun h => hr h.1]
  · rw [Thread.setReg_eq]

/-! ### The register operations (Table 3.4) -/

theorem word_add (a v : Word64) : a + v = BitVec.ofNat 64 (a.toNat + v.toNat) := by
  rw [BitVec.ofNat_add, BitVec.ofNat_toNat, BitVec.ofNat_toNat]; rfl

theorem word_sub (a v : Word64) : a - v = BitVec.ofInt 64 (a.toInt - v.toInt) := by
  apply BitVec.eq_of_toInt_eq
  rw [BitVec.toInt_sub, BitVec.toInt_ofInt]

theorem word_and (a v : Word64) : a &&& v = BitVec.ofNat 64 (a.toNat &&& v.toNat) := by
  rw [← BitVec.toNat_and, BitVec.ofNat_toNat]; rfl

theorem word_or (a v : Word64) : a ||| v = BitVec.ofNat 64 (a.toNat ||| v.toNat) := by
  rw [← BitVec.toNat_or, BitVec.ofNat_toNat]; rfl

theorem word_xor (a v : Word64) : a ^^^ v = BitVec.ofNat 64 (a.toNat ^^^ v.toNat) := by
  rw [← BitVec.toNat_xor, BitVec.ofNat_toNat]; rfl

theorem word_shiftLeft (a : Word64) (n : Nat) : a <<< n = BitVec.ofNat 64 (a.toNat * 2 ^ n) := by
  apply BitVec.eq_of_toNat_eq
  rw [BitVec.toNat_shiftLeft, BitVec.toNat_ofNat, Nat.shiftLeft_eq]

theorem word_shiftRight (a : Word64) (n : Nat) : a >>> n = BitVec.ofNat 64 (a.toNat / 2 ^ n) := by
  rw [← Nat.shiftRight_eq_div_pow, ← BitVec.toNat_ushiftRight, BitVec.ofNat_toNat]; rfl

theorem word_sshiftRight (a : Word64) (n : Nat) : a.sshiftRight n = BitVec.ofInt 64 (a.toInt / 2 ^ n) := by
  rw [BitVec.sshiftRight, Int.shiftRight_eq_div_pow]; norm_cast

theorem word_mul (a v : Word64) : a * v = BitVec.ofNat 64 (a.toNat * v.toNat) := by
  rw [BitVec.ofNat_mul, BitVec.ofNat_toNat, BitVec.ofNat_toNat]; rfl

theorem word_slt (a v : Word64) : boolWord (a.slt v) = if a.toInt < v.toInt then 1#64 else 0#64 := by
  simp [boolWord, BitVec.slt]

theorem word_sltu (a v : Word64) : boolWord (a.ult v) = if a.toNat < v.toNat then 1#64 else 0#64 := by
  simp [boolWord, BitVec.ult]

theorem word_seq (a v : Word64) : boolWord (a == v) = if a.toNat = v.toNat then 1#64 else 0#64 := by
  simp [boolWord, BitVec.toNat_inj]

theorem word_min (a v : Word64) : (if a.slt v then a else v) = BitVec.ofInt 64 (min a.toInt v.toInt) := by
  by_cases h : a.toInt < v.toInt
  · simp [BitVec.slt, h, min_eq_left h.le]
  · simp [BitVec.slt, h, min_eq_right (not_lt.mp h)]

theorem word_max (a v : Word64) : (if a.slt v then v else a) = BitVec.ofInt 64 (max a.toInt v.toInt) := by
  by_cases h : a.toInt < v.toInt
  · simp [BitVec.slt, h, max_eq_right h.le]
  · simp [BitVec.slt, h, max_eq_left (not_lt.mp h)]

/-- What a row of `aluRows` claims of its command: it is an operation whose function is the row's, modulo 2 ^ 64. -/
def IsAlu (row : (Nat → Nat → Instr) × Nat × (Word64 → Word64 → Word64)) : Prop :=
  ∃ f : Word64 → Word64 → Word64, (∀ a v, f a v = row.2.2 a v) ∧ ∀ m t s, exec (row.1 m t) s = alu m t row.2.1 f s

theorem isAlu_of_mem_aluRows : ∀ row ∈ aluRows, IsAlu row := by
  unfold aluRows
  simp only [List.forall_mem_cons, List.not_mem_nil, IsEmpty.forall_iff, implies_true, and_true]
  exact ⟨⟨_, word_add, fun _ _ _ => rfl⟩, ⟨_, word_sub, fun _ _ _ => rfl⟩, ⟨_, word_and, fun _ _ _ => rfl⟩,
    ⟨_, word_or, fun _ _ _ => rfl⟩, ⟨_, word_xor, fun _ _ _ => rfl⟩,
    ⟨_, fun a v => word_shiftLeft a (v.toNat % 64), fun _ _ _ => rfl⟩,
    ⟨_, fun a v => word_shiftRight a (v.toNat % 64), fun _ _ _ => rfl⟩,
    ⟨_, fun a v => word_sshiftRight a (v.toNat % 64), fun _ _ _ => rfl⟩, ⟨_, word_mul, fun _ _ _ => rfl⟩,
    ⟨_, word_slt, fun _ _ _ => rfl⟩, ⟨_, word_sltu, fun _ _ _ => rfl⟩, ⟨_, word_seq, fun _ _ _ => rfl⟩,
    ⟨_, word_min, fun _ _ _ => rfl⟩, ⟨_, word_max, fun _ _ _ => rfl⟩⟩
/-- Settles O8: each operation is `alu` of a function on words that is the row's function of integers, modulo 2 ^ 64. -/
theorem aluResults : Obligations.AluResults := by
  intro row hrow s m t h
  obtain ⟨f, hf, hexec⟩ := isAlu_of_mem_aluRows row hrow
  refine ⟨_, (hexec m t s).trans (alu_eq h f), ?_⟩
  rw [← hf, Thread.advance_setReg]
  exact retire_writesReg ..

/-! ### The scratchpad in ranges that do not wrap (R113, R131) -/

section
variable {a n : Nat} (h : a + n ≤ 2 ^ 20)
include h

theorem Mast.padRead_eq (x : Mast) : x.padRead a n = FMap.readLE x.pad a n := by
  induction n generalizing a with
  | zero => rfl
  | succ n ih =>
    rw [Mast.padRead, FMap.readLE, padAddr, Nat.mod_eq_of_lt (by omega), ih (by omega)]

theorem Mast.padWrite_eq (x : Mast) (v : Nat) : x.padWrite a n v = { x with pad := FMap.writeLE x.pad a n v } := by
  induction n generalizing a x v with
  | zero => rfl
  | succ n ih =>
    rw [Mast.padWrite, FMap.writeLE, padAddr, Nat.mod_eq_of_lt (by omega), ih (by omega)]

/-- What stands in the scratchpad after a write. -/
theorem Mast.byte_padWrite (x : Mast) (v b : Nat) : (x.padWrite a n v).byte b =
    if a ≤ b ∧ b < a + n then BitVec.ofNat 8 (v >>> (8 * (b - a))) else x.byte b := by
  rw [Mast.padWrite_eq h, Mast.byte, FMap.get_writeLE, Nat.shiftRight_eq_div_pow, Nat.pow_mul]
  rfl

end

@[simp] theorem Mast.setThread_byte (x : Mast) (t b : Nat) (th : Thread) : (x.setThread t th).byte b = x.byte b := rfl

@[simp] theorem Mast.issued_byte (x : Mast) (t b : Nat) : (x.issued t).byte b = x.byte b := rfl

/-! ### Branches and the scratchpad -/

/-- A host error holds its mast up and changes nothing else (R122, log 51). -/
theorem State.hostError_holdsUp (s : State) (m rule item : Nat) : holdsUp s (s.hostError m rule item) m rule item :=
  ⟨State.mast_setMast_same .., State.setMast_others s m _, State.setMast_frame s m _⟩

theorem padOperand_eq {a : Word64} (h : a.toNat < 2 ^ 20) (m : Nat) (s : State) (k : Nat → Result) :
    padOperand m s a k = k a.toNat := if_pos h

theorem padOperand_past {a : Word64} (h : 2 ^ 20 ≤ a.toNat) (m : Nat) (s : State) (k : Nat → Result) :
    padOperand m s a k = .next (s.hostError m 122 1) := if_neg (Nat.not_lt.mpr h)

/-- An operation that only moves its thread, to `f` of the thread and its operands. -/
theorem issue_movesTo {s : State} {m t op : Nat} (h : s.issues m t op = true) (f : Thread → Operands → Thread) :
    ∃ u, issue m t op s (fun x th o => .next (retire m t s x (f th o))) = .next u ∧
      movesTo s u m t (f ((s.mast m).thread t) (s.operands m t)) :=
  ⟨_, issue_eq h _, retire_movesTo ..⟩

section
variable {s : State} {m t : Nat}

theorem exec_jal (h : s.issues m t 0x23 = true) : exec (.jal m t) s = .next (retire m t s (s.mast m)
    { ((s.mast m).thread t).setReg (s.operands m t).d ((((s.mast m).thread t).pc + 8#20).setWidth 64) with
      pc := ((s.operands m t).sa + (s.operands m t).imm).setWidth 20 }) := by
  change execJal m t s = _
  rw [execJal, issue_eq h]

theorem exec_lds (h : s.issues m t 0x10 = true) : exec (.lds m t) s =
    padOperand m s ((s.operands m t).sa + (s.operands m t).imm) fun a => .next (retire m t s (s.mast m)
      (((s.mast m).thread t).setReg (s.operands m t).d (BitVec.ofNat 64 ((s.mast m).padRead (a / 8 * 8) 8))).advance) := by
  change execLds m t s = _
  rw [execLds, issue_eq h]

theorem exec_sts (h : s.issues m t 0x11 = true) : exec (.sts m t) s =
    padOperand m s ((s.operands m t).sa + (s.operands m t).imm) fun a => .next (retire m t s
      ((s.mast m).padWrite (a / 8 * 8) 8 (s.operands m t).sb.toNat) ((s.mast m).thread t).advance) := by
  change execSts m t s = _
  rw [execSts, issue_eq h]

end

/-- Settles O9. -/
theorem branchesAndScratchpad : Obligations.BranchesAndScratchpad := by
  refine ⟨fun s m t => ⟨fun h => ?_, fun h => ?_, fun h => ?_, fun h => ?_, fun h => ?_⟩,
    fun s m t => ⟨fun h ha => ?_, fun h ha => ?_, fun h ha => ?_, fun h ha => ?_⟩⟩
  · exact issue_movesTo h fun th _ => th.advance
  · exact issue_movesTo h fun th o => th.jump o.imm
  · exact issue_movesTo h fun th o => if o.sa = 0#64 then th.jump o.imm else th.advance
  · exact issue_movesTo h fun th o => if o.sa = 0#64 then th.advance else th.jump o.imm
  · exact ⟨_, exec_jal h, retire_writesReg ..⟩
  · refine ⟨_, (exec_lds h).trans (padOperand_eq ha ..), ?_⟩
    rw [Thread.advance_setReg]
    exact retire_writesReg ..
  · refine ⟨_, (exec_sts h).trans (padOperand_eq ha ..), ?_⟩
    rw [retire_mast]
    have hb : ((s.operands m t).sa + (s.operands m t).imm).toNat / 8 * 8 + 8 ≤ 2 ^ 20 := by omega
    refine ⟨fun c => ?_, ?_, fun j hj => ?_, ?_, State.setMast_others s m _, retire_frame m t s _ _⟩
    · rw [Mast.issued_byte, Mast.setThread_byte, Mast.byte_padWrite hb]
    · rw [Mast.issued_thread, Mast.thread_setThread_same]; rfl
    · rw [Mast.issued_thread, Mast.thread_setThread, if_neg hj, Mast.padWrite_eq hb]; rfl
    · rw [Mast.padWrite_eq hb]; rfl
  · exact ⟨_, (exec_lds h).trans (padOperand_past ha ..), s.hostError_holdsUp m 122 1⟩
  · exact ⟨_, (exec_sts h).trans (padOperand_past ha ..), s.hostError_holdsUp m 122 1⟩

/-! ### Posting a descriptor (R107, R108, R161) -/

@[simp] theorem Mast.issued_queue (x : Mast) (t e : Nat) : (x.issued t).queue e = x.queue e := rfl

@[simp] theorem Mast.setThread_queue (x : Mast) (t e : Nat) (th : Thread) : (x.setThread t th).queue e = x.queue e := rfl

/-- What a POST to engine `e` puts into the queue, or stalls its thread with. -/
def State.posting (s : State) (m t e : Nat) : Posted :=
  let x := s.mast m
  let desc := x.padRead ((s.operands m t).sa + (s.operands m t).imm).toNat 64
  { desc := desc, layout := if e = 3 then x.padRead (field desc 147 128) 64 else 0, thread := t, num := x.posts,
    compat := s.threadMode m (x.thread t) }

section
variable {s : State} {m t e : Nat} (h : s.issues m t 0x30 = true)
  (ha : ((s.operands m t).sa + (s.operands m t).imm).toNat < 2 ^ 20)
include h ha

theorem exec_post_bad (hbad : ((s.operands m t).sa + (s.operands m t).imm).toNat % 64 ≠ 0 ∨
    headerBad (s.posting m t e).desc = true) : exec (.post m t) s = .next (s.hostError m 122 4) := by
  change execPost m t s = _
  rw [execPost, issue_eq h, padOperand_eq ha]
  exact if_pos hbad

theorem exec_post_good (hal : ((s.operands m t).sa + (s.operands m t).imm).toNat % 64 = 0)
    (hgood : headerBad (s.posting m t e).desc = false) (he : engineOf (s.posting m t e).desc = some e)
    (hla : e = 3 → field (s.posting m t e).desc 147 128 % 64 = 0) :
    exec (.post m t) s = .next (
      let x := { s.mast m with posts := (s.mast m).posts + 1 }
      if ((s.mast m).queue e).length < queueSize e ∧ !(s.mast m).earlierStalled e (s.mast m).posts then
        retire m t s (x.setQueue e ((s.mast m).queue e ++ [s.posting m t e])) ((s.mast m).thread t).advance
      else retire m t s x { ((s.mast m).thread t).advance with run := .stalled, wait := .slot (s.posting m t e) }) := by
  change execPost m t s = _
  rw [execPost, issue_eq h, padOperand_eq ha]
  have hok : ¬ (((s.operands m t).sa + (s.operands m t).imm).toNat % 64 ≠ 0 ∨ headerBad (s.posting m t e).desc = true) := by
    rintro (hodd | hbad)
    · exact hodd hal
    · rw [hgood] at hbad; cases hbad
  have hrec : ¬ (e = 3 ∧ field (s.posting m t e).desc 147 128 % 64 ≠ 0) := fun ⟨h3, hodd⟩ => hodd (hla h3)
  refine (if_neg hok).trans ?_
  simp only [State.posting] at he hrec
  rw [he]
  exact (if_neg hrec).trans (apply_ite Host.Outcome.next ..).symm

end

theorem exec_postSlotFree {s : State} {m t e : Nat} {q : Posted} (hq : ((s.mast m).thread t).stalledPost = some (e, q))
    (hfirst : (s.mast m).earlierStalled e q.num = false) (hroom : ((s.mast m).queue e).length < queueSize e) :
    exec (.postSlotFree m t) s = .next (s.setMast m (((s.mast m).setQueue e ((s.mast m).queue e ++ [q])).setThread t
      { (s.mast m).thread t with run := .ready, wait := .none })) := by
  change execPostSlotFree m t s = _
  rw [execPostSlotFree]
  dsimp only
  rw [hq]
  exact if_neg (by simp [hfirst, hroom])

/-- Settles O12. -/
theorem postDescriptors : Obligations.PostDescriptors := by
  intro s m t e
  refine ⟨fun h ha hal hgood he hla => ⟨_, exec_post_good h ha hal hgood he hla, ?_⟩,
    fun h ha hbad => ⟨_, exec_post_bad (e := e) h ha hbad, s.hostError_holdsUp m 122 4⟩, fun q hq hfirst hroom =>
      ⟨_, exec_postSlotFree hq hfirst (of_decide_eq_true hroom), ?_⟩⟩
  · by_cases hroom : ((s.mast m).queue e).length < queueSize e ∧ (s.mast m).earlierStalled e (s.mast m).posts = false
    · obtain ⟨hlt, hfirst⟩ := hroom
      rw [if_pos (by simp [hlt, hfirst]), retire_mast]
      refine ⟨rfl, fun _ _ => ⟨?_, ?_⟩, fun h => ?_, fun k hk => ?_, fun j hj => ?_, State.setMast_others s m _,
        retire_frame m t s _ _⟩
      · rw [Mast.issued_queue, Mast.setThread_queue, Mast.queue_setQueue, if_pos rfl]; rfl
      · rw [Mast.issued_thread, Mast.thread_setThread_same]; rfl
      · simp [hlt, hfirst] at h
      · rw [Mast.issued_queue, Mast.setThread_queue, Mast.queue_setQueue, if_neg hk]; rfl
      · rw [Mast.issued_thread, Mast.thread_setThread, if_neg hj]; rfl
    · rw [if_neg (by simpa using hroom), retire_mast]
      refine ⟨rfl, fun hlt hfirst => absurd ⟨of_decide_eq_true hlt, hfirst⟩ hroom, fun _ => ⟨rfl, ?_⟩, fun k _ => rfl,
        fun j hj => ?_, State.setMast_others s m _, retire_frame m t s _ _⟩
      · rw [Mast.issued_thread, Mast.thread_setThread_same]; rfl
      · rw [Mast.issued_thread, Mast.thread_setThread, if_neg hj]; rfl
  · rw [State.mast_setMast_same]
    refine ⟨?_, Mast.thread_setThread_same .., fun k hk => ?_, fun j hj => ?_, State.setMast_others s m _,
      State.setMast_frame s m _⟩
    · rw [Mast.setThread_queue, Mast.queue_setQueue, if_pos rfl]
    · rw [Mast.setThread_queue, Mast.queue_setQueue, if_neg hk]
    · rw [Mast.thread_setThread, if_neg hj]; rfl

/-! ### Completion counters (R96, R97) -/

/-- Reading from a map whose values a function has changed that leaves the default. -/
theorem FMap.get_map {α : Type} (f : Nat → α → α) {d : α} (hd : ∀ k, f k d = d) (m : FMap α) (k : Nat) :
    FMap.get (m.map fun e => (e.1, f e.1 e.2)) k d = f k (FMap.get m k d) := by
  induction m with
  | nil => exact (hd k).symm
  | cons e r ih =>
    simp only [List.map_cons, FMap.get, ih]
    split
    · next h => rw [h]
    · rfl

/-- The signed difference that R97 compares. -/
theorem counterReached_iff (val target : Word32) : counterReached val target = true ↔ 0 ≤ (val - target).toInt := by
  simp [counterReached, BitVec.msb_eq_toInt]

/-- A counter's new value reaches the threads that wait for it, each as `wokenBy` says. -/
theorem Mast.wakeCounter_eq (x : Mast) (n : Nat) :
    x.wakeCounter n = { x with threads := x.threads.map fun e => (e.1, wokenBy n (x.counter n) e.2) } := by
  unfold Mast.wakeCounter wokenBy
  congr 2
  funext ⟨j, th⟩
  cases th.wait with
  | counter k d target => simp only [counterReached_iff]; split <;> rfl
  | _ => rfl

theorem Mast.wakeCounter_thread (x : Mast) (n j : Nat) :
    (x.wakeCounter n).thread j = wokenBy n (x.counter n) (x.thread j) := by
  rw [Mast.wakeCounter_eq]
  exact FMap.get_map (fun _ => wokenBy n (x.counter n)) (fun _ => rfl) x.threads j

/-- A counter that takes a value wakes the threads that it satisfies, and nothing else of the mast changes. -/
theorem Mast.wakeCounter_signalled (x : Mast) (n : Nat) (c : Counter) : signalled x ((x.setCounter n c).wakeCounter n) n c := by
  have hcount (k : Nat) : ((x.setCounter n c).wakeCounter n).counter k = if k = n then c else x.counter k := by
    rw [Mast.wakeCounter_eq]
    exact Mast.counter_setCounter ..
  refine ⟨by rw [hcount, if_pos rfl], fun k hk => by rw [hcount, if_neg hk], fun j => ?_⟩
  rw [Mast.wakeCounter_thread, Mast.counter_setCounter, if_pos rfl]
  rfl

theorem Mast.signal_signalled (x : Mast) (n : Nat) (add : Word32) (err : Bool) : signalled x (x.signal n add err) n
    { val := (x.counter n).val + add, err := (x.counter n).err || err } := Mast.wakeCounter_signalled ..

/-- A thread that signals counter `n` as it moves on to `th`: `y` is its mast after the signal. -/
theorem retire_signalled {s : State} {m t n : Nat} {c : Counter} {y : Mast} {th : Thread}
    (h : signalled ((s.mast m).setThread t th) y n c) :
    let u := retire m t s y th
    (u.mast m).counter n = c ∧ (∀ k, k ≠ n → (u.mast m).counter k = (s.mast m).counter k) ∧ (u.mast m).thread t = th ∧
      (∀ j, j ≠ t → (u.mast m).thread j = wokenBy n c ((s.mast m).thread j)) ∧ mastsBut m s u ∧ changesOnly [.masts] s u := by
  obtain ⟨hc, hothers, hthreads⟩ := h
  dsimp only
  rw [retire_mast]
  refine ⟨hc, hothers, ?_, fun j hj => ?_, State.setMast_others s m _, retire_frame m t s y th⟩
  · rw [Mast.issued_thread, Mast.thread_setThread_same]
  · rw [Mast.issued_thread, Mast.thread_setThread, if_neg hj, hthreads, Mast.thread_setThread, if_neg hj]

section
variable {s : State} {m t : Nat}

theorem exec_waitc (h : s.issues m t 0x31 = true) : exec (.waitc m t) s =
    let n := (s.operands m t).imm.toNat % 64
    let target : Word32 := (s.operands m t).sb.setWidth 32
    if counterReached ((s.mast m).counter n).val target then
      .next (retire m t s (s.mast m)
        (((s.mast m).thread t).setReg (s.operands m t).d (counterWord ((s.mast m).counter n))).advance)
    else .next (retire m t s (s.mast m)
      { ((s.mast m).thread t).advance with run := .stalled, wait := .counter n (s.operands m t).d target }) := by
  change execWaitc m t s = _
  rw [execWaitc, issue_eq h]

theorem exec_cinc (h : s.issues m t 0x34 = true) : exec (.cinc m t) s =
    .next (retire m t s ((((s.mast m).setThread t ((s.mast m).thread t).advance)).signal
      ((s.operands m t).imm.toNat % 64) ((s.operands m t).sb.setWidth 32) false) ((s.mast m).thread t).advance) := by
  change execCinc m t s = _
  rw [execCinc, issue_eq h]

theorem exec_cclr (h : s.issues m t 0x35 = true) : exec (.cclr m t) s =
    let n := (s.operands m t).imm.toNat % 64
    .next (retire m t s ((((s.mast m).setThread t ((s.mast m).thread t).advance).setCounter n {}).wakeCounter n)
      ((s.mast m).thread t).advance) := by
  change execCclr m t s = _
  rw [execCclr, issue_eq h]

end

/-- Settles O13. -/
theorem completionCounters : Obligations.CompletionCounters := by
  intro s m t
  refine ⟨fun h hreached => ?_, fun h hbelow => ?_, fun h => ⟨_, exec_cinc h, ?_⟩, fun h => ⟨_, exec_cclr h, ?_⟩⟩
  · refine ⟨_, (exec_waitc h).trans (if_pos ((counterReached_iff _ _).mpr hreached)), ?_⟩
    rw [Thread.advance_setReg]
    exact retire_writesReg ..
  · exact ⟨_, (exec_waitc h).trans (if_neg (mt (counterReached_iff _ _).mp (not_le.mpr hbelow))), retire_movesTo ..⟩
  · have hsignal := Mast.signal_signalled ((s.mast m).setThread t ((s.mast m).thread t).advance)
      ((s.operands m t).imm.toNat % 64) ((s.operands m t).sb.setWidth 32) false
    rw [Bool.or_false] at hsignal
    exact retire_signalled hsignal
  · exact retire_signalled (Mast.wakeCounter_signalled _ _ {})

/-! ### START, HALT and RDSYS -/

/-- A thread that issues is Ready (R90). -/
theorem State.issues_ready {s : State} {m t op : Nat} (h : s.issues m t op = true) :
    ((s.mast m).thread t).run = .ready := by
  simp only [State.issues, Mast.mayIssue, Bool.and_eq_true, beq_iff_eq] at h
  obtain ⟨⟨-, ⟨-, hready⟩, -⟩, -⟩ := h
  exact hready

/-- A thread that issues is one of a package mast. -/
theorem State.issues_lt {s : State} {m t op : Nat} (h : s.issues m t op = true) : m < 3072 := by
  simp only [State.issues, Bool.and_eq_true, decide_eq_true_eq] at h
  obtain ⟨⟨⟨hm, -⟩, -⟩, -⟩ := h
  exact hm

section
variable {s : State} {m t : Nat}

theorem exec_start (h : s.issues m t 0x36 = true) : exec (.start m t) s =
    let j := (s.operands m t).imm.toNat % 512
    if (((s.mast m).thread j).run = .empty ∨ ((s.mast m).thread j).run = .faulted) ∧ (s.mast m).goal.isNone then
      .next (retire m t s ((s.mast m).setThread j
          { ({} : Thread).setReg 1 (s.operands m t).sb with pc := (s.operands m t).sa.setWidth 20, run := .ready })
        (((s.mast m).thread t).setReg (s.operands m t).d 0#64).advance)
    else .next (retire m t s (s.mast m) (((s.mast m).thread t).setReg (s.operands m t).d 1#64).advance) := by
  change execStart m t s = _
  rw [execStart, issue_eq h]
  simp only [Bool.or_eq_true, decide_eq_true_eq]

/-- RDSYS writes a value into d; an open value counts in `free` (log 1). -/
theorem exec_rdsys (h : s.issues m t 0x38 = true) :
    let th := (s.mast m).thread t
    let n := (s.operands m t).imm.toNat % 256
    ∃ v s', exec (.rdsys m t) s =
        .next (retire m t s' (s.mast m) (th.setReg (s.operands m t).d (BitVec.ofNat 64 v)).advance) ∧
      changesOnly [.free] s s' ∧ (n = 0 → v = t) ∧ (n = 1 → v = m % 192) ∧ (n = 2 → v = m / 192) ∧
      (∀ p, n = 3 → s.partOfMast m = some p → v = p) ∧ (n = 5 → v = s.tick) ∧
      (∀ c, n = 6 → th.item = some c → v = if c then 1 else 0) ∧ (7 ≤ n → v = 0) := by
  change ∃ v s', execRdsys m t s = _ ∧ _
  rw [execRdsys, issue_eq h]
  have hopen := s.open_frame 64
  split
  · exact ⟨t, s, rfl, changesOnly.refl _ s, by simp_all⟩
  · exact ⟨m % 192, s, rfl, changesOnly.refl _ s, by simp_all⟩
  · exact ⟨m / 192, s, rfl, changesOnly.refl _ s, by simp_all⟩
  · split
    · next p hp => exact ⟨p, s, rfl, changesOnly.refl _ s, by simp_all⟩
    · exact ⟨_, _, rfl, hopen, by simp_all⟩
  · exact ⟨_, _, rfl, hopen, by simp_all⟩
  · exact ⟨s.tick, s, rfl, changesOnly.refl _ s, by simp_all⟩
  · split
    · next c hc => exact ⟨if c then 1 else 0, s, rfl, changesOnly.refl _ s, by simp_all⟩
    · exact ⟨_, _, rfl, hopen, by simp_all⟩
  · exact ⟨0, s, rfl, changesOnly.refl _ s, by simp_all⟩

end

/-- Settles O16. -/
theorem threadControl : Obligations.ThreadControl := by
  refine ⟨fun s m t => ⟨fun h hmay => ?_, fun h hmay => ?_, fun h => ?_⟩, fun s m t h => ?_⟩
  · simp only [Bool.and_eq_true, Bool.or_eq_true, beq_iff_eq] at hmay
    refine ⟨_, (exec_start h).trans (if_pos hmay), ?_⟩
    generalize (s.operands m t).imm.toNat % 512 = j at *
    have hj : j ≠ t := by
      rintro rfl
      simp [s.issues_ready h] at hmay
    rw [retire_mast, Mast.issued_thread, Mast.thread_setThread, if_neg hj, Mast.thread_setThread_same]
    refine ⟨rfl, rfl, ?_, fun r hr => ?_, ?_, fun k hkj hkt => ?_, State.setMast_others s m _, retire_frame m t s _ _⟩
    · exact (Thread.reg_setReg ..).trans (if_pos ⟨rfl, by decide⟩)
    · change (({} : Thread).setReg 1 _).reg r = _
      rw [Thread.reg_setReg, if_neg (by simp [hr])]
      simp [Thread.reg]
    · rw [Mast.issued_thread, Mast.thread_setThread_same, Thread.advance_setReg]
    · rw [Mast.issued_thread, Mast.thread_setThread, if_neg hkt, Mast.thread_setThread, if_neg hkj]
  · refine ⟨_, (exec_start h).trans (if_neg fun hfree => ?_), ?_⟩
    · simp only [Bool.and_eq_false_iff, Bool.or_eq_false_iff, beq_eq_false_iff_ne] at hmay
      rcases hmay with ⟨hempty, hfaulted⟩ | hgoal
      · exact hfree.1.elim hempty hfaulted
      · exact Bool.false_ne_true (hgoal.symm.trans hfree.2)
    · rw [Thread.advance_setReg]
      exact retire_writesReg ..
  · exact issue_movesTo h fun th _ => { th.advance with run := .empty, item := none }
  · obtain ⟨v, s', hexec, hframe, hthread, hlocal, hdie, hpart, htick, hitem, hother⟩ := exec_rdsys h
    have hmast (n : Nat) : s'.mast n = s.mast n := by rw [State.mast, hframe .masts (by decide)]; rfl
    obtain ⟨u, hu, hwrites⟩ : ∃ u, exec (.rdsys m t) s = .next u ∧ writesReg s' u m t (s.operands m t).d
        (BitVec.ofNat 64 v) (((s'.mast m).thread t).pc + 8#20) := by
      rw [← hmast m, Thread.advance_setReg] at hexec
      exact ⟨_, hexec, retire_writesReg ..⟩
    obtain ⟨hd, hregs, hth, -, honly, hothers, hmasts⟩ := hwrites
    rw [hmast m] at hregs hth honly
    exact ⟨u, v, hu, hd, congrArg Thread.pc hth, hregs, hthread, hlocal, hdie, hpart, htick, hitem, hother, honly,
      fun n hn => (hothers n hn).trans (hmast n), (hframe.mono (by simp)).trans (hmasts.mono (by simp))⟩

/-! ### Counters of the dictionary and posted events -/

/-- A counter that counts one more changes no other register (R16). -/
theorem State.bump_registers (s : State) {i j : Nat} (n : Nat) (hj : j < 256) : registersBut [(i, j)] s (s.bump i j n) :=
  s.setVal_registers _ hj

@[simp] theorem State.bump_mast (s : State) (i j n m : Nat) : (s.bump i j n).mast m = s.mast m := rfl

theorem State.bump_counts (s : State) (i j n : Nat) : counts s (s.bump i j n) i j n := State.val_bump_same ..

/-- What a counter counts, between states with the same dictionaries. -/
theorem counts.of_dict {s s' t t' : State} {i j n : Nat} (h : counts s t i j n) (hs : s'.dict = s.dict)
    (ht : t'.dict = t.dict) : counts s' t' i j n := by
  simp only [counts, State.val, State.obj, hs, ht] at h ⊢
  exact h

/-! ### MAST_THREAD_FAULT (R93) -/

theorem mem_placeRec (r : Rec) (l : List Rec) : r ∈ placeRec r l := by
  induction l with
  | nil => simp [placeRec]
  | cons x rest ih => unfold placeRec; split <;> simp [ih]

/-- Numbering gives each record its RSEQ and nothing else. -/
theorem exists_mem_numberRecs {r : Rec} {l : List Rec} (h : r ∈ l) (n : Nat) : ∃ q, { r with rseq := q } ∈ numberRecs n l := by
  induction l generalizing n with
  | nil => cases h
  | cons x rest ih =>
    rcases List.mem_cons.mp h with rfl | h
    · exact ⟨n % 2 ^ 32, by simp [numberRecs]⟩
    · obtain ⟨q, hq⟩ := ih h (n + 1)
      exact ⟨q, List.mem_cons_of_mem _ hq⟩

/-- A ring that owes no overflow record and has room takes the record of an event. -/
theorem Ring.post_one {g : Ring} {cap : Nat} (mk : Nat → Rec) (r : Rec) (howed : g.owed = 0) (hroom : g.used < cap) :
    (g.post cap mk [r]).posted = g.posted + 1 ∧ ∃ q, { r with rseq := q } ∈ (g.post cap mk [r]).recs := by
  have hpost : g.post cap mk [r] = g.append [r] := by
    have hsettle : g.settle cap mk = g := if_neg fun h => h.1 howed
    rw [Ring.post, hsettle]
    exact if_pos ⟨howed, Nat.succ_le_of_lt hroom⟩
  rw [hpost]
  exact ⟨rfl, exists_mem_numberRecs (mem_placeRec r g.recs) _⟩

/-- Every event goes to the operator ring, and to it first (R420). -/
theorem State.ringsFor_eq (s : State) (part : Nat) : ∃ ns, s.ringsFor part = 0 :: ns ∧ 0 ∉ ns := by
  unfold State.ringsFor
  split
  · split
    · exact ⟨[part + 1], rfl, by simp⟩
    · exact ⟨[], rfl, by simp⟩
  · split
    · exact ⟨_, rfl, by simp⟩
    · exact ⟨[], rfl, by simp⟩

/-- What an event leaves in the operator ring. -/
theorem State.post_ring_zero (s : State) (e : Event) :
    (s.post e).ring 0 = (s.ring 0).post 16384 (overflowRec s.tick 0) (eventRecords s.tick e) := by
  have rest (ns : List Nat) (h0 : 0 ∉ ns) (t : State) :
      (ns.foldl (fun s n => s.postRing n (eventRecords s.tick e)) t).ring 0 = t.ring 0 := by
    induction ns generalizing t with
    | nil => rfl
    | cons n ns ih =>
      obtain ⟨hn, hns⟩ := not_or.mp (mt List.mem_cons.mpr h0)
      exact (ih hns _).trans (State.postRing_other t _ hn)
  obtain ⟨ns, hns, h0⟩ := s.ringsFor_eq e.part
  rw [State.post, hns, List.foldl_cons, rest ns h0, State.postRing, State.ring_setRing, if_pos rfl]
  rfl

theorem Octets.append_lt {a b : Octets} (ha : a.bits < 2 ^ (8 * a.len)) (hb : b.bits < 2 ^ (8 * b.len)) :
    (a.append b).bits < 2 ^ (8 * (a.append b).len) := by
  rw [Octets.append, Nat.shiftLeft_eq, Nat.mul_add, Nat.pow_add]
  calc a.bits + b.bits * 2 ^ (8 * a.len) < 2 ^ (8 * a.len) + b.bits * 2 ^ (8 * a.len) := Nat.add_lt_add_right ha _
    _ = (b.bits + 1) * 2 ^ (8 * a.len) := by ring
    _ ≤ 2 ^ (8 * b.len) * 2 ^ (8 * a.len) := Nat.mul_le_mul_right _ hb
    _ = 2 ^ (8 * a.len) * 2 ^ (8 * b.len) := Nat.mul_comm _ _

/-- A packed detail fits its bytes (R473). -/
theorem packDetail_lt (l : List (Nat × Nat)) : (packDetail l).bits < 2 ^ (8 * (packDetail l).len) := by
  induction l with
  | nil => decide
  | cons e r ih => exact Octets.append_lt (Nat.mod_lt _ (Nat.two_pow_pos _)) ih

/-- An event whose detail takes at most 40 bytes is one record (R421). -/
theorem eventRecords_short {e : Event} (tick : Nat) (hn : (packDetail e.detail).len ≤ 40) :
    eventRecords tick e = [{ tick := tick % 2 ^ 64, code := e.code, plane := e.plane, compound := e.compound, part := e.part,
                             unit := e.kind * 4096 + e.num % 4096, utag := e.utag, detail := packDetail e.detail }] := by
  have hslice : (packDetail e.detail).slice 0 40 = packDetail e.detail := by
    simp [Octets.slice, Nat.min_eq_right hn, Nat.mod_eq_of_lt (packDetail_lt e.detail)]
  have hmore : ((packDetail e.detail).len - 40 + 47) / 48 = 0 := by omega
  simp [eventRecords, hslice, hmore]

section
variable {s : State} {m t : Nat}

/-- What MAST_THREAD_FAULT posts. -/
def State.threadFaultEvent (s : State) (m t : Nat) : Event :=
  { code := 0x3810, plane := 2, part := partOr (s.partOfMast m), kind := 3, num := m,
    detail := [(2, m), (2, t), (2, ((s.mast m).thread t).pc.toNat % 2 ^ 16)] }

theorem exec_mastThreadFault (hm : m < 3072) (ht : t < 512) (hmay : (s.mast m).mayIssue t = true)
    (hop : definedOpcode ((s.mast m).fetch ((s.mast m).thread t)) = false) :
    exec (.mastThreadFault m t) s = .next (((retire m t s (s.mast m)
      { (s.mast m).thread t with run := .faulted, item := none }).bump (0x3800 + m / 192) 4 1).post (s.threadFaultEvent m t)) := by
  change execMastThreadFault m t s = _
  simp only [execMastThreadFault, hm, ht, hmay, hop, decide_true, Bool.not_false, Bool.and_self, guardEvent_true]
  rfl

end

/-- Settles O17: the thread moves, the counter counts, the record goes to the rings. -/
theorem threadFault : Obligations.ThreadFault := by
  intro s m t hm ht hmay hop
  refine ⟨_, exec_mastThreadFault hm ht hmay hop, ?_⟩
  obtain ⟨hth, -, honly, hothers, hframe⟩ :=
    retire_movesTo s m t { (s.mast m).thread t with run := .faulted, item := none }
  generalize retire m t s (s.mast m) { (s.mast m).thread t with run := .faulted, item := none } = f at *
  have hdict : f.dict = s.dict := hframe .dict (by decide)
  have hring : f.ring 0 = s.ring 0 := by rw [State.ring, hframe .rings (by decide)]; rfl
  have htick : f.tick = s.tick := hframe .tick (by decide)
  have hbump := f.bump_frame (0x3800 + m / 192) 4 1
  have hpost := (f.bump (0x3800 + m / 192) 4 1).post_frame (s.threadFaultEvent m t)
  have hmast (n : Nat) : ((f.bump (0x3800 + m / 192) 4 1).post (s.threadFaultEvent m t)).mast n = f.mast n := by
    rw [State.mast, hpost .masts (by decide)]; rfl
  have hposted := hpost .dict (by decide)
  simp only [mastsBut, hmast]
  refine ⟨hth, fun howed hroom => ?_, (f.bump_counts _ 4 1).of_dict hdict.symm hposted,
    (registersBut.of_dict hdict).trans ((f.bump_registers 1 (by decide)).trans (registersBut.of_dict hposted)), honly, hothers,
    (hframe.mono (by simp)).trans ((hbump.mono (by simp)).trans (hpost.mono (by simp)))⟩
  rw [State.post_ring_zero, eventRecords_short _ (by simp [State.threadFaultEvent, packDetail, Octets.append])]
  have hring' : (f.bump (0x3800 + m / 192) 4 1).ring 0 = s.ring 0 := hring
  rw [hring', State.bump_tick, htick]
  obtain ⟨hcount, q, hmem⟩ := Ring.post_one (overflowRec s.tick 0) _ howed hroom
  exact ⟨hcount, _, hmem, rfl, rfl, rfl⟩

/-! ### Power states of a mast (R39, R117, R118, R431, R432) -/

section
variable {s : State} {m : Nat}

theorem exec_shutterEntry (h : s.mayShutter m = true) : exec (.shutterEntry m) s =
    .next ((s.setMast m { s.mast m with power := .shuttered }).bump (0x3800 + m / 192) 2 1) := by
  change execShutterEntry m s = _
  rw [execShutterEntry, h]
  rfl

theorem exec_shutteredWake (hp : (s.mast m).power = .shuttered)
    (h : ((s.mast m).threads.any fun e => e.2.run == .ready) = true ∨ s.meshBusy m = true ∨ (s.mast m).goal.isSome = true) :
    exec (.shutteredWake m) s = .next (s.setMast m { s.mast m with power := .lit }) := by
  change execShutteredWake m s = _
  have hwake : ((s.mast m).power == .shuttered && (((s.mast m).threads.any fun e => e.2.run == .ready) || s.meshBusy m ||
      (s.mast m).goal.isSome)) = true := by
    simpa [hp, or_assoc] using h
  rw [execShutteredWake]
  dsimp only
  rw [hwake]
  rfl

theorem exec_grantRequest (hm : m < 3072) (hgoal : (s.mast m).goal = none)
    (hasleep : ((s.mast m).power = .wick ∧ s.mastRequest m = 0) ∨ ((s.mast m).power = .dark ∧ s.mastRequest m < 2))
    (hnew : m ∉ s.grants) : exec (.grantRequest m) s = .next { s with grants := s.grants ++ [m] } := by
  have hasks : s.asksGrant m = true := by
    have hreq : s.mastRequest m < 2 → s.mastRequest m = 0 ∨ s.mastRequest m = 1 := by omega
    rcases hasleep with ⟨hp, h0⟩ | ⟨hp, h2⟩
    · simp [State.asksGrant, hm, hgoal, hnew, hp, h0]
    · rcases hreq h2 with h | h <;> simp [State.asksGrant, hm, hgoal, hnew, hp, h]
  change execGrantRequest m s = _
  rw [execGrantRequest, hasks]
  rfl

theorem exec_mastPowerDown {g : MastPower} (hg : (s.mast m).goal = some g) (h : s.mayPowerDown m = true) :
    exec (.mastPowerDown m) s = .next (
      let x := s.mast m
      let t := s.setMast m (if g = .wick then x.wicked else x.darkened)
      (if x.held then t.grantMast m else t).settleTree (mastDie m)) := by
  change execMastPowerDown m s = _
  rw [execMastPowerDown]
  dsimp only
  rw [hg, h]
  rfl

/-- The clock tree of a die is all that settling it can touch (R431). -/
theorem State.settleTree_registers (s : State) (d : Nat) : registersBut [(0x2000, 3)] s (s.settleTree d) := by
  unfold State.settleTree
  split
  · exact s.setVal_registers _ (by decide)
  · exact fun _ _ _ _ => rfl

theorem State.settleTree_mast (s : State) (d n : Nat) : (s.settleTree d).mast n = s.mast n := by
  rw [State.mast, s.settleTree_frame d .masts (by decide)]; rfl

/-- Setting a bit of a word sets that bit. -/
theorem testBit_setBit_true (w i : Nat) : (setBit w i true).testBit i = true := by
  unfold setBit
  split
  · assumption
  · next h => rw [if_pos rfl, Nat.add_comm, Nat.testBit_two_pow_add_eq]; simpa using h

theorem mastDie_lt {m : Nat} (hm : m < 3072) : mastDie m < 16 := by unfold mastDie; omega

/-- A clock tree that is started runs. -/
theorem State.bitOf_setTree {d : Nat} (hd : d < 16) (s : State) : bitOf ((s.setTree d true).val 0x2000 3) d = true := by
  have hlen : objLen 0x2000 3 = 2 := by decide
  rw [State.setTree, State.val_setVal_same, hlen, bitOf, Nat.testBit_mod_two_pow, testBit_setBit_true]
  simpa using hd

/-- Whether the package lets a mast wake (R39, R432, R468). -/
def State.grantOpen (s : State) (m : Nat) : Bool :=
  s.pkg == pkgReady && !(s.mast m).fenced && !s.domainDown (m / 192) && !s.stopHolds m

theorem State.grantOpen_iff : s.grantOpen m = true ↔
    ¬ (s.pkg ≠ pkgReady ∨ (s.mast m).fenced = true ∨ s.domainDown (mastDie m) = true ∨ s.stopHolds m = true) := by
  simp [State.grantOpen, mastDie, and_assoc]

/-- A mast that may not wake stays as it is. -/
theorem State.grantMast_closed (h : s.grantOpen m = false) : s.grantMast m = s :=
  if_pos (not_not.mp (mt State.grantOpen_iff.mpr (by simp [h])))

/-- What a mast that begins to wake is, and that the clock tree of its die runs then. -/
def State.wakes (s : State) (m : Nat) (p : MastPower) : State :=
  (s.setMast m { s.mast m with power := p, goal := none, held := false }).setTree (mastDie m) true

theorem State.grantMast_open (h : s.grantOpen m = true)
    (hasleep : ((s.mast m).power = .wick ∧ s.mastRequest m = 0) ∨ ((s.mast m).power = .dark ∧ s.mastRequest m < 2)) :
    s.grantMast m = s.wakes m (if (s.mast m).power = .wick then .wakingWick
      else if s.mastRequest m = 0 then .wakingDark else .wakingToWick) := by
  refine (if_neg (State.grantOpen_iff.mp h)).trans ?_
  have hreq : s.mastRequest m < 2 → s.mastRequest m = 0 ∨ s.mastRequest m = 1 := by omega
  rcases hasleep with ⟨hp, h0⟩ | ⟨hp, h2⟩
  · rw [hp, h0]; rfl
  · rcases hreq h2 with h | h <;> rw [hp, h] <;> rfl

/-- A grant leaves the state, or wakes the mast. -/
theorem State.grantMast_cases (s : State) (m : Nat) : s.grantMast m = s ∨ ∃ p, s.grantMast m = s.wakes m p := by
  unfold State.grantMast
  dsimp only
  split
  · exact .inl rfl
  · split
    · exact .inl rfl
    · exact .inr ⟨_, rfl⟩

theorem State.wakes_mast (s : State) (m : Nat) (p : MastPower) :
    (s.wakes m p).mast m = { s.mast m with power := p, goal := none, held := false } := State.mast_setMast_same ..

theorem State.wakes_others (s : State) (m : Nat) (p : MastPower) : mastsBut m s (s.wakes m p) := State.setMast_others s m _

theorem State.wakes_registers (s : State) (m : Nat) (p : MastPower) : registersBut [(0x2000, 3)] s (s.wakes m p) :=
  (registersBut.of_dict rfl).trans (State.setVal_registers _ _ (by decide))

theorem State.wakes_frame (s : State) (m : Nat) (p : MastPower) : changesOnly [.masts, .dict] s (s.wakes m p) :=
  ((State.setMast_frame s m _).mono (by simp)).trans ((State.setTree_frame _ _ _).mono (by simp))

/-- A grant as the dead end of a power-down sees it: the power state apart, the mast is the one that was put there. -/
theorem State.grantMast_setMast (s : State) (m : Nat) {y : Mast} (hgoal : y.goal = none) (hheld : y.held = false) :
    let u := (s.setMast m y).grantMast m
    (∃ p, u.mast m = { y with power := p }) ∧ registersBut [(0x2000, 3)] s u ∧ mastsBut m s u := by
  intro u
  have hset : (s.setMast m y).mast m = y := State.mast_setMast_same ..
  rcases (s.setMast m y).grantMast_cases m with h | ⟨p, h⟩
  · refine ⟨⟨y.power, ?_⟩, ?_, ?_⟩ <;> simp only [u, h]
    · exact hset
    · exact registersBut.of_dict rfl
    · exact State.setMast_others s m y
  · refine ⟨⟨p, ?_⟩, ?_, ?_⟩ <;> simp only [u, h]
    · rw [State.wakes_mast, hset, ← hgoal, ← hheld]
    · exact (registersBut.of_dict rfl).trans (State.wakes_registers _ m p)
    · exact fun n hn => (State.wakes_others _ m p n hn).trans (State.setMast_others s m y n hn)

/-- What a power-down leaves of a mast: what its new state `y` keeps, perhaps already waking again where a power-up was held
(R118, R120). -/
theorem State.powerDown_mast (s : State) (m : Nat) {y : Mast} (hgoal : y.goal = none) (hheld : y.held = false) :
    let t := s.setMast m y
    let u := (if (s.mast m).held then t.grantMast m else t).settleTree (mastDie m)
    (∃ p, u.mast m = { y with power := p }) ∧ ((s.mast m).held = false → u.mast m = y) ∧ registersBut [(0x2000, 3)] s u ∧
      mastsBut m s u ∧ changesOnly [.masts, .dict] s u := by
  intro t u
  have hu (v : State) (hv : u = v.settleTree (mastDie m)) (n : Nat) : u.mast n = v.mast n := hv ▸ State.settleTree_mast ..
  have htframe : changesOnly [.masts, .dict] s t := (State.setMast_frame s m y).mono (by simp)
  cases hx : (s.mast m).held with
  | true =>
    have huv : u = (t.grantMast m).settleTree (mastDie m) := by simp [u, hx]
    obtain ⟨⟨p, hp⟩, hregs, hothers⟩ := s.grantMast_setMast m hgoal hheld
    refine ⟨⟨p, (hu _ huv m).trans hp⟩, nofun, ?_, fun n hn => (hu _ huv n).trans (hothers n hn), ?_⟩
    · exact huv ▸ hregs.trans (State.settleTree_registers _ _)
    · exact huv ▸ htframe.trans ((State.grantMast_frame t m).trans ((State.settleTree_frame _ _).mono (by simp)))
  | false =>
    have huv : u = t.settleTree (mastDie m) := by simp [u, hx]
    have hm : u.mast m = y := (hu _ huv m).trans (State.mast_setMast_same ..)
    refine ⟨⟨y.power, hm⟩, fun _ => hm, ?_, fun n hn => (hu _ huv n).trans (State.setMast_others s m y n hn), ?_⟩
    · exact huv ▸ (registersBut.of_dict (show t.dict = s.dict from rfl)).trans (State.settleTree_registers _ _)
    · exact huv ▸ htframe.trans ((State.settleTree_frame _ _).mono (by simp))

end

/-- Settles O25. -/
theorem mastPowerStates : Obligations.MastPowerStates := by
  refine ⟨fun s m => ⟨fun h => ⟨_, exec_shutterEntry h, ?_⟩, fun hp h => ⟨_, exec_shutteredWake hp h, ?_⟩⟩,
    fun s m g hg h => ⟨_, exec_mastPowerDown hg h, ?_⟩, fun s m hm hgoal hasleep =>
      ⟨exec_grantRequest hm hgoal hasleep, fun hopen => ?_, fun hclosed => State.grantMast_closed hclosed⟩⟩
  · have hset := State.setMast_frame s m { s.mast m with power := .shuttered }
    have hothers := State.setMast_others s m { s.mast m with power := .shuttered }
    exact ⟨(State.bump_mast _ _ 2 1 m).trans (State.mast_setMast_same ..), (State.bump_counts _ _ 2 1).of_dict rfl rfl,
      (registersBut.of_dict rfl).trans (State.bump_registers _ 1 (by decide)), hothers,
      (hset.mono (by simp)).trans ((State.bump_frame _ _ 2 1).mono (by simp))⟩
  · exact ⟨State.mast_setMast_same .., State.setMast_others s m _, State.setMast_frame s m _⟩
  · by_cases hwick : g = .wick
    · obtain ⟨⟨p, hp⟩, hexact, hregs, hothers, hframe⟩ := s.powerDown_mast m (y := (s.mast m).wicked) rfl rfl
      simp only [if_pos hwick]
      refine ⟨by rw [hp]; rfl, by rw [hp]; rfl, by rw [hp]; rfl, by rw [hp]; rfl, by rw [hp]; rfl, by rw [hp]; rfl,
        fun _ => by rw [hp]; exact ⟨rfl, rfl, rfl⟩, fun hg => absurd hwick hg, fun hx => by rw [hexact hx]; rfl, hregs, hothers,
        hframe⟩
    · obtain ⟨⟨p, hp⟩, hexact, hregs, hothers, hframe⟩ := s.powerDown_mast m (y := (s.mast m).darkened) rfl rfl
      simp only [if_neg hwick]
      refine ⟨by rw [hp]; rfl, by rw [hp]; rfl, by rw [hp]; rfl, by rw [hp]; rfl, by rw [hp]; rfl, by rw [hp]; rfl,
        fun hg => absurd hg hwick, fun _ => by rw [hp]; exact ⟨rfl, rfl, rfl⟩, fun hx => by rw [hexact hx]; rfl, hregs, hothers,
        hframe⟩
  · rw [State.grantMast_open hopen hasleep]
    refine ⟨?_, State.bitOf_setTree (mastDie_lt hm) _, State.wakes_registers s m _, State.wakes_others s m _,
      State.wakes_frame s m _⟩
    rw [State.wakes_mast, ← hgoal]

end Sys2Proof.Machine

/-! SUPPORT. What a request to memory leaves as it was, for the operations that make one (O10, O14, O15, O20, O24).

`s.stirs fs strict t` says that from `s` to `t` only the pieces in `fs` and those of a request change, that no mast changes but
in the notes that a watched line was written, and, where `strict` is set, that no object of the dictionary from 3300h on does.
Each operation of a request has one lemma that says so, in the order of the model's files, as the equation of
`State.Led`: `simp` peels an operation's body from the outside by it. -/

namespace Sys2Proof.Machine

-- One proof at a time: each waits for the lemmas that it rewrites by.
set_option Elab.async false

/-! ### Calm masts -/

@[simp] theorem Mast.calm_thread (x : Mast) (t : Nat) : x.calm.thread t = (x.thread t).calm :=
  FMap.get_map (fun _ => Thread.calm) (fun _ => rfl) x.threads t

theorem calmAll.refl (s : State) : calmAll s s := fun _ => rfl

theorem calmAll.trans {s t u : State} (h : calmAll s t) (h' : calmAll t u) : calmAll s u := fun n => (h' n).trans (h n)

theorem calmAll.of_masts {s t : State} (h : t.masts = s.masts) : calmAll s t := fun n => by
  rw [State.mast, State.mast, h]

/-- A thread that watches line `l`, alerted. -/
def Thread.alerted (th : Thread) (l : Nat) : Thread :=
  match th.wait with
  | .watch a v dl d _ => if a / 128 = l then { th with wait := .watch a v dl d true } else th
  | _ => th

@[simp] theorem Thread.alerted_calm (th : Thread) (l : Nat) : (th.alerted l).calm = th.calm := by
  obtain ⟨regs, pc, run, wait, item⟩ := th
  cases wait with
  | watch a v dl d hit => unfold Thread.alerted; dsimp only; split <;> rfl
  | _ => rfl

/-- A mast whose threads that watch line `l` are alerted. -/
def Mast.alerted (x : Mast) (l : Nat) : Mast := { x with threads := x.threads.map fun e => (e.1, e.2.alerted l) }

@[simp] theorem Mast.alerted_calm (x : Mast) (l : Nat) : (x.alerted l).calm = x.calm := by
  simp [Mast.alerted, Mast.calm, Function.comp_def]

theorem State.alertWatches_eq (s : State) (g l : Nat) : s.alertWatches g l =
    { s with masts := s.masts.map fun e => (e.1, if mastDie e.1 ≠ g then e.2 else e.2.alerted l) } := by
  unfold State.alertWatches
  congr 2
  funext ⟨n, x⟩
  split
  · rfl
  · dsimp only [Mast.alerted]
    congr 3
    funext ⟨t, regs, pc, run, wait, item⟩
    cases wait with
    | watch a v dl d hit => dsimp only [Thread.alerted]; split <;> rfl
    | _ => rfl

/-- The note that a watched line was written is all that an alert leaves (R99). -/
theorem State.alertWatches_calm (s : State) (g l : Nat) : calmAll s (s.alertWatches g l) := fun n => by
  have hget : (s.alertWatches g l).mast n = if mastDie n ≠ g then s.mast n else (s.mast n).alerted l := by
    rw [State.alertWatches_eq]
    exact FMap.get_map (d := {}) (fun k x => if mastDie k ≠ g then x else x.alerted l) (fun k => by split <;> rfl) s.masts n
  rw [hget]
  split
  · rfl
  · exact Mast.alerted_calm _ l

/-! ### The relation -/

/-- From `s` to `t` a request to memory did its work: see above. -/
structure State.stirs (fs : List Piece) (strict : Bool) (s t : State) : Prop where
  frame : changesOnly (fs ++ readPieces) s t
  calm : calmAll s t
  objects : strict = true → ∀ i j, 0x3300 ≤ i → t.obj i j = s.obj i j

/-- The relation under a name that no rule rewrites: what stands to the right of an `orElse`. -/
def State.stirsElse (fs : List Piece) (strict : Bool) (s t : State) : Prop := s.stirs fs strict t

/-- What a request may have done from `ρ` to `s`, it may have done from `ρ` to `t`: an equation to rewrite by. -/
@[reducible] def State.Stirred (fs : List Piece) (strict : Bool) (ρ s t : State) : Prop :=
  ρ.stirs fs strict t = orElse (ρ.stirs fs strict s) (ρ.stirsElse fs strict t)

section
variable {fs : List Piece} {strict : Bool} {ρ s t u : State}

@[simp ↓] theorem State.stirs_refl (s : State) : s.stirs fs strict s :=
  ⟨changesOnly.refl _ s, calmAll.refl s, fun _ _ _ _ => rfl⟩

theorem State.stirs.trans (h : s.stirs fs strict t) (h' : t.stirs fs strict u) : s.stirs fs strict u :=
  ⟨h.frame.trans h'.frame, h.calm.trans h'.calm, fun hs i j hi => (h'.objects hs i j hi).trans (h.objects hs i j hi)⟩

theorem State.stirs.mono {gs : List Piece} {strict' : Bool} (h : s.stirs fs strict t) (hs : fs ⊆ gs)
    (hstrict : strict' = true → strict = true) : s.stirs gs strict' t :=
  ⟨h.frame.mono (List.append_subset.mpr ⟨List.subset_append_of_subset_left _ hs, List.subset_append_right _ _⟩), h.calm,
    fun hs => h.objects (hstrict hs)⟩

theorem State.stirred_of (h : s.stirs fs strict t) : State.Stirred fs strict ρ s t := by
  simpa [State.Stirred, State.stirsElse, orElse] using fun h' : ρ.stirs fs strict s => h'.trans h

/-- An operation that leaves masts and dictionary. -/
theorem State.stirred_of_frame {gs : List Piece} (h : changesOnly gs s t) (hs : gs ⊆ fs ++ readPieces)
    (hm : Piece.masts ∉ gs := by decide) (hd : Piece.dict ∉ gs := by decide) : State.Stirred fs strict ρ s t :=
  State.stirred_of ⟨h.mono hs, calmAll.of_masts (h .masts hm), fun _ i j _ => by rw [State.obj, State.obj, h .dict hd]⟩

/-- An update of what a request may touch at the homes and in the caches. -/
@[simp ↓] theorem State.mk_stirred {free lines uses directory trackers streams heldReqs hot rings limits} :
    State.Stirred fs strict ρ s
    (State.mk s.pending s.tick free s.draws s.outbox s.ident s.mem s.poisoned s.grad s.panes s.trims s.masts s.parts lines uses
      directory trackers streams s.openRows heldReqs hot s.hotSince s.hbm s.lantern s.silent s.dict s.snaps s.snapRing
      s.writes rings limits s.sessions s.stagers s.commits s.commitNum s.deferred s.accepted s.plans s.holds s.holdNum s.sent
      s.sentNum s.ports s.heard s.remote s.remoteNum s.rats s.flows s.bondSince s.coreLoads s.mailSlots s.mailbox s.peerMail
      s.resets s.grants s.domains s.power s.fw s.mgmtRate s.mgmtSince s.i3cAddr s.ibien s.hellos s.carve) :=
  State.stirred_of_frame (gs := [.free, .lines, .uses, .directory, .trackers, .streams, .heldReqs, .hot, .rings, .limits])
    (fun f hf => by cases f <;> first | rfl | simp at hf) (fun f hf => List.mem_append_right _ (by revert hf; revert f; decide))

@[simp ↓] theorem State.stirs_ite {c : Prop} [Decidable c] (s t u : State) :
    s.stirs fs strict (if c then t else u) = if c then s.stirs fs strict t else s.stirs fs strict u := apply_ite ..

@[simp ↓] theorem State.stirs_ite_snd {α : Type} {c : Prop} [Decidable c] (s : State) (a b : α × State) :
    s.stirs fs strict (if c then a else b).2 = if c then s.stirs fs strict a.2 else s.stirs fs strict b.2 :=
  apply_ite (fun x : α × State => s.stirs fs strict x.2) ..

theorem State.foldl_stirs {β : Type} {f : State → β → State} (hf : ∀ (s : State) b, s.stirs fs strict (f s b)) (l : List β)
    (s : State) : s.stirs fs strict (l.foldl f s) := by
  induction l generalizing s with
  | nil => exact s.stirs_refl
  | cons b l ih => exact (hf s b).trans (ih (f s b))

@[simp ↓] theorem State.foldl_stirred {β : Type} (f : State → β → State) (hf : ∀ (s : State) b, s.stirs fs strict (f s b))
    (l : List β) (s : State) : State.Stirred fs strict ρ s (l.foldl f s) := State.stirred_of (State.foldl_stirs hf l s)

/-- The same for a fold that carries a value beside the state. -/
theorem State.foldl_snd_stirs {α β : Type} {f : α × State → β → α × State}
    (hf : ∀ (a : α × State) b, a.2.stirs fs strict (f a b).2) (l : List β) (a : α × State) :
    a.2.stirs fs strict (l.foldl f a).2 := by
  induction l generalizing a with
  | nil => exact a.2.stirs_refl
  | cons b l ih => exact (hf a b).trans (ih (f a b))

@[simp ↓] theorem State.foldl_snd_stirred {α β : Type} (f : α × State → β → α × State)
    (hf : ∀ (a : α × State) b, a.2.stirs fs strict (f a b).2) (l : List β) (a : α × State) :
    State.Stirred fs strict ρ a.2 (l.foldl f a).2 := State.stirred_of (State.foldl_snd_stirs hf l a)

@[simp ↓] theorem State.forRange_stirred (n : Nat) (s : State) (f : Nat → State → State)
    (hf : ∀ i (s : State), s.stirs fs strict (f i s)) : State.Stirred fs strict ρ s (forRange n s f) :=
  State.stirred_of (State.foldl_stirs (fun s i => hf i s) _ s)

end

/-! ### Far caches, directory and trackers -/

theorem hashT7_lt (kb v : Nat) : hashT7 kb v < 2 ^ 7 := by
  have key (js : List Nat) (acc : Nat) (hacc : acc < 2 ^ 7) :
      js.foldl (fun acc j => if bitOf v j then acc ^^^ hashT kb (2 ^ j) % 2 ^ 7 else acc) acc < 2 ^ 7 := by
    induction js generalizing acc with
    | nil => exact hacc
    | cons j js ih =>
      refine ih _ ?_
      dsimp only
      split
      · exact Nat.xor_lt_two_pow hacc (Nat.mod_lt _ (by decide))
      · exact hacc
  exact key _ 0 (by decide)

/-- A pseudo-channel is one of the 2,048 of the package (R194, R195). -/
theorem State.lineChannel_lt (s : State) (l : Nat) : s.lineChannel l < 2048 := by
  have key (k : Nat) (stripe : Bool) (a : Nat) : channelOf k stripe a < 2048 := by
    cases stripe with
    | false => exact channelOf_lt k a
    | true =>
      have hdie : field a 26 23 < 2 ^ 4 := field_lt a 26 23
      have hlow : field a 14 8 ^^^ hashU (keyBits k) % 2 ^ 7 ^^^ hashT7 (keyBits k) (field a 21 15) < 2 ^ 7 :=
        Nat.xor_lt_two_pow (Nat.xor_lt_two_pow (field_lt a 14 8) (Nat.mod_lt _ (by decide))) (hashT7_lt _ _)
      have heq : channelOf k true a = 128 * field a 26 23 +
        (field a 14 8 ^^^ hashU (keyBits k) % 2 ^ 7 ^^^ hashT7 (keyBits k) (field a 21 15)) := by
        rw [channelOf, if_pos rfl]
      omega
  exact key _ _ _

section
variable {fs : List Piece} {strict : Bool} {ρ : State}
variable (s : State) (l g c who n w d a h k i j : Nat) (q : LineReq) (st : LineState) (x : DirEntry)
  (halves : List Nat) (ask : LineAsk) (whole write : Bool)

/-- An object below 3300h of the dictionary. -/
theorem State.setVal_stirred (v : Nat) (hi : i < 0x3300) (hj : j < 256) : State.Stirred fs strict ρ s (s.setVal i j v) := by
  refine State.stirred_of ⟨(s.setVal_frame i j v).mono fun f hf => ?_, calmAll.of_masts rfl, fun _ k l hk => ?_⟩
  · obtain rfl := List.mem_singleton.mp hf
    exact List.mem_append_right _ (by decide)
  · exact State.obj_setObj_other s _ (by unfold objKey; omega)

theorem State.bump_stirred (hi : i < 0x3300) (hj : j < 256) : State.Stirred fs strict ρ s (s.bump i j n) :=
  State.setVal_stirred (s := s) i j _ hi hj

@[simp ↓] theorem State.open_stirred : State.Stirred fs strict ρ s (s.open n).2 :=
  State.stirred_of_frame (s.open_frame n) (List.subset_append_of_subset_right _ (by decide))

@[simp ↓] theorem State.post_stirred (e : Event) : State.Stirred fs strict ρ s (s.post e) :=
  State.stirred_of_frame (s.post_frame e) (List.subset_append_of_subset_right _ (by decide))

@[simp ↓] theorem State.postLimited_stirred (gap : Nat) (e : Event) : State.Stirred fs strict ρ s (s.postLimited n gap e) :=
  State.stirred_of_frame (s.postLimited_frame n gap e) (List.subset_append_of_subset_right _ (by decide))

@[simp ↓] theorem State.postEach_stirred (gap : Nat) (parts : List Nat) (e : Nat → Event) :
    State.Stirred fs strict ρ s (s.postEach n gap parts e) :=
  State.stirred_of_frame (s.postEach_frame n gap parts e) (List.subset_append_of_subset_right _ (by decide))

@[simp ↓] theorem State.setLine_stirred (x : Line) : State.Stirred fs strict ρ s (s.setLine g l x) :=
  State.stirred_of (by simp [State.setLine])

@[simp ↓] theorem State.dropLine_stirred : State.Stirred fs strict ρ s (s.dropLine g l) :=
  State.stirred_of (by simp [State.dropLine])
@[simp ↓] theorem State.touchLine_stirred : State.Stirred fs strict ρ s (s.touchLine g l st) :=
  State.stirred_of (by simp [State.touchLine])
@[simp ↓] theorem State.setDir_stirred : State.Stirred fs strict ρ s (s.setDir l x) := State.stirred_of (by simp [State.setDir])
@[simp ↓] theorem State.setTracker_stirred (x : Tracker) : State.Stirred fs strict ρ s (s.setTracker n x) :=
  State.stirred_of (by simp [State.setTracker])
@[simp ↓] theorem State.received_stirred : State.Stirred fs strict ρ s (s.received c halves) :=
  State.stirred_of (by simp [State.received])

/-- The cache counters (Tables 6.5 and 3200h). -/
@[simp ↓] theorem State.countCache_stirred (hi : i = 0x3200 ∨ i = 0x3280) (hj : j < 256) :
    State.Stirred fs strict ρ s (s.countCache g i j) := by
  refine State.stirred_of ?_
  unfold State.countCache
  split
  · next hg => simp [State.bump_stirred s 1 (i + g) j (by omega) hj]
  · exact s.stirs_refl


/-- The counts of a tracker (Table 6.7). -/
@[simp ↓] theorem State.noteUse_stirred (hc : c < 2048) : State.Stirred fs strict ρ s (s.noteUse c) := by
  have hd : 0x3100 + c / 128 < 0x3300 := by omega
  exact State.stirred_of (by simp [State.noteUse, State.setVal_stirred, hd])

@[simp ↓] theorem State.takeEntries_stirred (pref read : Bool) (hc : c < 2048) :
    State.Stirred fs strict ρ s (s.takeEntries c q pref read) := State.stirred_of (by simp [State.takeEntries, hc])

/-- Requests are refused for the reasons 3 and 4. -/
theorem State.refusal_lt {why : Nat} (hw : s.refusal c who n = some why) : why < 256 := by
  unfold State.refusal at hw
  dsimp only at hw
  split at hw
  · cases hw; decide
  · split at hw <;> cases hw; decide

@[simp ↓] theorem State.refuseEntry_stirred {why : Nat} (hc : c < 2048)
    (hw : s.refusal c q.who q.halves.length = some why) : State.Stirred fs strict ρ s (s.refuseEntry c l q why) := by
  have hd : 0x3100 + c / 128 < 0x3300 := by omega
  exact State.stirred_of (by simp [State.refuseEntry, State.bump_stirred, hd, s.refusal_lt _ _ _ hw])

@[simp ↓] theorem State.alertWatches_stirred : State.Stirred fs strict ρ s (s.alertWatches g l) := by
  refine State.stirred_of ⟨fun f hf => ?_, s.alertWatches_calm g l, fun _ _ _ _ => rfl⟩
  have hmasts : f ≠ .masts := by rintro rfl; exact hf (List.mem_append_right _ (by decide))
  cases f <;> first | rfl | exact absurd rfl hmasts

@[simp ↓] theorem State.recallHolder_stirred : State.Stirred fs strict ρ s (s.recallHolder g l) := by
  refine State.stirred_of ?_
  unfold State.recallHolder; dsimp only; (repeat' split) <;> simp

@[simp ↓] theorem State.recall_stirred (hh : h < 16) : State.Stirred fs strict ρ s (s.recall h k l) := by
  have hd : 0x3200 + h < 0x3300 := by omega
  exact State.stirred_of (by simp [State.recall, State.bump_stirred, hd])

@[simp ↓] theorem State.dirRoom_stirred : State.Stirred fs strict ρ s (s.dirRoom l) :=
  State.stirred_of (by simp [State.dirRoom, State.home_lt])

@[simp ↓] theorem State.shareHome_stirred : State.Stirred fs strict ρ s (s.shareHome h l) := by
  refine State.stirred_of ?_
  unfold State.shareHome; split <;> simp

@[simp ↓] theorem State.serveLine_stirred (hq : q.agent < 128) : State.Stirred fs strict ρ s (s.serveLine l q) := by
  have hd : 0x3280 + q.agent < 0x3300 := by omega
  refine State.stirred_of ?_
  unfold State.serveLine; dsimp only; (repeat' split) <;>
    simp [State.setVal_stirred, State.lineChannel_lt, State.home_lt, *]

@[simp ↓] theorem State.reach_stirred (hq : q.agent < 128) : State.Stirred fs strict ρ s (s.reach l q) :=
  State.stirred_of (by simp [State.reach, hq])

@[simp ↓] theorem State.sendLine_stirred (hg : g < 128) : State.Stirred fs strict ρ s (s.sendLine l g ask who halves) :=
  State.stirred_of (by simp [State.sendLine, hg])

@[simp ↓] theorem State.accessHome_stirred (op : HomeOp) : State.Stirred fs strict ρ s (s.accessHome who op a n) :=
  State.stirred_of (by simp [State.accessHome, fun (t : State) b => (t.home_lt b).trans (show 16 < 128 by decide)])

@[simp ↓] theorem State.adaptDepth_stirred (grow : Bool) : State.Stirred fs strict ρ s (s.adaptDepth g l grow) :=
  State.stirred_of (by simp [State.adaptDepth])

@[simp ↓] theorem State.prefetchLine_stirred (hg : g < 128) : State.Stirred fs strict ρ s (s.prefetchLine g w l) :=
  State.stirred_of (by simp [State.prefetchLine, hg])

@[simp ↓] theorem State.trainPrefetch_stirred (hg : g < 128) : State.Stirred fs strict ρ s (s.trainPrefetch g w l) := by
  refine State.stirred_of ?_
  unfold State.trainPrefetch; dsimp only; (repeat' split) <;> simp [hg]

@[simp ↓] theorem State.upgrade_stirred (hg : g < 128) : State.Stirred fs strict ρ s (s.upgrade g l who whole) :=
  State.stirred_of (by simp [State.upgrade, hg])

@[simp ↓] theorem State.demandLine_stirred (hg : g < 128) :
    State.Stirred fs strict ρ s (s.demandLine g w who write whole l) := by
  refine State.stirred_of ?_
  unfold State.demandLine; (repeat' split) <;> simp [hg]

@[simp ↓] theorem State.demand_stirred (hg : g < 128) : State.Stirred fs strict ρ s (s.demand g w who a n write) :=
  State.stirred_of (by simp [State.demand, hg])

@[simp ↓] theorem State.keepShared_stirred (hg : g < 128) : State.Stirred fs strict ρ s (s.keepShared g l) := by
  refine State.stirred_of ?_
  unfold State.keepShared; (repeat' split) <;> simp [hg]

end

/-! ### Memory requests -/

section
variable {fs : List Piece} {strict : Bool} {ρ : State}
variable (s : State) (a n v who : Nat) (part : Option Nat) {r : Requester} (hr : r.die < 16)

@[simp ↓] theorem State.homeAtomic_stirred : State.Stirred fs strict ρ s (s.homeAtomic who a) :=
  State.stirred_of (by simp [State.homeAtomic])

/-- Bytes that a request may write. -/
@[simp ↓] theorem State.store_stirred (hm : Piece.mem ∈ fs) (hp : Piece.poisoned ∈ fs) :
    State.Stirred fs strict ρ s (s.store a n v) :=
  State.stirred_of_frame (s.store_frame a n v) (List.subset_append_of_subset_left _ (by simp [hm, hp]))

include hr

@[simp ↓] theorem State.blocked_stirred : State.Stirred fs strict ρ s (s.blocked r part a n) := by
  have hd : 0x3200 + r.die < 0x3300 := by omega
  exact State.stirred_of (by simp [State.blocked, State.blockedFor, State.bump_stirred, hd])

@[simp ↓] theorem State.fetchFor_stirred (write : Bool) : State.Stirred fs strict ρ s (s.fetchFor r part a n write) := by
  refine State.stirred_of ?_
  unfold State.fetchFor; split <;> simp [hr.trans (show 16 < 128 by decide)]

@[simp ↓] theorem State.readReq_stirred : State.Stirred fs strict ρ s (s.readReq r part a n).2 :=
  State.stirred_of (by simp [State.readReq, hr])

@[simp ↓] theorem State.writeReq_stirred (hm : Piece.mem ∈ fs) (hp : Piece.poisoned ∈ fs) :
    State.Stirred fs strict ρ s (s.writeReq r part a n v).2 :=
  State.stirred_of (by simp [State.writeReq, hr, hm, hp])

@[simp ↓] theorem State.readMany_stirred : State.Stirred fs strict ρ s (s.readMany r part a n).2 :=
  State.stirred_of (by simp [State.readMany, hr])

@[simp ↓] theorem State.writeMany_stirred (hm : Piece.mem ∈ fs) (hp : Piece.poisoned ∈ fs) :
    State.Stirred fs strict ρ s (s.writeMany r part a n v).2 :=
  State.stirred_of (by simp [State.writeMany, hr, hm, hp])

@[simp ↓] theorem State.atomicWord_stirred : State.Stirred fs strict ρ s (s.atomicWord r part a).2 :=
  State.stirred_of (by simp [State.atomicWord, hr])

end

end Sys2Proof.Machine

/-! SUPPORT. The operations of a thread that make a request to memory: LDM, STM, FETCHW and WATCH (O10, O14, O15). `asksMemory`
is what each leaves: a state that a request `stirs`, with the thread put back. -/

namespace Sys2Proof.Machine

/-! ### What a request leaves, and what it answers -/

section
variable {s t : State} (h : s.stirs [] true t)
include h

theorem State.stirs.load (a n : Nat) : t.load a n = s.load a n := by
  rw [State.load, h.frame .mem (by decide)]; rfl

theorem State.stirs.byte (b : Nat) : t.byte b = s.byte b := by
  rw [State.byte, h.frame .mem (by decide)]; rfl

theorem State.stirs.window (p n : Nat) : t.window p n = s.window p n :=
  congrArg Octets.bits (h.objects rfl _ _ (by omega))

theorem State.stirs.part (p : Nat) : t.part p = s.part p := by
  rw [State.part, h.frame .parts (by decide)]; rfl

/-- A request changes no window, so it admits what was admitted. -/
theorem State.stirs.admits (part : Option Nat) (a n : Nat) (rights : List Nat) :
    t.admits part a n rights = s.admits part a n rights := by
  have hident : t.ident = s.ident := h.frame .ident (by decide)
  unfold State.admits State.findWindow State.memTop
  simp only [h.part, h.window, hident]

theorem State.stirs.placing (a : Nat) : t.placing a = s.placing a := by
  have hwindow : t.windowOf a = s.windowOf a := by simp only [State.windowOf, h.window]
  rw [State.placing, State.placing, hwindow]
  cases s.windowOf a with
  | none => simp only [State.placeIn, h.part]
  | some k => simp only [State.placeIn, h.part, h.window]

theorem State.stirs.home (a : Nat) : t.home a = s.home a := by
  simp only [State.home, h.placing]

theorem State.stirs.homeFenced (a : Nat) : t.homeFenced a = s.homeFenced a := by
  have hfence : t.val 0x7180 1 = s.val 0x7180 1 := congrArg Octets.bits (h.objects rfl _ _ (by decide))
  simp only [State.homeFenced, State.dieFenced, hfence, h.home]

theorem State.stirs.badRange (a n : Nat) : t.badRange a n = s.badRange a n := by
  have hpoison : t.poisoned = s.poisoned := h.frame .poisoned (by decide)
  simp only [State.badRange, hpoison, h.homeFenced]

end

section
variable {fs : List Piece} {s t t' : State} {i j n : Nat} (h : s.stirs fs true t) (hi : 0x3300 ≤ i)
include h hi

theorem State.stirs.val : t.val i j = s.val i j := congrArg Octets.bits (h.objects rfl i j hi)

/-- A count after a request. -/
theorem State.stirs.counts (hd : t'.dict = t.dict) : counts s (t'.bump i j n) i j n := by
  refine (State.bump_counts t' i j n).trans ?_
  rw [← h.val hi, State.val, State.obj, hd]; rfl

end

/-- What a store leaves in memory. -/
theorem State.store_byte (s : State) (a n v b : Nat) : (s.store a n v).byte b =
    if a ≤ b ∧ b < a + n then BitVec.ofNat 8 (v >>> (8 * (b - a))) else s.byte b := by
  rw [State.byte, State.byte_store, Nat.shiftRight_eq_div_pow, Nat.pow_mul]
  rfl

section
variable {s : State} {r : Requester} (hr : r.die < 16) (part : Option Nat) (a n v : Nat)
include hr

/-- A read that no window admits, or that meets poison or a fence, is an error (R188, R199, R472). -/
theorem State.readReq_err : (s.readReq r part a n).1.err = !(s.admits part a n [rightRd] && !s.badRange a n) := by
  have hfetch : s.stirs [] true (s.fetchFor r part a n false) := by simp [hr]
  unfold State.readReq
  cases hadmit : s.admits part a n [rightRd] with
  | false => rfl
  | true =>
    simp only [if_true, hfetch.badRange]
    split <;> simp_all

/-- Any other read answers what memory holds. -/
theorem State.readReq_val (hgood : (s.admits part a n [rightRd] && !s.badRange a n) = true) :
    (s.readReq r part a n).1.val = s.load a n := by
  have hfetch : s.stirs [] true (s.fetchFor r part a n false) := by simp [hr]
  simp only [Bool.and_eq_true, Bool.not_eq_true'] at hgood
  obtain ⟨hadmit, hbad⟩ := hgood
  simp [State.readReq, hadmit, hfetch.badRange, hbad, hfetch.load]

/-- What a write leaves in memory: its bytes, where a window admits it and the home is not fenced (R188, R472). -/
theorem State.writeReq_byte (b : Nat) : ((s.writeReq r part a n v).2).byte b =
    if (s.admits part a n [rightWr] && !s.homeFenced a) = true ∧ a ≤ b ∧ b < a + n then
      BitVec.ofNat 8 (v >>> (8 * (b - a))) else s.byte b := by
  have hfetch : s.stirs [] true (s.fetchFor r part a n true) := by simp [hr]
  have hblocked : s.stirs [] true (s.blocked r part a n) := by simp [hr]
  unfold State.writeReq
  cases hadmit : s.admits part a n [rightWr] with
  | false => simp [hblocked.byte]
  | true =>
    simp only [if_true, hfetch.homeFenced]
    cases hfence : s.homeFenced a with
    | true => simp [hfetch.byte]
    | false => simp [State.store_byte, hfetch.byte]

end

/-! ### An operation that makes a request -/

/-- An operation on one thread looks the same on calm masts. -/
theorem onlyThread.calm {x y : Mast} {t : Nat} (h : onlyThread t x y) : onlyThread t x.calm y.calm := by
  obtain ⟨hrest, hothers⟩ := h
  refine ⟨?_, fun u hu => by simp [hothers u hu]⟩
  conv_lhs => rw [hrest]
  rfl

section
variable {fs : List Piece} {strict : Bool} {s s' : State} {m t : Nat}

/-- A thread that made a request and is then put back. -/
theorem asksMemory_setMast {y : Mast} (h : s.stirs fs strict s') (hy : onlyThread t (s'.mast m) y) :
    asksMemory (fs ++ readPieces) s (s'.setMast m y) m t (y.thread t) := by
  refine ⟨by rw [State.mast_setMast_same], ?_, fun n hn => ?_, h.frame.trans ((State.setMast_frame s' m y).mono ?_)⟩
  · rw [State.mast_setMast_same, ← h.calm m]
    exact hy.calm
  · rw [State.setMast_others s' m y n hn, h.calm n]
  · exact List.subset_append_of_subset_right _ (by decide)

/-- A thread that made a request and moves to `th`. -/
theorem asksMemory_retire (h : s.stirs fs strict s') (th : Thread) :
    asksMemory (fs ++ readPieces) s (retire m t s' (s'.mast m) th) m t th := by
  have hasks := asksMemory_setMast h (onlyThread_setThread (s'.mast m) t th).issued
  rwa [Mast.issued_thread, Mast.thread_setThread_same] at hasks

end

/-! ### LDM, STM and their results -/

section
variable {s : State} {m t : Nat}

theorem exec_ldm (h : s.issues m t 0x12 = true) : exec (.ldm m t) s =
    let o := s.operands m t
    let a := wordAddr (o.sa + o.imm)
    let r := s.readReq (.thread m t) (s.partOfMast m) a 8
    .next (awaitResult m t r.2 ((s.mast m).thread t) o.d (if r.1.err then 0#64 else BitVec.ofNat 64 r.1.val)
      (if r.1.err then none else some a)) := by
  change execLdm m t s = _
  rw [execLdm, issue_eq h]

theorem exec_stm (h : s.issues m t 0x13 = true) : exec (.stm m t) s =
    let o := s.operands m t
    let s' := (s.writeReq (.thread m t) (s.partOfMast m) (wordAddr (o.sa + o.imm)) 8 o.sb.toNat).2
    .next (retire m t s' (s'.mast m) ((s.mast m).thread t).advance) := by
  change execStm m t s = _
  rw [execStm, issue_eq h]

theorem exec_memoryResultReturn {d : Nat} {v : Word64} {addr : Option Nat} (hw : ((s.mast m).thread t).wait = .result d v addr)
    (hawaits : s.awaits (threadWho m t) = false) : exec (.memoryResultReturn m t) s =
      .next (s.setMast m ((s.mast m).setThread t { ((s.mast m).thread t).setReg d
        (if addr.any (fun b => s.badRange b 8) then 0#64 else v) with run := .ready, wait := .none })) := by
  change execMemoryResultReturn m t s = _
  rw [execMemoryResultReturn]
  dsimp only
  rw [hw]
  dsimp only
  rw [hawaits]
  cases addr <;> simp

end

/-- The base die that checks a thread's windows is one of the sixteen. -/
theorem Requester.thread_die_lt {m : Nat} (hm : m < 3072) (t : Nat) : (Requester.thread m t).die < 16 := mastDie_lt hm

/-- Settles O10. -/
theorem memoryWords : Obligations.MemoryWords := by
  refine ⟨fun s m t => ⟨fun h => ?_, fun d v addr hw hawaits => ?_⟩, fun s m t h => ?_⟩
  · have hr := Requester.thread_die_lt (s.issues_lt h) t
    refine ⟨_, exec_ldm h, ?_⟩
    have hread : s.stirs [] true (s.readReq (.thread m t) (s.partOfMast m)
      (wordAddr ((s.operands m t).sa + (s.operands m t).imm)) 8).2 := by simp [hr]
    have hasks := asksMemory_retire (m := m) (t := t) hread
    rw [State.readReq_err hr]
    cases hgood : s.admits (s.partOfMast m) (wordAddr ((s.operands m t).sa + (s.operands m t).imm)) 8 [rightRd] &&
        !s.badRange (wordAddr ((s.operands m t).sa + (s.operands m t).imm)) 8 with
    | false => exact hasks _
    | true =>
      rw [State.readReq_val hr _ _ _ hgood]
      exact hasks _
  · refine ⟨_, exec_memoryResultReturn hw hawaits, ?_⟩
    rw [State.mast_setMast_same]
    exact ⟨Mast.thread_setThread_same .., onlyThread_setThread _ t _, State.setMast_others s m _, State.setMast_frame s m _⟩
  · have hr := Requester.thread_die_lt (s.issues_lt h) t
    have hwrite : s.stirs [.mem, .poisoned] true (s.writeReq (.thread m t) (s.partOfMast m)
      (wordAddr ((s.operands m t).sa + (s.operands m t).imm)) 8 (s.operands m t).sb.toNat).2 := by simp [hr]
    exact ⟨_, exec_stm h, State.writeReq_byte hr _ _ _ _, asksMemory_retire hwrite _⟩

/-! ### FETCHW (R103, R104) -/

/-- An atomic step answers the word that memory held, where a window admits it and it is neither poisoned nor fenced. -/
theorem State.atomicWord_fst (s : State) (r : Requester) (part : Option Nat) (a : Nat) : (s.atomicWord r part a).1 =
    if (s.admits part a 8 [rightAt] && !s.badRange a 8) = true then some (s.load a 8) else none := by
  have hhome : s.stirs [] true (s.homeAtomic r.who a) := by simp
  unfold State.atomicWord
  cases hadmit : s.admits part a 8 [rightAt] with
  | false => rfl
  | true =>
    simp only [if_true, hhome.badRange, hhome.load]
    cases s.badRange a 8 <;> rfl

/-- Whether the list at `a` can be read by partition `part`. -/
def State.listGood (s : State) (part : Option Nat) (a : Nat) : Bool :=
  s.admits part (a + 128) 8 [rightAt] && s.admits part a 8 [rightAt] && !s.badRange a 8 && !s.badRange (a + 128) 8

/-- Whether mast `m` claims a work item of that list. -/
def State.claimsWork (s : State) (m a : Nat) : Bool :=
  s.listGood (s.partOfMast m) a && decide (s.load (a + 128) 8 < s.load a 8) && (s.mast m).goal.isNone

/-- A thread that waits for what its FETCHW answers. -/
def Thread.fetching (th : Thread) (d : Nat) (v : Word64) (a : Nat) (item : Option Bool) : Thread :=
  { th.advance with run := .stalled, wait := .fetched d v a, item := item }

section
variable {s : State} {m t : Nat}

/-- FETCHW asks for the two words of the list, and then claims HEAD, or reports TAIL where it may read it. -/
theorem exec_fetchw (h : s.issues m t 0x33 = true) :
    let o := s.operands m t
    let a := wordAddr o.sa
    let th := (s.mast m).thread t
    let claimed := fun (u : State) => u.store (a + 128) 8 (s.load (a + 128) 8 + 1)
    ∃ u, s.stirs [] true u ∧ exec (.fetchw m t) s = .next (
      if s.claimsWork m a = true then
        retire m t (claimed u) ((claimed u).mast m)
          (th.fetching o.d (BitVec.ofNat 64 (s.load (a + 128) 8)) a (some (s.compatOf (s.partOfMast m))))
      else retire m t u (u.mast m)
        (th.fetching o.d (BitVec.ofNat 64 (2 ^ 63 + if s.listGood (s.partOfMast m) a = true then s.load a 8 % 2 ^ 63 else 0))
          a none)) := by
  have hr := Requester.thread_die_lt (s.issues_lt h) t
  change ∃ u, s.stirs [] true u ∧ execFetchw m t s = _
  rw [execFetchw, issue_eq h]
  dsimp only
  generalize wordAddr (s.operands m t).sa = a
  have hfst := s.atomicWord_fst (.thread m t) (s.partOfMast m) a
  have hsnd : s.stirs [] true (s.atomicWord (.thread m t) (s.partOfMast m) a).2 := by simp [hr]
  generalize s.atomicWord (.thread m t) (s.partOfMast m) a = answer at hfst hsnd ⊢
  cases hadmit : s.admits (s.partOfMast m) (a + 128) 8 [rightAt] with
  | false =>
    refine ⟨s.blocked (.thread m t) (s.partOfMast m) (a + 128) 8, by simp [hr], ?_⟩
    simp only [State.claimsWork, State.listGood, hadmit]
    rfl
  | true =>
    obtain ⟨_ | tail, u⟩ := answer
    case none =>
      have hbad : (s.admits (s.partOfMast m) a 8 [rightAt] && !s.badRange a 8) = false := by simpa using hfst.symm
      refine ⟨u, hsnd, ?_⟩
      simp only [State.claimsWork, State.listGood, hadmit, hbad, Bool.true_and]
      rfl
    case some =>
      obtain ⟨hgood, rfl⟩ : (s.admits (s.partOfMast m) a 8 [rightAt] && !s.badRange a 8) = true ∧ s.load a 8 = tail := by
        simpa using hfst.symm
      have hstirs : s.stirs [] true (u.homeAtomic (threadWho m t) (a + 128)) := hsnd.trans (by simp)
      have hgood' : s.listGood (s.partOfMast m) a = !s.badRange (a + 128) 8 := by
        rw [State.listGood, hadmit, Bool.true_and, hgood, Bool.true_and]
      refine ⟨_, hstirs, ?_⟩
      simp only [State.claimsWork, hgood', Bool.not_true, Bool.false_eq_true, if_false]
      rw [show (Requester.thread m t).who = threadWho m t from rfl, hstirs.badRange, hstirs.load]
      cases s.badRange (a + 128) 8 with
      | true => rfl
      | false =>
        by_cases hclaim : s.load (a + 128) 8 < s.load a 8 ∧ (s.mast m).goal.isNone = true
        · rw [if_neg Bool.false_ne_true, if_pos hclaim, if_pos (by simpa using hclaim)]
          rfl
        · rw [if_neg Bool.false_ne_true, if_neg hclaim, if_neg (by simpa using hclaim)]
          rfl

/-- What the return of a FETCHW leaves at the list: a claim that was lost is given back, where no other claim followed it. -/
def State.unclaim (s : State) (a v : Nat) : State := if s.load (a + 128) 8 = v + 1 then s.store (a + 128) 8 v else s

theorem State.unclaim_frame (s : State) (a v : Nat) : changesOnly [.mem, .poisoned] s (s.unclaim a v) := by
  unfold State.unclaim
  split
  · exact s.store_frame _ _ _
  · exact changesOnly.refl _ s

/-- The result of a FETCHW: what it took, unless a word of the list was found poisoned (R199). -/
theorem exec_memoryResultReturn_fetched {d : Nat} {v : Word64} {a : Nat} {lost : Bool}
    (hw : ((s.mast m).thread t).wait = .fetched d v a) (hawaits : s.awaits (threadWho m t) = false)
    (hlost : (((s.mast m).thread t).item.isSome && (s.badRange a 8 || s.badRange (a + 128) 8)) = lost) :
    let th := (s.mast m).thread t
    exec (.memoryResultReturn m t) s = .next ((if lost then s.unclaim a v.toNat else s).setMast m ((s.mast m).setThread t
      { th.setReg d (if lost then BitVec.ofNat 64 (2 ^ 63) else v) with
        run := .ready, wait := .none, item := if lost then none else th.item })) := by
  change execMemoryResultReturn m t s = _
  rw [execMemoryResultReturn]
  dsimp only
  rw [hw]
  dsimp only
  rw [hlost]
  cases lost with
  | false => rw [hawaits]; rfl
  | true =>
    have hunclaim : (s.unclaim a v.toNat).awaits (threadWho m t) = false := by
      unfold State.unclaim; split <;> exact hawaits
    unfold State.unclaim at hunclaim ⊢
    simp only [hawaits, hunclaim, guardEvent, Bool.not_false, if_true]
    rfl

end

/-- Settles O15. -/
theorem fetchWork : Obligations.FetchWork := by
  refine ⟨fun s m t h => ?_, fun s m t d v a hw hawaits => ?_⟩
  · obtain ⟨u, hu, hexec⟩ := exec_fetchw h
    refine ⟨_, hexec, ?_⟩
    generalize wordAddr (s.operands m t).sa = a
    change asksMemory writePieces s _ m t (if s.claimsWork m a = true then _ else _) ∧
      ∀ b, _ = if s.claimsWork m a = true ∧ _ then _ else _
    have hwide : s.stirs [.mem, .poisoned] true u := hu.mono (List.nil_subset _) id
    have hclaimed : s.stirs [.mem, .poisoned] true (u.store (a + 128) 8 (s.load (a + 128) 8 + 1)) :=
      hwide.trans (by simp)
    cases s.claimsWork m a with
    | true =>
      refine ⟨asksMemory_retire hclaimed _, fun b => ?_⟩
      change (u.store (a + 128) 8 (s.load (a + 128) 8 + 1)).byte b = _
      simp [State.store_byte, hu.byte]
    | false => exact ⟨asksMemory_retire hwide _, fun b => hu.byte b⟩
  · refine ⟨_, exec_memoryResultReturn_fetched hw hawaits rfl, ?_⟩
    have hframe (lost : Bool) (y : Mast) : changesOnly [.masts, .mem, .poisoned] s
        ((if lost then s.unclaim a v.toNat else s).setMast m y) := by
      refine changesOnly.trans ?_ ((State.setMast_frame _ m y).mono (by decide))
      split
      · exact (s.unclaim_frame a v.toNat).mono (by decide)
      · exact changesOnly.refl _ s
    dsimp only
    rw [State.mast_setMast_same]
    refine ⟨Mast.thread_setThread_same .., onlyThread_setThread _ t _, fun n hn => ?_, fun hlost => ?_, hframe _ _⟩
    · rw [State.mast_setMast, if_neg hn]
      split
      · rw [State.mast, State.unclaim_frame s a v.toNat .masts (by decide)]; rfl
      · rfl
    · rw [hlost]
      exact State.setMast_frame s m _

/-! ### WATCH and the ends of its waits (R98 to R100) -/

/-- A thread that goes on with `v` in register `d`. -/
def Thread.woken (th : Thread) (d : Nat) (v : Word64) : Thread := { th.setReg d v with run := .ready, wait := .none }

theorem Thread.woken_eq (th : Thread) (d : Nat) (v : Word64) :
    ({ th with run := .ready, wait := .none } : Thread).setReg d v = th.woken d v := by
  unfold Thread.woken Thread.setReg; split <;> rfl

@[simp] theorem Thread.woken_calm (th : Thread) (d : Nat) (v : Word64) : th.calm.woken d v = th.woken d v := by
  obtain ⟨regs, pc, run, wait, item⟩ := th
  cases wait <;> (unfold Thread.woken Thread.setReg; split <;> rfl)

/-- Whether partition `part` can read the word at `a`. -/
def State.readable (s : State) (part : Option Nat) (a : Nat) : Bool := s.admits part a 8 [rightRd] && !s.badRange a 8

/-- What becomes of a thread that takes up a WATCH (R98): `watching` where the word agrees. -/
def State.watched (s : State) (m a : Nat) (expect : Word64) (d : Nat) (th watching : Thread) : Thread :=
  if s.readable (s.partOfMast m) a = false then th.woken d 0#64
  else if (BitVec.ofNat 64 (s.load a 8) == expect) = false then th.woken d 1#64
  else watching

section
variable {s : State} {m t : Nat} (hm : m < 3072)
include hm

/-- A thread's read of the word that it watches. -/
theorem State.readReq_watched (s : State) (t a : Nat) : ∃ ans u, s.readReq (.thread m t) (s.partOfMast m) a 8 = (ans, u) ∧
    s.stirs [] true u ∧ s.stirs [] true (u.keepShared (mastDie m) (a / 128)) ∧
    ans.err = !s.readable (s.partOfMast m) a ∧ (s.readable (s.partOfMast m) a = true → ans.val = s.load a 8) := by
  have hr := Requester.thread_die_lt hm t
  have hread : s.stirs [] true (s.readReq (.thread m t) (s.partOfMast m) a 8).2 := by simp [hr]
  exact ⟨_, _, (Prod.mk.eta (p := s.readReq (.thread m t) (s.partOfMast m) a 8)).symm, hread,
    hread.trans (by simp [(mastDie_lt hm).trans (show 16 < 128 by decide)]),
    State.readReq_err hr .., State.readReq_val hr _ _ _⟩

theorem State.watchWord_eq (a : Nat) (expect : Word64) (ticks d : Nat) (th : Thread) :
    ∃ u hit, s.stirs [] true u ∧ s.watchWord m t a expect ticks d th = u.setMast m ((u.mast m).setThread t
      (s.watched m a expect d th { th with
        run := .watching, wait := .watch a expect (if ticks = 0 then none else some (s.tick + ticks)) d hit })) := by
  obtain ⟨ans, u, hanswer, hread, hkeep, herr, hval⟩ := s.readReq_watched hm t a
  unfold State.watchWord State.watched
  rw [hanswer]
  dsimp only
  rw [herr, Thread.woken_eq, Thread.woken_eq]
  cases hgood : s.readable (s.partOfMast m) a with
  | false => exact ⟨u, false, hread, rfl⟩
  | true =>
    rw [hval hgood]
    by_cases hsame : BitVec.ofNat 64 (s.load a 8) = expect
    · have htick : u.tick = s.tick := hread.frame .tick (by decide)
      exact ⟨u.keepShared (mastDie m) (a / 128), u.awaits (threadWho m t), hkeep, by simp [hsame, htick]⟩
    · exact ⟨u, false, hread, by simp [hsame]⟩

end

section
variable {fs : List Piece} {strict : Bool} {s u v : State} {m t : Nat} {th : Thread}

/-- A thread that made a request and is then put back as `th`. -/
theorem asksMemory_setThread (h : s.stirs fs strict u) (th : Thread) :
    asksMemory (fs ++ readPieces) s (u.setMast m ((u.mast m).setThread t th)) m t th := by
  have hasks := asksMemory_setMast h (onlyThread_setThread (u.mast m) t th)
  rwa [Mast.thread_setThread_same] at hasks

/-- Noting who issued last is no more than a request does. -/
theorem asksMemory_issued (h : asksMemory (fs ++ readPieces) s u m t th) :
    asksMemory (fs ++ readPieces) s (u.setMast m ((u.mast m).issued t)) m t th := by
  obtain ⟨hth, honly, hothers, hframe⟩ := h
  refine ⟨by rw [State.mast_setMast_same, Mast.issued_thread, hth], ?_, fun n hn => ?_,
    hframe.trans ((State.setMast_frame u m _).mono ?_)⟩
  · rw [State.mast_setMast_same]
    exact honly.issued
  · rw [State.setMast_others u m _ n hn, hothers n hn]
  · exact List.subset_append_of_subset_right _ (by decide)

/-- Nor is a count. -/
theorem asksMemory_bump (h : asksMemory (fs ++ readPieces) s u m t th) (i j n : Nat) :
    asksMemory (fs ++ readPieces) s (u.bump i j n) m t th := by
  obtain ⟨hth, honly, hothers, hframe⟩ := h
  refine ⟨hth, honly, hothers, hframe.trans ((State.bump_frame u i j n).mono ?_)⟩
  exact List.subset_append_of_subset_right _ (by decide)

/-- A WATCH that ends after its word was read again: the read may have left a note in the waiting thread, no more. -/
theorem State.stirs.endWatch (h : s.stirs fs strict u) (d : Nat) (v : Word64) :
    u.endWatch m t d v = u.setMast m ((u.mast m).setThread t (((s.mast m).thread t).woken d v)) := by
  have hcalm : ((u.mast m).thread t).calm = ((s.mast m).thread t).calm := by
    rw [← Mast.calm_thread, ← Mast.calm_thread, h.calm m]
  have hwoken : ((u.mast m).thread t).woken d v = ((s.mast m).thread t).woken d v := by
    rw [← Thread.woken_calm, hcalm, Thread.woken_calm]
  rw [← hwoken]; rfl

end

section
variable {s : State} {m t : Nat}

theorem exec_watch (h : s.issues m t 0x32 = true) (hw : (s.mast m).watchers < 16) : exec (.watch m t) s =
    let o := s.operands m t
    let s' := s.watchWord m t (wordAddr o.sa) o.sb (o.imm.toNat % 2 ^ 32) o.d ((s.mast m).thread t).advance
    .next (s'.setMast m ((s'.mast m).issued t)) := by
  change execWatch m t s = _
  rw [execWatch, issue_eq h]
  dsimp only
  rw [if_pos hw]

theorem exec_watch_full (h : s.issues m t 0x32 = true) (hw : 16 ≤ (s.mast m).watchers) : exec (.watch m t) s =
    let o := s.operands m t
    .next (retire m t s (s.mast m) { ((s.mast m).thread t).advance with
      run := .stalled, wait := .entry (wordAddr o.sa) o.sb (o.imm.toNat % 2 ^ 32) o.d }) := by
  change execWatch m t s = _
  rw [execWatch, issue_eq h]
  dsimp only
  rw [if_neg (by omega)]

theorem exec_watchEntryFree {a : Nat} {expect : Word64} {ticks d : Nat}
    (hwait : ((s.mast m).thread t).wait = .entry a expect ticks d) (hw : (s.mast m).watchers < 16) :
    exec (.watchEntryFree m t) s = .next (s.watchWord m t a expect ticks d ((s.mast m).thread t)) := by
  change execWatchEntryFree m t s = _
  rw [execWatchEntryFree, hwait]
  exact if_pos hw

/-- WATCH_CHANGE reads the word again and ends the wait, or keeps the line. -/
theorem exec_watchChange {a : Nat} {expect : Word64} {dl : Option Nat} {d : Nat} (hm : m < 3072)
    (hwait : ((s.mast m).thread t).wait = .watch a expect dl d true) :
    let th := (s.mast m).thread t
    let differs := s.readable (s.partOfMast m) a = true ∧ (BitVec.ofNat 64 (s.load a 8) == expect) = false
    ∃ u hit, s.stirs [] true u ∧
      let ended := u.setMast m ((u.mast m).setThread t
        (s.watched m a expect d th { th with wait := .watch a expect dl d hit }))
      exec (.watchChange m t) s = .next (if differs then ended.bump (0x3800 + mastDie m) 3 1 else ended) := by
  change ∃ u hit, s.stirs [] true u ∧ execWatchChange m t s = _
  rw [execWatchChange]
  dsimp only
  rw [hwait]
  dsimp only
  obtain ⟨ans, u, hanswer, hread, hkeep, herr, hval⟩ := s.readReq_watched hm t a
  unfold State.watched
  rw [hanswer]
  dsimp only
  rw [herr, hread.endWatch, hread.endWatch]
  cases hgood : s.readable (s.partOfMast m) a with
  | false => exact ⟨u, false, hread, by simp⟩
  | true =>
    rw [hval hgood]
    by_cases hsame : BitVec.ofNat 64 (s.load a 8) = expect
    · exact ⟨u.keepShared (mastDie m) (a / 128), u.awaits (threadWho m t), hkeep, by simp [hsame]⟩
    · exact ⟨u, false, hread, by simp [hsame]⟩

/-- So it asks memory, and counts the wait where the word was found changed (R99). -/
theorem exec_watchChange_asks {a : Nat} {expect : Word64} {dl : Option Nat} {d : Nat} (hm : m < 3072)
    (hwait : ((s.mast m).thread t).wait = .watch a expect dl d true) :
    let th := (s.mast m).thread t
    ∃ u hit, exec (.watchChange m t) s = .next u ∧
      asksMemory readPieces s u m t (s.watched m a expect d th { th with wait := .watch a expect dl d hit }) ∧
      (s.readable (s.partOfMast m) a = true → (BitVec.ofNat 64 (s.load a 8) == expect) = false →
        counts s u (0x3800 + m / 192) 3 1) := by
  obtain ⟨u, hit, hu, hexec⟩ := exec_watchChange hm hwait
  refine ⟨_, hit, hexec, ?_, fun hgood hdiffers => ?_⟩
  · have hasks := asksMemory_setThread (m := m) (t := t) hu
    split
    · exact asksMemory_bump (hasks _) _ _ _
    · exact hasks _
  · rw [if_pos ⟨hgood, hdiffers⟩]
    exact hu.counts (by omega) rfl

theorem exec_watchTimeout {a : Nat} {expect : Word64} {dl d : Nat} {hit : Bool}
    (hwait : ((s.mast m).thread t).wait = .watch a expect (some dl) d hit) (hdl : dl ≤ s.tick) :
    exec (.watchTimeout m t) s = .next (
      if s.badRange a 8 = false ∧ (BitVec.ofNat 64 (s.load a 8) == expect) = false then
        (s.endWatch m t d 1#64).bump (0x3800 + mastDie m) 3 1
      else s.endWatch m t d 0#64) := by
  change execWatchTimeout m t s = _
  rw [execWatchTimeout, hwait]
  dsimp only
  rw [if_neg (by omega)]
  by_cases hchanged : s.badRange a 8 = false ∧ (BitVec.ofNat 64 (s.load a 8) == expect) = false
  · rw [if_pos hchanged, if_pos (by simpa using hchanged)]
  · rw [if_neg hchanged, if_neg (by simpa using hchanged)]

end

/-- Settles O14. -/
theorem watches : Obligations.Watches := by
  intro s m t hm
  dsimp only
  refine ⟨fun h hw => ?_, fun h hw => ?_, fun a expect ticks d hwait hw => ?_, fun a expect dl d hwait hgood hsame => ?_,
    fun a expect dl d hwait hgood => ?_, fun a expect dl d hwait hgood hsame => ?_, fun a expect dl d hit hwait hdl => ?_⟩
  · refine ⟨_, exec_watch h hw, ?_⟩
    obtain ⟨u, hit, hu, hword⟩ := State.watchWord_eq (s := s) (t := t) hm (wordAddr (s.operands m t).sa) (s.operands m t).sb
      ((s.operands m t).imm.toNat % 2 ^ 32) (s.operands m t).d ((s.mast m).thread t).advance
    rw [hword]
    exact ⟨hit, asksMemory_issued (asksMemory_setThread hu _)⟩
  · exact ⟨_, exec_watch_full h hw, retire_movesTo s m t _⟩
  · obtain ⟨u, hit, hu, hword⟩ := State.watchWord_eq (s := s) (t := t) hm a expect ticks d ((s.mast m).thread t)
    refine ⟨_, exec_watchEntryFree hwait hw, hit, ?_⟩
    rw [hword]
    exact asksMemory_setThread hu _
  · obtain ⟨u, hit, hexec, hasks, hcounts⟩ := exec_watchChange_asks hm hwait
    change s.readable (s.partOfMast m) a = true at hgood
    exact ⟨u, hexec, by simpa [State.watched, hgood, hsame, Thread.woken] using hasks, hcounts hgood hsame⟩
  · obtain ⟨u, hit, hexec, hasks, -⟩ := exec_watchChange_asks hm hwait
    change s.readable (s.partOfMast m) a = false at hgood
    exact ⟨u, hexec, by simpa [State.watched, hgood, Thread.woken] using hasks⟩
  · obtain ⟨u, hit, hexec, hasks, -⟩ := exec_watchChange_asks hm hwait
    change s.readable (s.partOfMast m) a = true at hgood
    exact ⟨u, hit, hexec, by simpa [State.watched, hgood, hsame] using hasks⟩
  · refine ⟨_, exec_watchTimeout hwait hdl, ?_⟩
    have hends (v : Word64) : (s.endWatch m t d v).mast m = (s.mast m).setThread t (((s.mast m).thread t).woken d v) :=
      State.mast_setMast_same ..
    have hframe (v : Word64) : changesOnly [.masts] s (s.endWatch m t d v) := State.setMast_frame s m _
    split
    · rw [State.bump_mast, hends, Mast.thread_setThread_same]
      exact ⟨rfl, onlyThread_setThread _ t _, State.setMast_others s m _,
        (registersBut.of_dict rfl).trans (State.bump_registers _ 1 (by decide)),
        ((hframe _).mono (by decide)).trans ((State.bump_frame _ _ 3 1).mono (by decide))⟩
    · rw [hends, Mast.thread_setThread_same]
      exact ⟨rfl, onlyThread_setThread _ t _, State.setMast_others s m _, registersBut.of_dict rfl, (hframe _).mono (by decide)⟩

end Sys2Proof.Machine

/-! SUPPORT. Launch and wake of a mast (O24). `s.fills m t` says that from `s` to `t` requests were made and that mast `m`
changed in its scratchpad, its launch and a host error only; it serves COPY_IN too. -/

namespace Sys2Proof.Machine

/-! ### Launch of a mast (R105, R106, R119) -/

/-- A mast that differs from `x` by its scratchpad, its launch and a host error only. -/
def Mast.refilled (x y : Mast) : Prop := ∃ pad launch wild, y = { x with pad := pad, launch := launch, wild := wild }

theorem Mast.refilled_refl (x : Mast) : x.refilled x := ⟨_, _, _, rfl⟩

theorem Mast.refilled.trans {x y z : Mast} (h : x.refilled y) (h' : y.refilled z) : x.refilled z := by
  obtain ⟨_, _, _, rfl⟩ := h
  obtain ⟨_, _, _, rfl⟩ := h'
  exact ⟨_, _, _, rfl⟩

/-- From `s` to `t` requests were made, and data put into the scratchpad of mast `m`, or its launch noted, or a host error. -/
structure State.fills (m : Nat) (s t : State) : Prop where
  frame : changesOnly readPieces s t
  mast : (s.mast m).calm.refilled (t.mast m).calm
  others : calmBut m s t
  objects : ∀ i j, 0x3300 ≤ i → t.obj i j = s.obj i j

section
variable {m : Nat} {s t u : State}

theorem State.fills.trans (h : s.fills m t) (h' : t.fills m u) : s.fills m u :=
  ⟨h.frame.trans h'.frame, h.mast.trans h'.mast, fun n hn => (h'.others n hn).trans (h.others n hn),
    fun i j hi => (h'.objects i j hi).trans (h.objects i j hi)⟩

theorem State.stirs.fills (h : s.stirs [] true t) (m : Nat) : s.fills m t := by
  refine ⟨h.frame, ?_, fun n _ => h.calm n, h.objects rfl⟩
  rw [← h.calm m]
  exact Mast.refilled_refl _

theorem State.fills_setMast (s : State) (m : Nat) (pad : FMap Byte) (launch : Option Launch) (wild : Option (Nat × Nat)) :
    s.fills m (s.setMast m { s.mast m with pad := pad, launch := launch, wild := wild }) := by
  refine ⟨(State.setMast_frame s m _).mono (by decide), by rw [State.mast_setMast_same]; exact ⟨_, _, _, rfl⟩,
    fun n hn => ?_, fun _ _ _ => rfl⟩
  rw [State.setMast_others s m _ n hn]

theorem State.fills_hostError (s : State) (m rule item : Nat) : s.fills m (s.hostError m rule item) :=
  s.fills_setMast m _ _ _

/-- A launch counts, reads its entry and its code, and notes what comes of it. -/
theorem State.launchMast_fills (s : State) (hm : m < 3072) :
    (s.bump (0x3800 + mastDie m) 6 1).fills m (s.launchMast m) := by
  have hr : (Requester.stream m 0 0).die < 16 := mastDie_lt hm
  unfold State.launchMast
  extract_lets part base s' fail r
  have hfail (u : State) (cause : Nat) (hu : s'.fills m u) : s'.fills m (fail u cause) :=
    hu.trans (State.stirs.fills (by simp [fail]) m)
  have hread (u : State) (a n : Nat) : u.fills m (u.readMany r part a n).2 := State.stirs.fills (by simp [hr, r]) m
  split
  · exact hfail s' 1 (State.stirs_refl s' |>.fills m)
  · dsimp only
    split
    · exact hfail _ _ (hread _ _ _)
    · split
      · exact (hread _ _ _).trans (State.fills_hostError _ _ _ _)
      · rw [Mast.padWrite_eq (by omega)]
        exact (hread _ _ _).trans ((hread _ _ _).trans (State.fills_setMast _ _ _ _ _))

end

/-- A mast at the end of a launch (R106). -/
def Mast.launched (x : Mast) : Mast := { x with launch := none, counters := [], seq := 0 }

/-- Thread 0 as a launch starts it (R106). -/
def Launch.start (l : Launch) : Thread :=
  { ({} : Thread).setReg 1 (BitVec.ofNat 64 l.arg) with pc := BitVec.ofNat 20 l.pc0, run := .ready }

theorem Launch.start_reg (l : Launch) (r : Nat) : l.start.reg r = if r = 1 then BitVec.ofNat 64 l.arg else 0#64 := by
  have h : l.start.reg r = (({} : Thread).setReg 1 (BitVec.ofNat 64 l.arg)).reg r := rfl
  rw [h, Thread.reg_setReg]
  split
  · next hr => rw [if_pos hr.1]
  · next hr => rw [if_neg (by simpa using hr)]; unfold Thread.reg; split <;> rfl

section
variable {s : State} {m : Nat}

theorem exec_launchCopyDone {l : Launch} (hl : (s.mast m).launch = some l) (hw : (s.mast m).wild = none)
    (hawaits : s.awaits (streamWho m 0) = false) :
    let y := (s.mast m).launched
    ∃ u, exec (.launchCopyDone m) s = .next u ∧
      u.mast m = (if s.launchCause l = 0 ∧ l.valid = true then y.setThread 0 l.start else y) ∧ mastsBut m s u ∧
      changesOnly [.masts, .rings] s u := by
  have hset (y : Mast) : changesOnly [.masts, .rings] s (s.setMast m y) := (State.setMast_frame s m y).mono (by decide)
  change ∃ u, execLaunchCopyDone m s = _ ∧ _
  rw [execLaunchCopyDone]
  dsimp only
  rw [hl]
  dsimp only
  rw [guardEvent, if_pos (by simp [hw, hawaits])]
  by_cases hcause : s.launchCause l = 0
  · rw [if_neg (not_not.mpr hcause)]
    cases hvalid : l.valid with
    | true =>
      exact ⟨_, rfl, by rw [if_pos ⟨hcause, rfl⟩, State.mast_setMast_same]; rfl, State.setMast_others s m _, hset _⟩
    | false =>
      exact ⟨_, rfl, by rw [if_neg (by simp), State.mast_setMast_same]; rfl, State.setMast_others s m _, hset _⟩
  · rw [if_pos hcause]
    have hpost (y : Mast) (e : Event) (n : Nat) : ((s.setMast m y).post e).mast n = (s.setMast m y).mast n := by
      rw [State.mast, State.post_frame _ e .masts (by decide)]; rfl
    refine ⟨_, rfl, ?_, fun n hn => ?_, (hset _).trans ((State.post_frame _ _).mono (by decide))⟩
    · rw [hpost, State.mast_setMast_same, if_neg fun h => hcause h.1]; rfl
    · rw [hpost, State.setMast_others s m _ n hn]

theorem exec_wickWakeDone (hp : (s.mast m).power = .wakingWick) :
    exec (.wickWakeDone m) s = .next ((s.setMast m { s.mast m with power := .lit, cache := [] }).launchMast m) := by
  change execWickWakeDone m s = _
  rw [execWickWakeDone]
  dsimp only
  rw [hp]; rfl

/-- A mast that was scrubbed (R119). -/
def Mast.scrubbed (x : Mast) (p : MastPower) : Mast := { x.darkened with goal := x.goal, held := x.held, power := p }

theorem exec_darkWakeDone (hp : (s.mast m).power = .wakingDark) :
    exec (.darkWakeDone m) s = .next ((s.setMast m ((s.mast m).scrubbed .lit)).launchMast m) := by
  change execDarkWakeDone m s = _
  rw [execDarkWakeDone]
  dsimp only
  rw [hp]; rfl

theorem exec_darkWakeDone_wick (hp : (s.mast m).power = .wakingToWick) :
    exec (.darkWakeDone m) s = .next ((s.setMast m ((s.mast m).scrubbed .wick)).settleTree (mastDie m)) := by
  change execDarkWakeDone m s = _
  rw [execDarkWakeDone]
  dsimp only
  rw [hp]; rfl

/-- A mast that wakes as `y` and launches. -/
theorem State.launchMast_wakes (s : State) (hm : m < 3072) (y : Mast) :
    let u := (s.setMast m y).launchMast m
    y.calm.refilled (u.mast m).calm ∧ counts s u (0x3800 + m / 192) 6 1 ∧ calmBut m s u ∧ changesOnly readPieces s u := by
  intro u
  obtain ⟨hframe, hmast, hothers, hobjects⟩ := (s.setMast m y).launchMast_fills hm
  refine ⟨?_, ?_, fun n hn => ?_, ?_⟩
  · rwa [State.bump_mast, State.mast_setMast_same] at hmast
  · have hcounts : counts s ((s.setMast m y).bump (0x3800 + mastDie m) 6 1) (0x3800 + m / 192) 6 1 := State.bump_counts ..
    exact (congrArg Octets.bits (hobjects (0x3800 + m / 192) 6 (by omega))).trans hcounts
  · rw [hothers n hn, State.bump_mast, State.setMast_others s m y n hn]
  · exact ((State.setMast_frame s m y).mono (by decide)).trans (((State.bump_frame _ _ 6 1).mono (by decide)).trans hframe)

end

/-- Settles O24. -/
theorem mastLaunches : Obligations.MastLaunches := by
  refine ⟨fun s m l hl hw hawaits => ?_, fun s m hm => ⟨fun hp => ?_, fun hp => ?_, fun hp => ?_⟩⟩
  · obtain ⟨u, hexec, hmast, hothers, hframe⟩ := exec_launchCopyDone hl hw hawaits
    refine ⟨u, hexec, ?_⟩
    by_cases hstarts : s.launchCause l = 0 ∧ l.valid = true
    · rw [if_pos hstarts] at hmast
      rw [hmast]
      refine ⟨rfl, fun _ => rfl, rfl, fun _ _ => ?_, fun hnot => ?_, rfl, hothers, hframe⟩
      · rw [Mast.thread_setThread_same]
        refine ⟨rfl, rfl, by simp [Launch.start_reg], fun r hr => by simp [Launch.start_reg, hr], fun j hj => ?_⟩
        rw [Mast.thread_setThread, if_neg hj]; rfl
      · exact absurd hnot (by simp [hstarts])
    · rw [if_neg hstarts] at hmast
      rw [hmast]
      exact ⟨rfl, fun _ => rfl, rfl, fun hcause hvalid => absurd ⟨hcause, hvalid⟩ hstarts, fun _ => rfl, rfl, hothers, hframe⟩
  · obtain ⟨⟨_, _, _, hmast⟩, hcounts, hothers, hframe⟩ := s.launchMast_wakes hm { s.mast m with power := .lit, cache := [] }
    exact ⟨_, exec_wickWakeDone hp, congrArg Mast.power hmast, congrArg Mast.cache hmast, (congrArg Mast.acc hmast :), hcounts,
      hothers, hframe⟩
  · obtain ⟨⟨_, _, _, hmast⟩, hcounts, hothers, hframe⟩ := s.launchMast_wakes hm ((s.mast m).scrubbed .lit)
    exact ⟨_, exec_darkWakeDone hp, congrArg Mast.power hmast, List.map_eq_nil_iff.mp (congrArg Mast.threads hmast),
      congrArg Mast.counters hmast, congrArg Mast.acc hmast, hcounts, hothers, hframe⟩
  · have hmast : ((s.setMast m ((s.mast m).scrubbed .wick)).settleTree (mastDie m)).mast m = (s.mast m).scrubbed .wick := by
      rw [State.settleTree_mast, State.mast_setMast_same]
    refine ⟨_, exec_darkWakeDone_wick hp, congrArg Mast.power hmast, congrArg Mast.threads hmast, congrArg Mast.pad hmast,
      congrArg Mast.acc hmast, congrArg Mast.launch hmast, fun n hn => ?_, ?_⟩
    · rw [State.settleTree_mast, State.setMast_others s m _ n hn]
    · exact ((State.setMast_frame s m _).mono (by decide)).trans ((State.settleTree_frame _ _).mono (by decide))

end Sys2Proof.Machine

/-! SUPPORT. The halyard: what an engine runs, the ends of its descriptors and their starts (O20, O21). The requests of a
transfer are those of a thread, with panes, adds and converted space beside them. -/

namespace Sys2Proof.Machine

/-! ### What an engine runs -/

theorem FMap.map_put {α β : Type} (f : α → β) (m : FMap α) (k : Nat) (v : α) :
    (FMap.put m k v).map (fun q => (q.1, f q.2)) = FMap.put (m.map fun q => (q.1, f q.2)) k (f v) := by
  induction m with
  | nil => rfl
  | cons q r ih =>
    simp only [FMap.put, List.map_cons]
    (repeat' split) <;> simp [ih]

theorem FMap.map_erase {α β : Type} (f : α → β) (m : FMap α) (k : Nat) :
    (FMap.erase m k).map (fun q => (q.1, f q.2)) = FMap.erase (m.map fun q => (q.1, f q.2)) k := by
  induction m with
  | nil => rfl
  | cons q r ih =>
    simp only [FMap.erase, List.map_cons]
    split <;> simp [ih]

/-- What an engine runs is what a map of its descriptors holds. -/
theorem Mast.run_eq (x : Mast) (e : Nat) : x.run e = FMap.get (x.running.map fun q => (q.1, some q.2)) e none := by
  unfold Mast.run
  induction x.running with
  | nil => rfl
  | cons q r ih =>
    simp only [List.find?_cons, List.map_cons, FMap.get]
    by_cases hq : q.1 = e <;> simp [hq, ih]

theorem Mast.run_setRun (x : Mast) (e k : Nat) (r : Running) : (x.setRun e r).run k = if k = e then some r else x.run k := by
  rw [Mast.run_eq, Mast.run_eq, Mast.setRun, FMap.map_put]
  split
  · next h => rw [h, FMap.get_put_same]
  · next h => rw [FMap.get_put_other _ _ _ h]

theorem Mast.run_endRun (x : Mast) (e k : Nat) : (x.endRun e).run k = if k = e then none else x.run k := by
  rw [Mast.run_eq, Mast.run_eq, Mast.endRun, FMap.map_erase]
  split
  · next h => rw [h, FMap.get_erase_same]
  · next h => rw [FMap.get_erase_other _ _ h]

/-- The bytes of a mesh transfer in a scratchpad. -/
theorem Mast.byte_foldl (bytes : List Host.Cell) (x : Mast) (b : Nat) :
    (bytes.foldl (fun y c => { y with pad := FMap.set y.pad c.1 0#8 c.2 }) x).byte b =
      bytes.foldl (fun v c => if c.1 = b then c.2 else v) (x.byte b) := by
  induction bytes generalizing x with
  | nil => rfl
  | cons c bytes ih =>
    rw [List.foldl_cons, List.foldl_cons, ih, Mast.byte, FMap.get_set]
    simp only [eq_comm (a := b)]
    rfl

theorem Mast.counter_foldl (bytes : List Host.Cell) (x : Mast) (n : Nat) :
    (bytes.foldl (fun y c => { y with pad := FMap.set y.pad c.1 0#8 c.2 }) x).counter n = x.counter n := by
  induction bytes generalizing x with
  | nil => rfl
  | cons c bytes ih => exact ih _

/-! ### The ends of a halyard descriptor (R96, R115, R121) -/

section
variable {s : State} {m k : Nat} {r : Running}

theorem State.began_mast (s : State) (m k : Nat) (r : Running) (n : Nat) :
    (s.began m k r).mast n = if n = m then (s.mast m).setRun k r else s.mast n := State.mast_setMast ..

/-- What an engine runs is no byte and no counter. -/
theorem State.began_byte (s : State) (m k : Nat) (r : Running) (n b : Nat) :
    ((s.began m k r).mast n).byte b = (s.mast n).byte b := by
  rw [State.began_mast]; split
  · next h => rw [h]; rfl
  · rfl

theorem State.began_counter (s : State) (m k : Nat) (r : Running) (n c : Nat) :
    ((s.began m k r).mast n).counter c = (s.mast n).counter c := by
  rw [State.began_mast]; split
  · next h => rw [h]; rfl
  · rfl

/-- A mast that changes to `y`, with a count and an event. -/
theorem State.setMast_bump_post (s : State) (m : Nat) (y : Mast) (i : Nat) {j : Nat} (hj : j < 256) (e : Event) :
    let u := ((s.setMast m y).bump i j 1).post e
    u.mast m = y ∧ counts s u i j 1 ∧ registersBut [(i, j)] s u ∧ mastsBut m s u ∧ changesOnly [.masts, .dict, .rings] s u := by
  intro u
  have hpost := State.post_frame ((s.setMast m y).bump i j 1) e
  have hmast (n : Nat) : u.mast n = (s.setMast m y).mast n := by
    rw [State.mast, hpost .masts (by decide)]; rfl
  have hdict : u.dict = ((s.setMast m y).bump i j 1).dict := hpost .dict (by decide)
  refine ⟨(hmast m).trans (State.mast_setMast_same ..), (State.bump_counts _ i j 1).of_dict rfl hdict, ?_, fun n hn => ?_, ?_⟩
  · exact (registersBut.of_dict rfl).trans ((State.bump_registers _ 1 hj).trans (registersBut.of_dict hdict))
  · rw [hmast, State.setMast_others s m y n hn]
  · exact ((State.setMast_frame s m y).mono (by decide)).trans
      (((State.bump_frame _ i j 1).mono (by decide)).trans (hpost.mono (by decide)))

/-- A descriptor that ends completes. -/
theorem State.completeRun_completes (s : State) (m k : Nat) (r : Running) :
    completes (s.mast m) ((s.completeRun m k r).mast m) k r ∧ mastsBut m s (s.completeRun m k r) ∧
      changesOnly [.masts] s (s.completeRun m k r) := by
  refine ⟨?_, State.setMast_others s m _, State.setMast_frame s m _⟩
  rw [State.completeRun, State.mast_setMast_same]
  have hrun (n : Nat) : (((s.mast m).endRun k).signal (descCc r.post.desc) 1#32 r.err).run n = ((s.mast m).endRun k).run n := by
    rw [Mast.signal, Mast.wakeCounter_eq]; rfl
  have hqueues : (((s.mast m).endRun k).signal (descCc r.post.desc) 1#32 r.err).queues = (s.mast m).queues := by
    rw [Mast.signal, Mast.wakeCounter_eq]; rfl
  refine ⟨?_, fun n hn => ?_, hqueues, Mast.signal_signalled ..⟩
  · rw [hrun, Mast.run_endRun, if_pos rfl]
  · rw [hrun, Mast.run_endRun, if_neg hn]

theorem exec_halyardComplete (hk : k < 2) (hr : (s.mast m).run k = some r) (hw : (s.mast m).wild = none)
    (hop : descOp r.post.desc ≠ 2) (hawaits : s.awaits (streamWho m k) = false) :
    exec (.halyardComplete m k) s = .next (s.completeRun m k { r with err := r.err || s.copyInBad m r }) := by
  change execHalyardComplete m k s = _
  rw [execHalyardComplete, hr]
  dsimp only
  rw [guardEvent, if_pos (by simp [hk, hw, hop, hawaits])]

theorem exec_meshAck (hk : k < 2) (hr : (s.mast m).run k = some r) (hw : (s.mast m).wild = none) (ha : r.arrived = true) :
    exec (.meshAck m k) s = .next (s.completeRun m k r) := by
  change execMeshAck m k s = _
  rw [execMeshAck, hr]
  dsimp only
  rw [guardEvent, if_pos (by simp [hk, hw, ha])]

/-- The mast at which a mesh transfer arrived. -/
def Mast.delivered (y : Mast) (r : Running) : Mast :=
  let t := transferOf r.post.desc
  let y := r.bytes.foldl (fun y c => { y with pad := FMap.set y.pad c.1 0#8 c.2 }) y
  if t.rce then y.signal t.rcc 1#32 false else y

theorem Mast.delivered_byte (y : Mast) (r : Running) (b : Nat) :
    (y.delivered r).byte b = r.bytes.foldl (fun v c => if c.1 = b then c.2 else v) (y.byte b) := by
  rw [← Mast.byte_foldl, Mast.delivered]
  split
  · rw [Mast.signal, Mast.wakeCounter_eq]; rfl
  · rfl

theorem Mast.delivered_counter (y : Mast) (r : Running) (n : Nat) : (y.delivered r).counter n =
    if (transferOf r.post.desc).rce = true ∧ n = (transferOf r.post.desc).rcc then
      { val := (y.counter n).val + 1#32, err := (y.counter n).err } else y.counter n := by
  rw [← Mast.counter_foldl r.bytes y n, Mast.delivered]
  split
  · next hrce =>
    obtain ⟨hsame, hother, -⟩ := Mast.signal_signalled
      (r.bytes.foldl (fun y c => { y with pad := FMap.set y.pad c.1 0#8 c.2 }) y) (transferOf r.post.desc).rcc 1#32 false
    by_cases hn : n = (transferOf r.post.desc).rcc
    · rw [if_pos ⟨hrce, hn⟩, hn, hsame, Bool.or_false]
    · rw [if_neg fun h => hn h.2, hother n hn]
  · next hrce => rw [if_neg fun h => hrce h.1]

theorem exec_meshArrival (hk : k < 2) (hr : (s.mast m).run k = some r) (hw : (s.mast m).wild = none)
    (hop : descOp r.post.desc = 2) (ha : r.arrived = false) :
    let dst := 192 * (m / 192) + (transferOf r.post.desc).dmast
    (s.partOfMast m ≠ none → s.partOfMast dst = s.partOfMast m → (s.mast dst).power = .lit → (s.mast dst).goal = none →
      exec (.meshArrival m k) s =
        .next ((s.setMast dst ((s.mast dst).delivered r)).began m k { r with arrived := true, bytes := [] })) ∧
    (s.partOfMast m = none ∨ s.partOfMast dst ≠ s.partOfMast m → exec (.meshArrival m k) s = .next
      (((s.began m k { r with arrived := true, err := true, bytes := [] }).bump (0x3800 + mastDie m) 5 1).post
        { code := 0x3820, plane := 2, part := partOr (s.partOfMast m), kind := 3, num := dst, utag := descUtag r.post.desc,
          detail := [(2, m), (2, dst)] })) := by
  intro dst
  have hgo : ¬ (2 ≤ k ∨ descOp r.post.desc ≠ 2 ∨ r.arrived = true ∨ (s.mast m).wild.isSome = true) := by simp [hk, hop, ha, hw]
  constructor
  · intro hown hpart hpower hgoal
    change execMeshArrival m k s = _
    rw [execMeshArrival, hr]
    dsimp only
    rw [if_neg hgo]
    have hreaches : ¬ (s.partOfMast m = none ∨ s.partOfMast dst ≠ s.partOfMast m) := by simp [hown, hpart]
    have hawake : ¬ ((s.mast dst).power ≠ .lit ∨ (s.mast dst).goal.isSome = true) := by simp [hpower, hgoal]
    exact (if_neg hreaches).trans (if_neg hawake)
  · intro hnone
    change execMeshArrival m k s = _
    rw [execMeshArrival, hr]
    dsimp only
    rw [if_neg hgo]
    exact if_pos hnone

end

/-- Settles O21. -/
theorem halyardEnds : Obligations.HalyardEnds := by
  intro s m k r hk hr hw
  dsimp only
  refine ⟨fun hop hawaits => ⟨_, exec_halyardComplete hk hr hw hop hawaits, s.completeRun_completes m k _⟩,
    fun ha => ⟨_, exec_meshAck hk hr hw ha, s.completeRun_completes m k r⟩, fun hop ha hown hpart hpower hgoal => ?_,
    fun hop ha hnone => ?_⟩
  · refine ⟨_, (exec_meshArrival hk hr hw hop ha).1 hown hpart hpower hgoal, fun b => ?_, fun n => ?_, ?_,
      fun n hm hn => ?_, ?_⟩
    · rw [State.began_byte, State.mast_setMast_same, Mast.delivered_byte]
    · rw [State.began_counter, State.mast_setMast_same, Mast.delivered_counter]
    · rw [State.began_mast, if_pos rfl, Mast.run_setRun, if_pos rfl]
    · rw [State.began_mast, if_neg hm, State.mast_setMast, if_neg hn]
    · exact (State.setMast_frame s _ _).trans (State.setMast_frame _ m _)
  · exact ⟨_, (exec_meshArrival hk hr hw hop ha).2 hnone, State.setMast_bump_post s m _ _ (by decide) _⟩

/-! ### Rows of a transfer: panes, adds, converted space (R113, R230 to R247) -/

section
variable {fs : List Piece} {strict : Bool} {ρ : State}
variable (s : State) (i j n : Nat)

/-- Any object of the dictionary, where the objects from 3300h on are left open. -/
@[simp ↓] theorem State.bump_loose : State.Stirred fs false ρ s (s.bump i j n) := by
  refine State.stirred_of ⟨(s.bump_frame i j n).mono fun f hf => ?_, calmAll.of_masts rfl, nofun⟩
  obtain rfl := List.mem_singleton.mp hf
  exact List.mem_append_right _ (by decide)

@[simp ↓] theorem State.grad_stirred (hg : Piece.grad ∈ fs) (v : FMap Byte) :
    State.Stirred fs strict ρ s { s with grad := v } :=
  State.stirred_of_frame (gs := [.grad]) (fun f hf => by cases f <;> first | rfl | simp at hf)
    (List.subset_append_of_subset_left _ (by simp [hg]))

@[simp ↓] theorem State.mem_stirred (hm : Piece.mem ∈ fs) (v : FMap Byte) : State.Stirred fs strict ρ s { s with mem := v } :=
  State.stirred_of_frame (gs := [.mem]) (fun f hf => by cases f <;> first | rfl | simp at hf)
    (List.subset_append_of_subset_left _ (by simp [hm]))

@[simp ↓] theorem State.lantern_stirred (hl : Piece.lantern ∈ fs) (v : FMap Nat) :
    State.Stirred fs strict ρ s { s with lantern := v } :=
  State.stirred_of_frame (gs := [.lantern]) (fun f hf => by cases f <;> first | rfl | simp at hf)
    (List.subset_append_of_subset_left _ (by simp [hl]))

@[simp ↓] theorem State.panes_stirred (hp : Piece.panes ∈ fs) (v : FMap Pane) :
    State.Stirred fs strict ρ s { s with panes := v } :=
  State.stirred_of_frame (gs := [.panes]) (fun f hf => by cases f <;> first | rfl | simp at hf)
    (List.subset_append_of_subset_left _ (by simp [hp]))

@[simp ↓] theorem State.openPane_stirred (hp : Piece.panes ∈ fs) (p d k : Nat) :
    State.Stirred fs strict ρ s (s.openPane p d k) :=
  State.stirred_of (by simp [State.openPane, State.setPane, hp])

end

section
variable {fs : List Piece} {strict : Bool} {ρ : State}
variable (s : State) (a n v p d k die tag fmt utag word e : Nat) (part : Option Nat) (compat : Bool)
variable {r : Requester} (hr : r.die < 16)

@[simp ↓] theorem State.lanternAdd_stirred (hl : Piece.lantern ∈ fs) : State.Stirred fs strict ρ s (s.lanternAdd k n) :=
  State.stirred_of (by simp [State.lanternAdd, hl])

@[simp ↓] theorem State.formatSlot_stirred (hm : Piece.mem ∈ fs) (hp : Piece.poisoned ∈ fs) :
    State.Stirred fs strict ρ s (s.formatSlot die a fmt).2 := by
  refine State.stirred_of ?_
  unfold State.formatSlot; dsimp only; split <;> simp [hm, hp]

@[simp ↓] theorem State.countValue_stirred (hm : Piece.mem ∈ fs) (hp : Piece.poisoned ∈ fs) (hl : Piece.lantern ∈ fs)
    (w : Written) :
    State.Stirred fs false ρ s (s.countValue die part tag fmt w) := by
  refine State.stirred_of ?_
  unfold State.countValue; dsimp only; (repeat' split) <;> simp [hm, hp, hl]

@[simp ↓] theorem State.countAll_stirred (hm : Piece.mem ∈ fs) (hp : Piece.poisoned ∈ fs) (hl : Piece.lantern ∈ fs)
    (ws : List Written) : State.Stirred fs false ρ s (s.countAll die part tag fmt ws) :=
  State.stirred_of (by simp [State.countAll, hm, hp, hl])

@[simp ↓] theorem State.tagFigure_stirred (hl : Piece.lantern ∈ fs) :
    State.Stirred fs strict ρ s (s.tagFigure die part tag word n) := by
  refine State.stirred_of ?_
  unfold State.tagFigure; (repeat' split) <;> simp [hl]

@[simp ↓] theorem State.tagError_stirred (hl : Piece.lantern ∈ fs) :
    State.Stirred fs strict ρ s (s.tagError die part tag e) := by
  refine State.stirred_of ?_
  unfold State.tagError; dsimp only; split <;> simp [hl]

@[simp ↓] theorem State.lateWrite_stirred : State.Stirred fs false ρ s (s.lateWrite r p d k utag) :=
  State.stirred_of (by simp [State.lateWrite])

@[simp ↓] theorem State.countAdd_stirred (big nan : Bool) : State.Stirred fs false ρ s (s.countAdd d big nan) :=
  State.stirred_of (by simp [State.countAdd])

include hr

@[simp ↓] theorem State.gradRead_stirred : State.Stirred fs strict ρ s (s.gradRead r part a n).2 := by
  refine State.stirred_of ?_
  unfold State.gradRead; split <;> simp [hr]

@[simp ↓] theorem State.gradWrite_stirred (hg : Piece.grad ∈ fs) (hp : Piece.panes ∈ fs) :
    State.Stirred fs false ρ s (s.gradWrite r part utag a n v).2 := by
  refine State.stirred_of ?_
  unfold State.gradWrite; (repeat' split) <;> simp [hr, hg, hp]

@[simp ↓] theorem State.gradAdd_stirred (hg : Piece.grad ∈ fs) (hp : Piece.panes ∈ fs) (xs : List Fp) :
    State.Stirred fs false ρ s (s.gradAdd r part utag a xs).2 := by
  refine State.stirred_of ?_
  unfold State.gradAdd
  split
  · simp [hr]
  · split <;> simp [hg, hp]

@[simp ↓] theorem State.memAdd_stirred (hm : Piece.mem ∈ fs) (xs : List Fp) :
    State.Stirred fs false ρ s (s.memAdd r part a xs).2 :=
  State.stirred_of (by simp [State.memAdd, hr, hm])

@[simp ↓] theorem State.setZeroRun_stirred (hm : Piece.mem ∈ fs) (hp : Piece.poisoned ∈ fs) (g : Region) (b : Bool) :
    State.Stirred fs strict ρ s (s.setZeroRun r part g n b).2 :=
  State.stirred_of (by simp [State.setZeroRun, hr, hm, hp])

@[simp ↓] theorem State.writeStored_stirred (hm : Piece.mem ∈ fs) (hp : Piece.poisoned ∈ fs) (hl : Piece.lantern ∈ fs)
    (g : Region) :
    State.Stirred fs false ρ s (s.writeStored r part die tag g a n v).2 :=
  State.stirred_of (by simp [State.writeStored, hr, hm, hp, hl, -Nat.reducePow])

@[simp ↓] theorem State.blockedView_stirred : State.Stirred fs strict ρ s (s.blockedView r part d a n) :=
  State.stirred_of (by simp [State.blockedView, hr])

@[simp ↓] theorem State.convertOut_stirred (hm : Piece.mem ∈ fs) (hp : Piece.poisoned ∈ fs) (hl : Piece.lantern ∈ fs) :
    State.Stirred fs false ρ s (s.convertOut r part compat tag d a n v).2 := by
  refine State.stirred_of ?_
  unfold State.convertOut
  split
  · simp [hr]
  · dsimp only
    split
    · simp [hr]
    · split
      · simp only [State.countAll_stirred, State.writeMany_stirred, State.tagFigure_stirred, State.bump_loose,
          State.writeStored_stirred, hr, hm, hp, hl]
        repeat refine .inl ?_
        refine State.stirs.trans ?_ (State.foldl_stirs (fun t b => ?_) _ _)
        · simp [hr, hl]
        · split <;> simp [hl]
      · simp [hr, hm, hp, hl]

@[simp ↓] theorem State.readStored_stirred (g : Region) : State.Stirred fs strict ρ s (s.readStored r part g a n).2 :=
  State.stirred_of (by simp [State.readStored, hr])

@[simp ↓] theorem State.convertIn_stirred : State.Stirred fs strict ρ s (s.convertIn r part compat d a n).2 := by
  refine State.stirred_of ?_
  unfold State.convertIn; dsimp only; (repeat' split) <;> simp [hr]

@[simp ↓] theorem State.readRow_stirred : State.Stirred fs strict ρ s (s.readRow r part compat a n).2 := by
  refine State.stirred_of ?_
  unfold State.readRow; split <;> simp [hr]

@[simp ↓] theorem State.writeRow_stirred (hm : Piece.mem ∈ fs) (hp : Piece.poisoned ∈ fs) (hl : Piece.lantern ∈ fs)
    (hg : Piece.grad ∈ fs) (hs : Piece.panes ∈ fs) : State.Stirred fs false ρ s (s.writeRow r part compat d a n v).2 := by
  refine State.stirred_of ?_
  unfold State.writeRow; split <;> simp [hr, hm, hp, hl, hg, hs]

@[simp ↓] theorem State.addRow_stirred (hm : Piece.mem ∈ fs) (hg : Piece.grad ∈ fs) (hs : Piece.panes ∈ fs) (xs : List Fp) :
    State.Stirred fs false ρ s (s.addRow r part d a xs).2 := by
  refine State.stirred_of ?_
  unfold State.addRow
  refine State.foldl_snd_stirs (fun x y => ?_) _ (false, s)
  dsimp only
  split <;> simp [hr, hm, hg, hs]

end

/-! ### A halyard descriptor that starts (R113 to R116) -/

/-- A byte of a range that was read. -/
theorem FMap.byte_readLE (p : FMap Byte) (a : Nat) {n i : Nat} (hi : i < n) :
    BitVec.ofNat 8 (FMap.readLE p a n >>> (8 * i)) = FMap.get p (a + i) 0#8 := by
  induction n generalizing a i with
  | zero => omega
  | succ n ih =>
    rw [FMap.readLE]
    have hbyte := (FMap.get p a 0#8).isLt
    cases i with
    | zero =>
      apply BitVec.eq_of_toNat_eq
      simp only [BitVec.toNat_ofNat, Nat.mul_zero, Nat.shiftRight_zero, Nat.add_zero]
      omega
    | succ i =>
      have hrest : ((FMap.get p a 0#8).toNat + 256 * FMap.readLE p (a + 1) n) / 2 ^ 8 = FMap.readLE p (a + 1) n := by omega
      rw [show 8 * (i + 1) = 8 + 8 * i by omega, Nat.shiftRight_add, Nat.shiftRight_eq_div_pow _ 8, hrest, ih _ (by omega)]
      congr 1; omega

/-- A descriptor that left its queue and stands in execution has begun, whatever was done to the scratchpad. -/
theorem Mast.begins_setRun {x y : Mast} {k : Nat} {r : Running} (h : (x.setQueue k (x.queue k).tail).refilled y) :
    begins x (y.setRun k r) k r.post := by
  obtain ⟨_, _, _, rfl⟩ := h
  refine ⟨⟨r, by rw [Mast.run_setRun, if_pos rfl], rfl⟩, ?_, fun e he => ?_, rfl, rfl, rfl⟩
  · exact (Mast.queue_setQueue x k k _).trans (if_pos rfl)
  · exact (Mast.queue_setQueue x k e _).trans (if_neg he)

section
variable {s u v : State} {m k : Nat} {r : Running}

/-- A descriptor that began after its requests were made, the notes of watched lines apart. -/
theorem State.fills.begins (h : (s.setMast m (s.started m k)).fills m u) :
    begins (s.mast m).calm ((u.began m k r).mast m).calm k r.post ∧ calmBut m s (u.began m k r) ∧
      changesOnly readPieces s (u.began m k r) := by
  obtain ⟨hframe, hmast, hothers, -⟩ := h
  rw [State.mast_setMast_same] at hmast
  refine ⟨?_, fun n hn => ?_, ?_⟩
  · rw [State.began_mast, if_pos rfl]
    exact Mast.begins_setRun (x := (s.mast m).calm) (y := (u.mast m).calm) hmast
  · rw [State.began_mast, if_neg hn, hothers n hn, State.setMast_others s m _ n hn]
  · exact ((State.setMast_frame s m _).mono (by decide)).trans (hframe.trans ((State.setMast_frame u m _).mono (by decide)))

theorem State.stirs.begins {fs : List Piece} {strict : Bool} (h : (s.setMast m (s.started m k)).stirs fs strict u) :
    begins (s.mast m).calm ((u.began m k r).mast m).calm k r.post ∧ ((u.began m k r).mast m).pad = (s.mast m).pad ∧
      calmBut m s (u.began m k r) ∧ changesOnly (fs ++ readPieces) s (u.began m k r) := by
  obtain ⟨hframe, hcalm, -⟩ := h
  have hmast : (u.mast m).calm = (s.started m k).calm := by rw [hcalm m, State.mast_setMast_same]
  have hmasts (y : State) (z : Mast) : changesOnly (fs ++ readPieces) y (y.setMast m z) :=
    (State.setMast_frame y m z).mono (List.subset_append_of_subset_right _ (by decide))
  refine ⟨?_, ?_, fun n hn => ?_, (hmasts s _).trans (hframe.trans (hmasts u _))⟩
  · rw [State.began_mast, if_pos rfl]
    exact Mast.begins_setRun (x := (s.mast m).calm) (y := (u.mast m).calm) (hmast ▸ Mast.refilled_refl _)
  · rw [State.began_mast, if_pos rfl]
    exact (congrArg Mast.pad hmast :)
  · rw [State.began_mast, if_neg hn, hcalm n, State.setMast_others s m _ n hn]

/-- A descriptor that began without a request. -/
theorem State.setMast_began {y : Mast} (h : (s.started m k).refilled y) :
    let u := (s.setMast m y).began m k r
    begins (s.mast m) (u.mast m) k r.post ∧ (u.mast m).pad = y.pad ∧ mastsBut m s u ∧ changesOnly [.masts] s u := by
  intro u
  have hmast : u.mast m = y.setRun k r := by
    rw [State.began_mast, if_pos rfl, State.mast_setMast_same]
  refine ⟨hmast ▸ Mast.begins_setRun h, by rw [hmast]; rfl, fun n hn => ?_,
    (State.setMast_frame s m y).trans (State.setMast_frame _ m _)⟩
  rw [State.began_mast, if_neg hn, State.setMast_others s m y n hn]

end

/-! ### Writes of the scratchpad -/

theorem Mast.padWrite_pad (x : Mast) (a n v : Nat) : ∃ pad, x.padWrite a n v = { x with pad := pad } := by
  induction n generalizing x a v with
  | zero => exact ⟨_, rfl⟩
  | succ n ih =>
    obtain ⟨pad, hpad⟩ := ih { x with pad := FMap.set x.pad (padAddr a) 0#8 (BitVec.ofNat 8 v) } (a + 1) (v / 256)
    exact ⟨pad, hpad⟩

theorem Mast.padWrites_pad (x : Mast) (ws : List (Int × Nat × Nat)) : ∃ pad, x.padWrites ws = { x with pad := pad } := by
  induction ws generalizing x with
  | nil => exact ⟨_, rfl⟩
  | cons w ws ih =>
    obtain ⟨pad, hpad⟩ := x.padWrite_pad w.1.toNat w.2.1 w.2.2
    obtain ⟨pad', hpad'⟩ := ih { x with pad := pad }
    exact ⟨pad', (congrArg (Mast.padWrites · ws) hpad).trans hpad'⟩

theorem Mast.refilled_padWrites (x : Mast) (ws : List (Int × Nat × Nat)) : x.refilled (x.padWrites ws) := by
  obtain ⟨pad, hpad⟩ := x.padWrites_pad ws
  exact hpad ▸ ⟨_, _, _, rfl⟩

theorem Mast.refilled_foldl {α : Type} (f : Mast → α → Mast) (hf : ∀ (x : Mast) b, x.refilled (f x b)) (l : List α) (x : Mast) :
    x.refilled (l.foldl f x) := by
  induction l generalizing x with
  | nil => exact x.refilled_refl
  | cons b l ih => exact (hf x b).trans (ih _)

theorem State.fills_padWrites (s : State) (m : Nat) (ws : List (Int × Nat × Nat)) :
    s.fills m (s.setMast m ((s.mast m).padWrites ws)) := by
  obtain ⟨pad, hpad⟩ := (s.mast m).padWrites_pad ws
  exact hpad ▸ s.fills_setMast m _ _ _

theorem State.foldl_fills {α β : Type} {m : Nat} {f : α × State → β → α × State}
    (hf : ∀ (a : α × State) b, a.2.fills m (f a b).2)
    (l : List β) (a : α × State) : a.2.fills m (l.foldl f a).2 := by
  induction l generalizing a with
  | nil => exact a.2.stirs_refl.fills m
  | cons b l ih => exact (hf a b).trans (ih (f a b))

/-! ### The five operations (R113 to R116) -/

/-- Whether a row of a COPY_OUT breaks R258: in part of a group of elements, or in a view that cannot be written. -/
def State.outRowBad (s : State) (part : Option Nat) (a n : Nat) : Bool :=
  field a 63 62 = 1 && (s.convertedBad part a n ||
    (match part with
      | some q => let g := s.region q (field a 61 56); g.len != 0 && g.vf == 4
      | none => false))

section
variable {s : State} {m k : Nat} {p : Posted}

/-- A descriptor that may start is one of the package's masts'. -/
theorem State.headOf_lt {op : Nat} (h : s.headOf m k op = some p) : m < 3072 := by
  unfold State.headOf at h
  dsimp only at h
  split at h
  · cases h
  · split at h
    · next hgo => simp only [Bool.and_eq_true, decide_eq_true_eq] at hgo; omega
    · cases h

section
variable (hk : k < 2)
include hk

section
variable (h : s.headOf m k 0x00 = some p) (hbad : (transferOf p.desc).bad p.desc true = false)
include h hbad

theorem exec_copyIn (hpad : (transferOf p.desc).padWritesOk = true)
    (hrows : ((transferOf p.desc).rows.any fun r =>
      field (addr64 r.1) 63 62 = 1 && s.convertedBad (s.partOfMast m) (addr64 r.1) (transferOf p.desc).l0) = false) :
    ∃ u err, (s.setMast m (s.started m k)).fills m u ∧
      exec (.copyIn m k) s = .next (u.began m k { post := p, err := err }) := by
  have hr (n : Nat) : (Requester.stream m k n).die < 16 := mastDie_lt (State.headOf_lt h)
  change ∃ u err, _ ∧ execCopyIn m k s = _
  rw [execCopyIn, if_neg (by omega), startOp_eq h]
  dsimp only
  rw [hbad, hpad, hrows]
  refine ⟨_, _, ?_, rfl⟩
  refine State.foldl_fills (fun a b => ?_) _ (false, _)
  exact (State.stirs.fills (by simp [hr]) m).trans (State.fills_padWrites _ m _)

theorem exec_copyIn_past (hpad : (transferOf p.desc).padWritesOk = false) :
    exec (.copyIn m k) s = .next (s.hostError m 122 1) := by
  change execCopyIn m k s = _
  rw [execCopyIn, if_neg (by omega), startOp_eq h]
  dsimp only
  rw [hbad, hpad]
  rfl

end

theorem exec_mesh (h : s.headOf m k 0x02 = some p) (hbad : (transferOf p.desc).bad p.desc true = false)
    (hdst : (transferOf p.desc).dmast < 192) (hreads : (transferOf p.desc).padReadsOk = true)
    (hwrites : (transferOf p.desc).padWritesOk = true) :
    ∃ bytes, exec (.mesh m k) s = .next ((s.setMast m (s.started m k)).began m k { post := p, bytes := bytes }) := by
  change ∃ bytes, execMesh m k s = _
  rw [execMesh, if_neg (by omega), startOp_eq h]
  dsimp only
  rw [if_neg (by simp [hbad, hdst]), if_neg (by simp [hreads, hwrites])]
  exact ⟨_, rfl⟩

theorem exec_localCopy (h : s.headOf m k 0x03 = some p) (hbad : (transferOf p.desc).bad p.desc true = false)
    (hreads : (transferOf p.desc).padReadsOk = true) (hwrites : (transferOf p.desc).padWritesOk = true) :
    let t := transferOf p.desc
    exec (.localCopy m k) s = .next ((s.setMast m (t.planeRows.foldl
      (fun x (i, j, a) => x.padWrites (t.rowWrites i j (x.padRead a.toNat t.l0))) (s.started m k))).began m k
        { post := p }) := by
  change execLocalCopy m k s = _
  rw [execLocalCopy, if_neg (by omega), startOp_eq h]
  dsimp only
  rw [if_neg (by simp [hbad]), if_neg (by simp [hreads, hwrites])]

theorem exec_copyOut (h : s.headOf m k 0x01 = some p) (hbad : (transferOf p.desc).bad p.desc false = false)
    (hreads : (transferOf p.desc).padReadsOk = true)
    (hrows : ((transferOf p.desc).rows.any fun r =>
      s.outRowBad (s.partOfMast m) (addr64 r.2) (transferOf p.desc).l0) = false) :
    ∃ u err, (s.setMast m (s.started m k)).stirs [.grad, .panes, .lantern, .mem, .poisoned] false u ∧
      exec (.copyOut m k) s = .next (u.began m k { post := p, err := err }) := by
  have hr (n : Nat) : (Requester.stream m k n).die < 16 := mastDie_lt (State.headOf_lt h)
  change ∃ u err, _ ∧ execCopyOut m k s = _
  rw [execCopyOut, if_neg (by omega), startOp_eq h]
  dsimp only
  rw [hbad, hreads, if_neg Bool.false_ne_true, if_neg (by simp)]
  refine ⟨_, _, ?stirs, (if_neg ?rows).trans rfl⟩
  case rows => exact fun hbroken => Bool.false_ne_true (hrows.symm.trans hbroken)
  case stirs => exact State.foldl_snd_stirs (fun a b => by simp [hr]) _ (false, _)

theorem exec_addOut (h : s.headOf m k 0x04 = some p) (hbad : (transferOf p.desc).bad p.desc false = false)
    (hfmt : (transferOf p.desc).fmt = 0 ∨ (transferOf p.desc).fmt = 2 ∨ (transferOf p.desc).fmt = 3)
    (hreads : (transferOf p.desc).padReadsOk = true) :
    ∃ u err, (s.setMast m (s.started m k)).stirs [.grad, .panes, .mem] false u ∧
      exec (.addOut m k) s = .next (u.began m k { post := p, err := err }) := by
  have hr (n : Nat) : (Requester.stream m k n).die < 16 := mastDie_lt (State.headOf_lt h)
  change ∃ u err, _ ∧ execAddOut m k s = _
  rw [execAddOut, if_neg (by omega), startOp_eq h]
  dsimp only
  rw [if_neg (by simp [hbad, hfmt]), if_neg (by simp [hreads])]
  refine ⟨_, _, ?_, rfl⟩
  exact State.foldl_snd_stirs (fun a b => by simp [hr]) _ (false, _)

end

end

/-- The one row of a transfer that has no other. -/
theorem Transfer.planeRows_one {t : Transfer} (h2 : t.n2 = 1) (h1 : t.n1 = 1) : t.planeRows = [(0, 0, (t.saddr : Int))] := by
  simp [Transfer.planeRows, h1, h2]

theorem Transfer.rowWrites_one {t : Transfer} (htr : t.tr = false) (v : Nat) :
    t.rowWrites 0 0 v = [((t.daddr : Int), t.l0, v)] := by
  simp [Transfer.rowWrites, htr]

theorem inPad_natCast (a n : Nat) : inPad (a : Int) n = decide (a + n ≤ 2 ^ 20) := by
  unfold inPad
  rw [decide_eq_true (Int.natCast_nonneg a), Bool.true_and, decide_eq_decide]
  omega

/-- LOCAL of one row moves it (R113). -/
theorem Mast.byte_local {t : Transfer} (h2 : t.n2 = 1) (h1 : t.n1 = 1) (htr : t.tr = false) (hreads : t.padReadsOk = true)
    (hwrites : t.padWritesOk = true) (x : Mast) (b : Nat) :
    (t.planeRows.foldl (fun x (i, j, a) => x.padWrites (t.rowWrites i j (x.padRead a.toNat t.l0))) x).byte b =
      if t.daddr ≤ b ∧ b < t.daddr + t.l0 then x.byte (t.saddr + (b - t.daddr)) else x.byte b := by
  have hsrc : t.saddr + t.l0 ≤ 2 ^ 20 := by
    simpa [Transfer.padReadsOk, Transfer.rows, h1, h2, inPad_natCast] using hreads
  have hdst : t.daddr + t.l0 ≤ 2 ^ 20 := by
    simpa [Transfer.padWritesOk, Transfer.planeRows_one h2 h1, Transfer.rowWrites_one htr, inPad_natCast] using hwrites
  rw [Transfer.planeRows_one h2 h1, List.foldl_cons, List.foldl_nil]
  dsimp only
  rw [Transfer.rowWrites_one htr]
  change (x.padWrite (t.daddr : Int).toNat t.l0 (x.padRead (t.saddr : Int).toNat t.l0)).byte b = _
  rw [Int.toNat_natCast, Int.toNat_natCast, Mast.byte_padWrite hdst, Mast.padRead_eq hsrc]
  split
  · next hb => exact FMap.byte_readLE _ _ (by omega)
  · rfl

/-- Settles O20. -/
theorem halyardStarts : Obligations.HalyardStarts := by
  refine ⟨fun s m k p hk => ⟨fun h hbad hpad hrows => ?_, fun h hbad hpad => ?_, fun h hbad hdst hreads hwrites => ?_,
    fun h hbad hreads hwrites => ?_⟩, fun s m k p hk => ⟨fun h hbad hreads hrows => ?_, fun h hbad hfmt hreads => ?_⟩,
    fun s m k p hk h h2 h1 htr hbad hreads hwrites => ?_⟩
  · obtain ⟨u, err, hfills, hexec⟩ := exec_copyIn hk h hbad hpad hrows
    exact ⟨_, hexec, hfills.begins⟩
  · exact ⟨_, exec_copyIn_past hk h hbad hpad, State.hostError_holdsUp ..⟩
  · obtain ⟨bytes, hexec⟩ := exec_mesh hk h hbad hdst hreads hwrites
    exact ⟨_, hexec, State.setMast_began (Mast.refilled_refl _)⟩
  · obtain ⟨hbegins, -, hothers, hframe⟩ := State.setMast_began (s := s) (m := m) (k := k) (r := { post := p })
      (Mast.refilled_foldl (fun x (row : Nat × Nat × Int) => x.padWrites ((transferOf p.desc).rowWrites row.1 row.2.1
        (x.padRead row.2.2.toNat (transferOf p.desc).l0))) (fun x row => x.refilled_padWrites _)
        (transferOf p.desc).planeRows _)
    exact ⟨_, exec_localCopy hk h hbad hreads hwrites, hbegins, hothers, hframe⟩
  · obtain ⟨u, err, hstirs, hexec⟩ := exec_copyOut hk h hbad hreads hrows
    exact ⟨_, hexec, hstirs.begins⟩
  · obtain ⟨u, err, hstirs, hexec⟩ := exec_addOut hk h hbad hfmt hreads
    exact ⟨_, hexec, hstirs.begins⟩
  · refine ⟨_, exec_localCopy hk h hbad hreads hwrites, fun b => ?_⟩
    rw [State.began_byte, State.mast_setMast_same, Mast.byte_local h2 h1 htr hreads hwrites]
    rfl

end Sys2Proof.Machine

/-! SUPPORT. The mainsail: what its operations leave of a mast, their starts, and the completion that posts the record (O22).
`x.sailed y` says that mast `y` differs from `x` by its accumulator, its row flags and its stationary planes only. -/

namespace Sys2Proof.Machine

/-! ### What the array changes of a mast (R124 to R152) -/

/-- A mast that differs from `x` by its accumulator elements, its row flags and its stationary planes only. -/
def Mast.sailed (x y : Mast) : Prop :=
  ∃ acc rows planes plane, y = { x with acc := acc, rows := rows, planes := planes, plane := plane }

theorem Mast.sailed_refl (x : Mast) : x.sailed x := ⟨_, _, _, _, rfl⟩

theorem Mast.sailed.trans {x y z : Mast} (h : x.sailed y) (h' : y.sailed z) : x.sailed z := by
  obtain ⟨_, _, _, _, rfl⟩ := h
  obtain ⟨_, _, _, _, rfl⟩ := h'
  exact ⟨_, _, _, _, rfl⟩

theorem Mast.sailed.ite {c : Prop} [Decidable c] {x y z : Mast} (h : x.sailed y) (h' : x.sailed z) :
    x.sailed (if c then y else z) := by
  split <;> assumption

theorem Mast.sailed.pad {x y : Mast} (h : x.sailed y) : y.pad = x.pad := by
  obtain ⟨_, _, _, _, rfl⟩ := h
  rfl

/-- A descriptor that left its queue and stands in execution has begun, whatever the array did to the accumulator. -/
theorem Mast.sailed.begins_setRun {x y : Mast} {k : Nat} {r : Running} (h : (x.setQueue k (x.queue k).tail).sailed y) :
    begins x (y.setRun k r) k r.post := by
  obtain ⟨_, _, _, _, rfl⟩ := h
  refine ⟨⟨r, by rw [Mast.run_setRun, if_pos rfl], rfl⟩, ?_, fun e he => ?_, rfl, rfl, rfl⟩
  · exact (Mast.queue_setQueue x k k _).trans (if_pos rfl)
  · exact (Mast.queue_setQueue x k e _).trans (if_neg he)

section
variable {α : Type} (x : Mast)

theorem Mast.sailed_foldl {f : Mast → α → Mast} (hf : ∀ (y : Mast) a, y.sailed (f y a)) (l : List α) :
    x.sailed (l.foldl f x) := by
  induction l generalizing x with
  | nil => exact x.sailed_refl
  | cons a l ih => exact (hf x a).trans (ih _)

theorem Mast.sailed_forRange {f : Nat → Mast → Mast} (hf : ∀ i (y : Mast), y.sailed (f i y)) (n : Nat) :
    x.sailed (forRange n x f) :=
  x.sailed_foldl (fun y i => hf i y) _

theorem Mast.sailed_setRow (row : Nat) (r : AccRow) : x.sailed (x.setRow row r) := ⟨_, _, _, _, rfl⟩

theorem Mast.sailed_intoElem (compat start : Bool) (row col : Nat) (g : Fp) (f : Flags4) :
    x.sailed (x.intoElem compat start row col g f) := ⟨_, _, _, _, rfl⟩

theorem Mast.sailed_intoIntElem (start : Bool) (row col : Nat) (g : Int) : x.sailed (x.intoIntElem start row col g) :=
  ⟨_, _, _, _, rfl⟩

theorem Mast.sailed_loadPlane (words : List Nat) : x.sailed (x.loadPlane words) := ⟨_, _, _, _, rfl⟩

theorem Mast.sailed_clearRow (row : Nat) : x.sailed (x.clearRow row) := ⟨_, _, _, _, rfl⟩

theorem Mast.sailed_streamInto (int compat start : Bool) (row : Nat) (a : List (Fp × Bool)) (bs : List (List (Fp × Bool))) :
    x.sailed (x.streamInto int compat start row a bs) := by
  have hstart : x.sailed (if start then x.startRow row int else x) := .ite (x.sailed_setRow ..) x.sailed_refl
  refine hstart.trans (Mast.sailed_foldl _ (fun y e => ?_) _)
  exact .ite (.ite ((y.sailed_intoIntElem ..).trans (Mast.sailed_intoIntElem ..)) (y.sailed_intoIntElem ..))
    (.ite ((y.sailed_intoElem ..).trans (Mast.sailed_intoElem ..)) (y.sailed_intoElem ..))

variable (q : Sail)

theorem Mast.sailed_matmulGroup (g : Nat) : x.sailed (x.matmulGroup q g) :=
  (x.sailed_loadPlane _).trans (Mast.sailed_forRange _ (fun _ y => y.sailed_streamInto ..) _)

theorem Mast.sailed_matmul : x.sailed (forRange q.gn x fun g y => y.matmulGroup q g) :=
  x.sailed_forRange (fun g y => y.sailed_matmulGroup q g) _

theorem Mast.sailed_adaptGroup (g b : Nat) : x.sailed (x.adaptGroup q g b) :=
  (x.sailed_loadPlane _).trans (Mast.sailed_forRange _ (fun _ y => y.sailed_streamInto ..) _)

theorem Mast.sailed_adaptOutput (b : Nat) : x.sailed (x.adaptOutput q b) :=
  (x.sailed_loadPlane _).trans
    (Mast.sailed_forRange _ (fun _ y => (y.sailed_setRow ..).trans (Mast.sailed_streamInto ..)) _)

theorem Mast.sailed_adaptRun : x.sailed (x.adaptRun q) := by
  have hstreamed : x.sailed (forRange q.gn x fun g y =>
      let z := y.matmulGroup q g
      if q.um = 0 then z else forRange q.rankBlocks z fun b z => z.adaptGroup q g b) :=
    x.sailed_forRange (fun g y => (y.sailed_matmulGroup q g).trans
      (.ite (Mast.sailed_refl _) (Mast.sailed_forRange _ (fun b z => z.sailed_adaptGroup q g b) _))) _
  exact .ite (hstreamed.trans (Mast.sailed_forRange _ (fun b z => z.sailed_adaptOutput q b) _)) hstreamed

end

/-! ### Rows that ACLR clears (R130) -/

section
variable (x : Mast)

theorem Mast.accAt_clearRow (r row : Nat) {col : Nat} (hcol : col < 64) :
    (x.clearRow r).accAt row col = if row = r then 0#32 else x.accAt row col := by
  have hkey : (64 * r ≤ 64 * row + col ∧ 64 * row + col < 64 * r + 64) ↔ row = r := by omega
  simp only [Mast.accAt, Mast.clearRow, FMap.get_clearRange, hkey]

theorem Mast.rowInfo_clearRow (r row : Nat) : (x.clearRow r).rowInfo row = if row = r then {} else x.rowInfo row := by
  simp only [Mast.rowInfo, Mast.clearRow]
  split
  · next h => rw [h, FMap.get_erase_same]
  · next h => rw [FMap.get_erase_other _ _ h]

theorem Mast.accAt_foldl_clearRow (rows : List Nat) (row : Nat) {col : Nat} (hcol : col < 64) :
    (rows.foldl Mast.clearRow x).accAt row col = if row ∈ rows then 0#32 else x.accAt row col := by
  induction rows generalizing x with
  | nil => rfl
  | cons r rows ih =>
    rw [List.foldl_cons, ih, x.accAt_clearRow r row hcol]
    simp only [List.mem_cons]
    by_cases hr : row = r <;> simp [hr]

theorem Mast.rowInfo_foldl_clearRow (rows : List Nat) (row : Nat) :
    (rows.foldl Mast.clearRow x).rowInfo row = if row ∈ rows then {} else x.rowInfo row := by
  induction rows generalizing x with
  | nil => rfl
  | cons r rows ih =>
    rw [List.foldl_cons, ih, x.rowInfo_clearRow r row]
    simp only [List.mem_cons]
    by_cases hr : row = r <;> simp [hr]

end

/-! ### A mainsail descriptor that starts (R143, R144, R157) -/

/-- From `s` to `u` descriptor `p` of mast `m` went into execution on the mainsail, with a record where `sheet`. -/
def State.sails (s u : State) (m : Nat) (p : Posted) (sheet : Bool) : Prop :=
  begins (s.mast m) (u.mast m) 2 p ∧ (∃ r, (u.mast m).run 2 = some r ∧ r.record.isSome = sheet) ∧
    (u.mast m).pad = (s.mast m).pad ∧ mastsBut m s u ∧ registersBut [(0x3840 + m / 192, 1)] s u ∧
    changesOnly [.masts, .dict] s u

/-- The completion record that descriptor `p` will post for the rows of `y`, where `sheet` asks for one. -/
def Mast.recordOf (y : Mast) (p : Posted) (sheet int : Bool) : Option Nat :=
  if sheet then some (y.tileRecord p (sailOf p) int) else none

theorem Mast.recordOf_isSome (y : Mast) (p : Posted) (sheet int : Bool) : (y.recordOf p sheet int).isSome = sheet := by
  cases sheet <;> rfl

/-- The state in which a descriptor that left mast `m` as `y` is in execution, its steps counted. -/
def State.sailing (s : State) (m : Nat) (y : Mast) (steps : Nat) (r : Running) : State :=
  ((s.setMast m y).bump (0x3840 + mastDie m) 1 steps).began m 2 r

section
variable {s : State} {m : Nat} {y : Mast}

theorem State.mast_sailing (steps : Nat) (r : Running) : (s.sailing m y steps r).mast m = y.setRun 2 r := by
  rw [State.sailing, State.began_mast, if_pos rfl, State.bump_mast, State.mast_setMast_same]

theorem State.run_sailing (steps : Nat) (r : Running) : ((s.sailing m y steps r).mast m).run 2 = some r := by
  rw [State.mast_sailing, Mast.run_setRun, if_pos rfl]

/-- Starting changes nothing but its mast and the counter of steps. -/
theorem State.sailing_frame (s : State) (m : Nat) (y : Mast) (steps : Nat) (r : Running) :
    mastsBut m s (s.sailing m y steps r) ∧ registersBut [(0x3840 + m / 192, 1)] s (s.sailing m y steps r) ∧
      changesOnly [.masts, .dict] s (s.sailing m y steps r) := by
  refine ⟨fun n hn => ?_, ?_, ?_⟩
  · rw [State.sailing, State.began_mast, if_neg hn, State.bump_mast, State.setMast_others s m _ n hn]
  · exact (registersBut.of_dict rfl).trans
      ((State.bump_registers (s.setMast m y) steps (by decide)).trans (registersBut.of_dict rfl))
  · exact ((s.setMast_frame m y).mono (by decide)).trans
      (((State.bump_frame _ _ 1 steps).mono (by decide)).trans ((State.setMast_frame _ m _).mono (by decide)))

theorem State.sailing_sails (h : (s.started m 2).sailed y) (steps : Nat) (p : Posted) (sheet int : Bool) :
    s.sails (s.sailing m y steps { post := p, record := y.recordOf p sheet int }) m p sheet := by
  refine ⟨?_, ⟨_, State.run_sailing .., y.recordOf_isSome p sheet int⟩, ?_, s.sailing_frame ..⟩ <;> rw [State.mast_sailing]
  · exact h.begins_setRun
  · exact h.pad

end

section
variable {s : State} {m op : Nat} {p : Posted} {check : Sail → Mast → Option (Nat × Nat)} {rowsOf : Sail → List Nat}
variable {body : Sail → Mast → Mast} {int : Sail → Mast → Bool} {steps : Sail → Nat}
variable (h : s.headOf m 2 op = some p) (hres : sailReserved p.desc = false)
include h hres

/-- A descriptor that finds a row held waits (R143). -/
theorem startSail_held (hheld : (s.started m 2).anyHeld (rowsOf (sailOf p)) = true) :
    startSail m op s check rowsOf body int steps = .next s := by
  rw [startSail, startOp_eq h]
  dsimp only
  rw [hres, if_neg Bool.false_ne_true, if_pos (.inl hheld)]

section
variable {sheet : Bool} (hsheet : ((sailOf p).sheet || decide (op = 3)) = sheet)
  (hfree : (s.started m 2).anyHeld (rowsOf (sailOf p)) = false) (hroom : sheet = true → (s.started m 2).sheet.length < 16)
include hsheet hfree hroom

/-- A descriptor that need not wait goes into execution, or meets its host error. -/
theorem startSail_checks : startSail m op s check rowsOf body int steps =
    match check (sailOf p) (s.started m 2) with
    | some f => .next (s.hostError m f.1 f.2)
    | none =>
      let y := body (sailOf p) (s.started m 2)
      .next (s.sailing m y (steps (sailOf p)) { post := p, record := y.recordOf p sheet (int (sailOf p) y) }) := by
  subst hsheet
  have hgo : ¬ ((s.started m 2).anyHeld (rowsOf (sailOf p)) = true ∨
      ((sailOf p).sheet || decide (op = 3)) = true ∧ 16 ≤ (s.started m 2).sheet.length) := by
    rintro (hheld | ⟨hposts, hfull⟩)
    · exact Bool.false_ne_true (hfree.symm.trans hheld)
    · exact absurd (hroom hposts) (Nat.not_lt.mpr hfull)
  rw [startSail, startOp_eq h]
  dsimp only
  rw [hres, if_neg Bool.false_ne_true, if_neg hgo]
  rfl

theorem startSail_hostError {f : Nat × Nat} (hcheck : check (sailOf p) (s.started m 2) = some f) :
    startSail m op s check rowsOf body int steps = .next (s.hostError m f.1 f.2) := by
  rw [startSail_checks h hres hsheet hfree hroom, hcheck]

theorem startSail_starts (hcheck : check (sailOf p) (s.started m 2) = none) :
    let y := body (sailOf p) (s.started m 2)
    startSail m op s check rowsOf body int steps =
      .next (s.sailing m y (steps (sailOf p)) { post := p, record := y.recordOf p sheet (int (sailOf p) y) }) := by
  rw [startSail_checks h hres hsheet hfree hroom, hcheck]

end

end

/-! ### The end of a mainsail descriptor (R136, R144, R145) -/

/-- The mast whose sheet queue has taken a record, where there is one. -/
def Mast.recorded (x : Mast) (record : Option Nat) : Mast :=
  match record with
  | none => x
  | some w => { x with sheet := x.sheet ++ [w + x.seq % 256], seq := (x.seq + 1) % 256 }

/-- A record changes nothing that a completion speaks of. -/
theorem Mast.completes_recorded {x y : Mast} {record : Option Nat} {e : Nat} {r : Running}
    (h : completes (x.recorded record) y e r) : completes x y e r := by
  cases record <;> exact h

theorem Mast.acc_recorded (x : Mast) (record : Option Nat) : (x.recorded record).acc = x.acc := by cases record <;> rfl

/-- The flags INV, OVF and NANIN of a posted record, counted at `c`. -/
def State.countFlags (s : State) (c w : Nat) : State :=
  let s := if bitOf w 59 then s.bump c 7 1 else s
  let s := if bitOf w 58 then s.bump c 8 1 else s
  if bitOf w 56 then s.bump c 9 1 else s

section
variable (s : State) (c w : Nat)

theorem State.countFlags_registers : registersBut [(c, 7), (c, 8), (c, 9)] s (s.countFlags c w) :=
  ((State.ite_bump_obj s (bitOf w 59 = true) 1 (by decide)).1.mono (by simp)).trans
    (((State.ite_bump_obj _ (bitOf w 58 = true) 1 (by decide)).1.mono (by simp)).trans
      ((State.ite_bump_obj _ (bitOf w 56 = true) 1 (by decide)).1.mono (by simp)))

theorem State.countFlags_frame : changesOnly [.dict] s (s.countFlags c w) := by
  have hite (t : State) (b : Bool) (j : Nat) : changesOnly [.dict] t (if b = true then t.bump c j 1 else t) :=
    .ite (t.bump_frame c j 1) (.refl _ t)
  exact (hite s _ 7).trans ((hite _ _ 8).trans (hite _ _ 9))

theorem State.countFlags_mast (n : Nat) : (s.countFlags c w).mast n = s.mast n := by
  rw [State.mast, s.countFlags_frame c w .masts (by decide)]; rfl

end

section
variable (s : State) (m k : Nat) (r : Running)

/-- What a completion leaves of its mast. -/
theorem State.completeRun_mast : ∃ threads counters running, (s.completeRun m k r).mast m =
    { s.mast m with threads := threads, counters := counters, running := running } := by
  rw [State.completeRun, State.mast_setMast_same, Mast.signal, Mast.wakeCounter_eq]
  exact ⟨_, _, _, rfl⟩

variable {s m r}

/-- MAINSAIL_COMPLETE counts the descriptor, posts its record and completes it. -/
theorem exec_mainsailComplete (hr : (s.mast m).run 2 = some r) (hw : (s.mast m).wild = none) :
    let c := 0x3840 + m / 192
    ∃ t, exec (.mainsailComplete m) s = .next (t.completeRun m 2 r) ∧ t.mast m = (s.mast m).recorded r.record ∧
      counts s t c 6 1 ∧ registersBut [(c, 6), (c, 7), (c, 8), (c, 9)] s t ∧ mastsBut m s t ∧
      changesOnly [.masts, .dict] s t := by
  intro c
  have hregs := State.bump_registers s (i := c) (j := 6) 1 (by decide)
  have hframe := (s.bump_frame c 6 1).mono (show [Piece.dict] ⊆ [.masts, .dict] by decide)
  change ∃ t, execMainsailComplete m s = _ ∧ _
  rw [execMainsailComplete, hr]
  dsimp only
  rw [guardEvent, if_pos (Option.isNone_iff_eq_none.mpr hw)]
  cases hrec : r.record with
  | none => exact ⟨_, rfl, s.bump_mast .., s.bump_counts c 6 1, hregs.mono (by simp), fun n _ => rfl, hframe⟩
  | some w =>
    let t := (s.bump c 6 1).setMast m ((s.mast m).recorded (some w))
    have hflags := t.countFlags_registers c w
    refine ⟨t.countFlags c w, rfl, ?_, ?_, ?_, fun n hn => ?_, ?_⟩
    · rw [State.countFlags_mast, State.mast_setMast_same]
    · rw [counts, hflags.val (by decide) (by simp)]
      exact s.bump_counts c 6 1
    · exact (hregs.mono (by simp)).trans ((registersBut.of_dict rfl).trans (hflags.mono (by simp)))
    · rw [State.countFlags_mast, State.setMast_others _ m _ n hn, State.bump_mast]
    · exact hframe.trans (((State.setMast_frame _ m _).mono (by decide)).trans ((t.countFlags_frame c w).mono (by decide)))

end

/-- Settles O22: a start runs its body on a mast that it changes in the accumulator and the planes only, and a completion
runs after the record is posted. -/
theorem mainsailDescriptors : Obligations.MainsailDescriptors := by
  refine ⟨fun s m p hres => ⟨fun h hfree hroom hcheck => ?matmul, fun f h hfree hroom hcheck => ?hostError,
    fun h hheld => ?held, fun h hfree hroom => ?aclr, fun h hfree hroom hcheck => ?adapt,
    fun h hfree hroom => ?send⟩, fun s m r hr hw => ?complete⟩
  case matmul =>
    change ∃ u, execMatmul m s = .next u ∧ _
    rw [execMatmul]
    exact ⟨_, startSail_starts h hres (Bool.or_false _) hfree hroom hcheck,
      State.sailing_sails (Mast.sailed_matmul ..) ..⟩
  case hostError =>
    change ∃ u, execMatmul m s = .next u ∧ _
    rw [execMatmul]
    exact ⟨_, startSail_hostError h hres (Bool.or_false _) hfree hroom hcheck, s.hostError_holdsUp m f.1 f.2⟩
  case held =>
    change execMatmul m s = .next s
    rw [execMatmul]
    exact startSail_held h hres hheld
  case aclr =>
    change ∃ u, execAclr m s = .next u ∧ _
    rw [execAclr]
    refine ⟨_, startSail_starts h hres (Bool.or_false _) hfree hroom rfl,
      State.sailing_sails (Mast.sailed_foldl _ Mast.sailed_clearRow _) .., fun row col hrow hcol => ?_,
      fun row col hrow hcol => ?_⟩ <;> rw [State.mast_sailing]
    · exact ⟨(Mast.accAt_foldl_clearRow _ _ row hcol).trans (if_pos hrow),
        (Mast.rowInfo_foldl_clearRow _ _ row).trans (if_pos hrow)⟩
    · exact ⟨(Mast.accAt_foldl_clearRow _ _ row hcol).trans (if_neg hrow),
        (Mast.rowInfo_foldl_clearRow _ _ row).trans (if_neg hrow)⟩
  case adapt =>
    change ∃ u, execAdapt m s = .next u ∧ _
    rw [execAdapt]
    exact ⟨_, startSail_starts h hres (Bool.or_false _) hfree hroom hcheck,
      State.sailing_sails (Mast.sailed_adaptRun ..) ..⟩
  case send =>
    change ∃ u, execSend m s = .next u ∧ _
    rw [execSend]
    refine ⟨_, startSail_starts h hres (Bool.or_true _) hfree hroom rfl, State.sailing_sails (Mast.sailed_refl _) .., ?_⟩
    rw [State.mast_sailing]
    exact ⟨rfl, rfl, rfl⟩
  case complete =>
    obtain ⟨t, hexec, ht, hcounts, hregs, hothers, hframe⟩ := exec_mainsailComplete hr hw
    obtain ⟨hcompletes, hmasts, hrun⟩ := t.completeRun_completes m 2 r
    obtain ⟨threads, counters, running, hmast⟩ := t.completeRun_mast m 2 r
    rw [ht] at hcompletes hmast
    refine ⟨_, hexec, Mast.completes_recorded hcompletes, fun w hrec => ?_, fun hrec => ?_, ?_, hcounts.of_dict rfl rfl,
      hregs.trans (registersBut.of_dict rfl), fun n hn => (hmasts n hn).trans (hothers n hn),
      hframe.trans (hrun.mono (by decide))⟩
    · rw [hmast, hrec]
      exact ⟨rfl, rfl⟩
    · rw [hmast, hrec]
      exact ⟨rfl, rfl⟩
    · rw [hmast]
      exact Mast.acc_recorded ..

end Sys2Proof.Machine

/-! SUPPORT. The jib: what its results leave of a mast, the start of a descriptor and its completion (O23). `x.jibbed y` says
that mast `y` differs from `x` by its scratchpad and its operand cache only. -/

namespace Sys2Proof.Machine

/-! ### What results and block scales change of a mast (R163, R170) -/

/-- A mast that differs from `x` by its scratchpad and its operand cache only. -/
def Mast.jibbed (x y : Mast) : Prop := ∃ pad cache, y = { x with pad := pad, cache := cache }

theorem Mast.jibbed_refl (x : Mast) : x.jibbed x := ⟨_, _, rfl⟩

theorem Mast.jibbed.trans {x y z : Mast} (h : x.jibbed y) (h' : y.jibbed z) : x.jibbed z := by
  obtain ⟨_, _, rfl⟩ := h
  obtain ⟨_, _, rfl⟩ := h'
  exact ⟨_, _, rfl⟩

theorem Mast.jibbed.calm {x y : Mast} (h : x.jibbed y) : x.calm.jibbed y.calm := by
  obtain ⟨_, _, rfl⟩ := h
  exact ⟨_, _, rfl⟩

theorem Mast.jibbed.acc {x y : Mast} (h : x.jibbed y) : y.acc = x.acc := by
  obtain ⟨_, _, rfl⟩ := h
  rfl

theorem Mast.jibbed_jibPut (x : Mast) (kind a n v : Nat) : x.jibbed (x.jibPut kind a n v) := by
  unfold Mast.jibPut
  dsimp only
  split
  · obtain ⟨pad, hpad⟩ := x.padWrite_pad (a / 8) ((a % 8 + n + 7) / 8) _
    exact ⟨pad, _, hpad⟩
  · exact ⟨_, _, rfl⟩

theorem Mast.jibbed_foldl {α : Type} {f : Mast → α → Mast} (hf : ∀ (y : Mast) a, y.jibbed (f y a)) (l : List α) (x : Mast) :
    x.jibbed (l.foldl f x) := by
  induction l generalizing x with
  | nil => exact x.jibbed_refl
  | cons a l ih => exact (hf x a).trans (ih _)

/-- The mast with the results of a descriptor and their block scales in place. -/
def Mast.jibWritten (x : Mast) (q : JibDesc) (entries : List Nat) : Mast :=
  let (ws, scales) := q.writes (x.jibResults q entries)
  let y := ws.foldl (fun y w => y.jibPut q.d.kind w.1.toNat (formatBits q.d.fmt) w.2.bits) x
  scales.foldl (fun y sc => y.jibPut q.d.kind (8 * sc.1.toNat) 8 sc.2) y

theorem Mast.jibbed_jibWritten (x : Mast) (q : JibDesc) (entries : List Nat) : x.jibbed (x.jibWritten q entries) :=
  (Mast.jibbed_foldl (fun y _ => y.jibbed_jibPut ..) _ _).trans (Mast.jibbed_foldl (fun y _ => y.jibbed_jibPut ..) _ _)

/-- A descriptor that left its queue and stands in execution has begun, whatever it wrote to scratchpad and cache. -/
theorem Mast.jibbed.begins_setRun {x y : Mast} {k : Nat} {r : Running} (h : (x.setQueue k (x.queue k).tail).jibbed y) :
    begins x (y.setRun k r) k r.post := by
  obtain ⟨_, _, rfl⟩ := h
  exact (Mast.begins_setRun (Mast.refilled_refl (x.setQueue k (x.queue k).tail)) :)

/-- A descriptor that wrote its results, then counted them, and stands in execution, the notes of watched lines apart. -/
theorem State.jibbed_begins {s u : State} {m k : Nat} {y : Mast} {r : Running} {fs : List Piece} {strict : Bool}
    (hy : (s.started m k).jibbed y) (h : (s.setMast m y).stirs fs strict u) :
    begins (s.mast m).calm ((u.began m k r).mast m).calm k r.post ∧ ((u.began m k r).mast m).run k = some r ∧
      ((u.began m k r).mast m).acc = (s.mast m).acc ∧ calmBut m s (u.began m k r) ∧
      changesOnly (fs ++ readPieces) s (u.began m k r) := by
  obtain ⟨hframe, hcalm, -⟩ := h
  have hmast : (u.mast m).calm = y.calm := by rw [hcalm m, State.mast_setMast_same]
  have hmasts (t : State) (z : Mast) : changesOnly (fs ++ readPieces) t (t.setMast m z) :=
    (State.setMast_frame t m z).mono (List.subset_append_of_subset_right _ (by decide))
  have hrun : (u.began m k r).mast m = (u.mast m).setRun k r := by rw [State.began_mast, if_pos rfl]
  refine ⟨?_, ?_, ?_, fun n hn => ?_, (hmasts s _).trans (hframe.trans (hmasts u _))⟩
  · rw [hrun]
    exact Mast.jibbed.begins_setRun (x := (s.mast m).calm) (y := (u.mast m).calm) (hmast ▸ hy.calm)
  · rw [hrun, Mast.run_setRun, if_pos rfl]
  · rw [hrun]
    exact (congrArg Mast.acc hmast).trans hy.acc
  · rw [State.began_mast, if_neg hn, hcalm n, State.setMast_others s m _ n hn]

/-! ### A jib descriptor that starts (R171, R172, R185) -/

/-- Each operation of the jib is the start of a descriptor that names its OP. -/
theorem exec_jibRows : ∀ row ∈ jibRows, ∀ (m : Nat) (s : State), exec (row.1 m) s = startJib m row.2 s := by
  intro row hrow m s
  fin_cases hrow <;> rfl

/-- The state that has counted the beats and masked lanes of a descriptor (Table 5.9) and the values `ws` that it wrote to the
scratchpad (R250). -/
def State.jibCounted (s : State) (m : Nat) (q : JibDesc) (tag : Nat) (ws : List Written) : State :=
  let die := mastDie m
  let s := (s.bump (0x3850 + die) 1 q.beatCounts.1).bump (0x3850 + die) 4 q.beatCounts.2
  if q.d.kind = 0 then s.countAll die (s.partOfMast m) tag q.d.fmt ws else s

theorem State.jibCounted_stirs (s : State) (m : Nat) (q : JibDesc) (tag : Nat) (ws : List Written) :
    s.stirs [.lantern, .mem, .poisoned] false (s.jibCounted m q tag ws) := by
  unfold State.jibCounted
  dsimp only
  split <;> simp

/-- A descriptor that need not wait writes and counts its results and goes into execution, or meets its host error. -/
theorem startJib_checks {s : State} {m op : Nat} {p : Posted} (h : s.headOf m 3 op = some p)
    (hres : jibReserved p = false) (hsheet : p.waitsForSheet (s.started m 3) = false) :
    let x := s.started m 3
    let q := jibOf p
    let entries := (s.mast m).sheet.take q.shn
    ∃ tag ws words, startJib m op s =
      match x.jibCheck q entries with
      | some f => .next (s.hostError m f.1 f.2)
      | none => .next (((s.setMast m (x.jibWritten q entries)).jibCounted m q tag ws).began m 3
          { post := p, summary := some words, taken := if q.rel then q.shn else 0 }) := by
  intro x q entries
  dsimp only [Posted.waitsForSheet] at hsheet
  have hgo := fun hneeds => of_decide_eq_false (Bool.and_eq_false_imp.mp hsheet hneeds)
  rw [startJib, startOp_eq h]
  dsimp only
  rw [hres, if_neg Bool.false_ne_true, if_neg (not_and.mpr hgo)]
  exact ⟨_, _, _, rfl⟩

/-! ### The end of a jib descriptor (R172, R181) -/

/-- The mast whose thread has the two summary words of descriptor `r`, where SEN asks for them (R181). -/
def Mast.summarised (x : Mast) (r : Running) : Mast :=
  let q := jibOf r.post
  if q.sen then x.writeSummary r.post.thread q.sreg (r.summary.getD (0, 0)) else x

/-- The mast with the summary words, the record at RADDR where RWR asks for it, and the released entries gone (R172). -/
def Mast.jibEnded (x : Mast) (r : Running) : Mast :=
  let q := jibOf r.post
  let y := x.summarised r
  let y := if q.rwr then y.padWrite q.raddr 16 (y.sheet.headD 0) else y
  { y with sheet := y.sheet.drop r.taken }

section
variable (x : Mast) (r : Running)

theorem Mast.summarised_eq : ∃ threads, x.summarised r = { x with threads := threads } := by
  unfold Mast.summarised
  dsimp only
  split <;> exact ⟨_, rfl⟩

/-- The summary words stand in SREG and SREG + 1 of the thread that posted the descriptor. -/
theorem Mast.summarised_thread (j : Nat) : (x.summarised r).thread j =
    let q := jibOf r.post
    let w := r.summary.getD (0, 0)
    if q.sen = true ∧ j = r.post.thread then
      ((x.thread j).setReg q.sreg (BitVec.ofNat 64 w.1)).setReg (q.sreg + 1) (BitVec.ofNat 64 w.2)
    else x.thread j := by
  unfold Mast.summarised
  dsimp only
  split
  · next hsen =>
    rw [Mast.writeSummary, Mast.thread_setThread]
    split
    · next hj => rw [if_pos ⟨hsen, hj⟩, hj]
    · next hj => rw [if_neg fun h => hj h.2]
  · next hsen => rw [if_neg fun h => hsen h.1]

/-- The end of a descriptor touches the scratchpad where RWR asks for the record, and the sheet queue. -/
theorem Mast.jibEnded_eq : ∃ pad, x.jibEnded r = { x.summarised r with pad := pad, sheet := x.sheet.drop r.taken } ∧
    ((jibOf r.post).rwr = false → pad = x.pad) := by
  obtain ⟨threads, hsummary⟩ := x.summarised_eq r
  unfold Mast.jibEnded
  dsimp only
  rw [hsummary]
  split
  · next hrwr =>
    obtain ⟨pad, hpad⟩ := Mast.padWrite_pad { x with threads := threads } (jibOf r.post).raddr 16 (x.sheet.headD 0)
    exact ⟨pad, by rw [hpad], fun h => absurd (hrwr.symm.trans h) Bool.noConfusion⟩
  · exact ⟨_, rfl, fun _ => rfl⟩

end

/-- A descriptor and its released entries, counted at `c`, with P and an error where `flag` and `err` say so (Table 5.9). -/
def State.countJib (s : State) (c taken : Nat) (flag err : Bool) : State :=
  let s := (s.bump c 5 1).bump c 6 taken
  let s := if flag then s.bump c 7 1 else s
  if err then s.bump c 8 1 else s

section
variable (s : State) (c taken : Nat) (flag err : Bool)

theorem State.countJib_registers : counts s (s.countJib c taken flag err) c 5 1 ∧
    counts s (s.countJib c taken flag err) c 6 taken ∧
    registersBut [(c, 5), (c, 6), (c, 7), (c, 8)] s (s.countJib c taken flag err) := by
  have h5 : registersBut [(c, 5)] s (s.bump c 5 1) := s.bump_registers 1 (by decide)
  have h6 : registersBut [(c, 6)] (s.bump c 5 1) ((s.bump c 5 1).bump c 6 taken) := State.bump_registers _ taken (by decide)
  have hrest : registersBut [(c, 7), (c, 8)] ((s.bump c 5 1).bump c 6 taken) (s.countJib c taken flag err) :=
    ((State.ite_bump_obj _ (flag = true) 1 (by decide)).1.mono (by simp)).trans
      ((State.ite_bump_obj _ (err = true) 1 (by decide)).1.mono (by simp))
  refine ⟨?_, ?_, (h5.mono (by simp)).trans ((h6.mono (by simp)).trans (hrest.mono (by simp)))⟩
  · rw [counts, hrest.val (by decide) (by simp), h6.val (by decide) (by simp)]
    exact s.bump_counts c 5 1
  · rw [counts, hrest.val (by decide) (by simp), ← h5.val (by decide) (by simp)]
    exact State.bump_counts _ c 6 taken

theorem State.countJib_frame : changesOnly [.dict] s (s.countJib c taken flag err) := by
  have hite (t : State) (b : Bool) (j : Nat) : changesOnly [.dict] t (if b = true then t.bump c j 1 else t) :=
    .ite (t.bump_frame c j 1) (.refl _ t)
  exact (s.bump_frame c 5 1).trans ((State.bump_frame _ c 6 taken).trans ((hite _ _ 7).trans (hite _ _ 8)))

theorem State.countJib_mast (n : Nat) : (s.countJib c taken flag err).mast n = s.mast n := by
  rw [State.mast, s.countJib_frame c taken flag err .masts (by decide)]; rfl

end

/-- JIB_COMPLETE ends the descriptor, signals its counter and counts. -/
theorem exec_jibComplete {s : State} {m : Nat} {r : Running} (hr : (s.mast m).run 3 = some r)
    (hw : (s.mast m).wild = none) : ∃ flag err, exec (.jibComplete m) s =
      .next (((s.setMast m ((s.mast m).jibEnded r)).completeRun m 3 r).countJib (0x3850 + m / 192) r.taken flag err) := by
  change ∃ flag err, execJibComplete m s = _
  rw [execJibComplete, hr]
  dsimp only
  rw [guardEvent, if_pos (Option.isNone_iff_eq_none.mpr hw)]
  exact ⟨_, _, rfl⟩

/-- Settles O23: a start writes scratchpad and cache and then counts what it wrote; a completion delivers summary, record and
released entries on the mast before it signals and counts. -/
theorem jibDescriptors : Obligations.JibDescriptors := by
  refine ⟨fun row hrow s m p h hres hsheet => ?start, fun s m r hr hw => ?complete⟩
  case start =>
    obtain ⟨tag, ws, words, hstart⟩ := startJib_checks h hres hsheet
    refine ⟨fun hcheck => ?_, fun f hcheck => ?_⟩ <;> rw [exec_jibRows row hrow, hstart, hcheck]
    · obtain ⟨hbegins, hrun, hacc, hothers, hframe⟩ :=
        State.jibbed_begins (Mast.jibbed_jibWritten ..) (State.jibCounted_stirs ..)
      exact ⟨_, _, rfl, hbegins, hrun, rfl, rfl, hacc, hothers, hframe⟩
    · exact ⟨_, rfl, s.hostError_holdsUp m f.1 f.2⟩
  case complete =>
    obtain ⟨flag, err, hexec⟩ := exec_jibComplete hr hw
    obtain ⟨threads, hsummary⟩ := (s.mast m).summarised_eq r
    obtain ⟨pad, hended, hpad⟩ := (s.mast m).jibEnded_eq r
    let t := s.setMast m ((s.mast m).jibEnded r)
    let v := t.completeRun m 3 r
    have ht : t.mast m = { (s.mast m).summarised r with pad := pad, sheet := (s.mast m).sheet.drop r.taken } :=
      (State.mast_setMast_same ..).trans hended
    obtain ⟨⟨hidle, -, -, hcounter, hcounters, hthreads⟩, hothers, hframe⟩ := t.completeRun_completes m 3 r
    obtain ⟨_, _, _, hmast⟩ := t.completeRun_mast m 3 r
    obtain ⟨hcount, htaken, hregs⟩ := v.countJib_registers (0x3850 + m / 192) r.taken flag err
    have hcounts := v.countJib_frame (0x3850 + m / 192) r.taken flag err
    have hcounterOf (n : Nat) : (t.mast m).counter n = (s.mast m).counter n := by rw [ht, hsummary]; rfl
    refine ⟨_, hexec, ?_⟩
    simp only [State.countJib_mast]
    refine ⟨hidle, ?_, fun k hk => ?_, fun j => ?_, ?_, ?_, fun hrwr => ?_, hcount.of_dict rfl rfl, htaken.of_dict rfl rfl,
      (registersBut.of_dict rfl).trans hregs, fun n hn => ?_, ?_⟩
    · rw [hcounter, hcounterOf]
    · rw [hcounters k hk, hcounterOf]
    · rw [hthreads, hcounterOf, ht]
      exact congrArg _ ((s.mast m).summarised_thread r j)
    · rw [hmast, ht]
    · rw [hmast, ht, hsummary]
    · rw [hmast, ht, hpad hrwr]
    · rw [State.countJib_mast, hothers n hn, State.setMast_others s m _ n hn]
    · exact ((s.setMast_frame m _).mono (by decide)).trans ((hframe.mono (by decide)).trans (hcounts.mono (by decide)))

end Sys2Proof.Machine

/-! SUPPORT. AMADD and AMSWAP: an atomic step at the home and the store that follows it (O11). -/

namespace Sys2Proof.Machine

-- One proof at a time: each waits for the lemmas that it rewrites by.
set_option Elab.async false

/-- An atomic exchange by `f`: the word, where a window admits it and it is neither poisoned nor fenced, goes to d, and memory
holds what `f` makes of it and of sb. -/
theorem atomicOp_leaves {s : State} {m t op : Nat} (h : s.issues m t op = true) (f : Word64 → Word64 → Word64) :
    let th := (s.mast m).thread t
    let o := s.operands m t
    let a := wordAddr o.sa
    let good : Bool := s.admits (s.partOfMast m) a 8 [rightAt] && !s.badRange a 8
    let old : Word64 := BitVec.ofNat 64 (s.load a 8)
    ∃ u, atomicOp m t op f s = .next u ∧
      (∀ b, u.byte b = if good = true ∧ a ≤ b ∧ b < a + 8 then BitVec.ofNat 8 ((f old o.sb).toNat >>> (8 * (b - a)))
        else s.byte b) ∧
      asksMemory writePieces s u m t
        { th with pc := th.pc + 8#20, run := .stalled,
                  wait := .result o.d (if good then old else 0#64) (if good then some a else none) } := by
  have hr := Requester.thread_die_lt (s.issues_lt h) t
  rw [atomicOp, issue_eq h]
  dsimp only
  generalize wordAddr (s.operands m t).sa = a
  have hfst := s.atomicWord_fst (.thread m t) (s.partOfMast m) a
  have hsnd : s.stirs [] true (s.atomicWord (.thread m t) (s.partOfMast m) a).2 := by simp [hr]
  generalize s.atomicWord (.thread m t) (s.partOfMast m) a = answer at hfst hsnd ⊢
  have hwide : s.stirs [.mem, .poisoned] true answer.2 := hsnd.mono (List.nil_subset _) id
  obtain ⟨word, u⟩ := answer
  cases hgood : s.admits (s.partOfMast m) a 8 [rightAt] && !s.badRange a 8 with
  | false =>
    obtain rfl : word = none := by simpa [hgood] using hfst
    refine ⟨_, rfl, fun b => ?_, asksMemory_retire hwide _⟩
    rw [if_neg (by simp)]
    exact hsnd.byte b
  | true =>
    obtain rfl : word = some (s.load a 8) := by simpa [hgood] using hfst
    have hstored : s.stirs [.mem, .poisoned] true
        (u.store a 8 (f (BitVec.ofNat 64 (s.load a 8)) (s.operands m t).sb).toNat) := hwide.trans (by simp)
    refine ⟨_, rfl, fun b => ?_, asksMemory_retire hstored _⟩
    change (u.store a 8 _).byte b = _
    simp only [State.store_byte, hsnd.byte, true_and]

/-- Settles O11: both operations are one atomic exchange. -/
theorem atomicWords : Obligations.AtomicWords := by
  intro s m t swap h
  cases swap with
  | false => exact atomicOp_leaves h (fun old b => old + b)
  | true => exact atomicOp_leaves h (fun _ b => b)

end Sys2Proof.Machine

/-! SUPPORT. The checks of a register write in their order (O49): `writeObject` as a chain of checks, and the answer that a
refused write gets. -/

namespace Sys2Proof.Machine

-- One proof at a time: each waits for the lemmas that it rewrites by.
set_option Elab.async false

/-- A register write with a command of its own is a write of its object. -/
theorem exec_writeForm {c : Instr} {who : Who} {i j : Nat} {v : Octets} (s : State)
    (h : writeForm c = some (who, i, j, v)) : exec c s = s.writeAs who i j v := by
  cases c <;> simp only [writeForm, reduceCtorEq, Option.some.injEq, Prod.mk.injEq] at h
  case firmwareImageWrite w k o =>
    split at h
    · next hk => cases h; exact if_pos (by simpa using hk)
    · cases h
  case svnRaise w k n =>
    split at h
    · next hk => cases h; exact if_pos (by simpa using hk)
    · cases h
  case registerWrite w i' j' v' =>
    split at h
    · cases h
    · next hi => cases h; exact if_neg hi
  all_goals obtain ⟨rfl, rfl, rfl, rfl⟩ := h; rfl

/-- Closing sessions sends nothing. -/
theorem State.settleAddress_outbox (s : State) (i j status : Nat) : (s.settleAddress i j status).outbox = s.outbox := by
  unfold State.settleAddress
  split
  · exact (changesOnly.foldl (fs := [.sessions, .stagers]) _
      (fun t e f hf => by cases f <;> first | rfl | simp at hf) _ s) .outbox (by decide)
  · rfl

/-- A write that a check refuses is answered, and nothing else follows. -/
theorem State.settleAddress_refused (s : State) (i j : Nat) {n : Nat} (hn : n ≠ 0) : s.settleAddress i j n = s :=
  if_neg fun ⟨_, _, _, h0⟩ => hn h0

/-- A requester that is no peer has a stager. -/
theorem stagerOf_isSome {who : Who} (h : ¬∃ p, who = .peer p) : ∃ k, stagerOf who = some k := by
  cases who with
  | operator n => exact ⟨_, rfl⟩
  | host c => exact ⟨_, rfl⟩
  | peer p => exact absurd ⟨p, rfl⟩ h

/-- Checks 1 to 3 answer a status other than 0 where they find no object. -/
theorem State.findObject_refused {s : State} {who : Who} {i j : Nat} (h : (s.findObject who i j).2 = none) :
    (s.findObject who i j).1 ≠ 0 := by
  unfold State.findObject at h ⊢
  split
  · simp
  · split
    · dsimp only; split <;> simp
    · split
      · simp
      · cases hrow : objRow i j with
        | none => simp
        | some r =>
          dsimp only
          split
          · simp
          · simp_all

section
variable {s : State} {who : Who} {i j : Nat} {v : Octets}

theorem State.writeObject_absent (hpeer : ¬∃ p, who = .peer p) (h : (s.findObject who i j).2 = none) :
    s.writeObject who i j v = ((s.findObject who i j).1, s) := by
  obtain ⟨k, hk⟩ := stagerOf_isSome hpeer
  unfold State.writeObject
  rw [hk]
  generalize s.findObject who i j = found at h ⊢
  obtain ⟨st, _ | r⟩ := found
  · rfl
  · cases h

/-- The checks of an object that is found, in their order. -/
theorem State.writeObject_found {r : ObjRow} (hpeer : ¬∃ p, who = .peer p) (h : (s.findObject who i j).2 = some r) :
    ∃ k, s.writeObject who i j v =
      if !mayWrite who i then (4, s)
      else if r.access = 1 then (5, s)
      else if !s.ownerOk who i j then (9, s)
      else if !lengthOk r i j v then (6, s)
      else if r.access = 3 then s.stageValue k (objKey i j) v
      else if s.valueStatus r i j v ≠ 0 then (s.valueStatus r i j v, s)
      else if r.access = 2 then s.acceptWrite i j v.bits
      else s.applyWrite k i j v := by
  obtain ⟨k, hk⟩ := stagerOf_isSome hpeer
  refine ⟨k, ?_⟩
  unfold State.writeObject
  rw [hk]
  generalize s.findObject who i j = found at h ⊢
  obtain ⟨st, _ | r'⟩ := found
  · cases h
  · cases h; rfl

end

/-- Settles O49: the answer is the status of `writeObject`, whose checks stand in the order of R402. -/
theorem registerChecks : Obligations.RegisterChecks := by
  refine ⟨fun c who i j v s hform hpkg => ?_, fun s who i j v hi hpkg => ?_⟩
  · refine ⟨_, (s.writeObject who i j v).1, (exec_writeForm s hform).trans (State.writeAs_eq hpkg who i j v), ?_, ?_⟩
    · rw [State.settleAddress_outbox]; rfl
    have refused {n : Nat} (hn : n ≠ 0) (h : s.writeObject who i j v = (n, s)) :
        (s.writeObject who i j v).1 = n ∧
          ((s.writeObject who i j v).2.emit .status (whoTag who) (s.writeObject who i j v).1 ⟨0, 0⟩).settleAddress i j
            (s.writeObject who i j v).1 = s.emit .status (whoTag who) n ⟨0, 0⟩ := by
      rw [h]
      exact ⟨rfl, State.settleAddress_refused _ i j hn⟩
    refine ⟨?_, fun hpeer h => ?_, fun r hpeer h hmay => ?_, fun r ⟨hpeer, h, hmay⟩ => ?_⟩
    · rintro ⟨p, rfl⟩
      exact refused (by decide) (s.writeObject_peer p i j v)
    · exact refused (State.findObject_refused h) (State.writeObject_absent hpeer h)
    · obtain ⟨k, hk⟩ := State.writeObject_found (v := v) hpeer h
      exact refused (by decide) (by simp [hk, hmay])
    · obtain ⟨k, hk⟩ := State.writeObject_found (v := v) hpeer h
      refine ⟨fun hro => ?_, fun hro howner => ?_, fun hro howner hlen => ?_, fun hro hrws howner hlen hval => ?_⟩
      · exact refused (by decide) (by simp [hk, hmay, hro])
      · exact refused (by decide) (by simp [hk, hmay, hro, howner])
      · exact refused (by decide) (by simp [hk, hmay, hro, howner, hlen])
      · exact refused hval (by simp [hk, hmay, hro, hrws, howner, hlen, hval])
  · change execRegisterWrite who i j v s = _
    rw [execRegisterWrite, if_pos hi, bne_iff_ne.mpr hpkg, Bool.true_and]
    by_cases h : i = 0x0C <;> simp [guardEvent, h]

end Sys2Proof.Machine

/-! SUPPORT. The memory controllers: accesses that end, grants that pass on, the patrol scrub, the sensors of the stacks and the
windows of the hot-channel detector (O27). -/

namespace Sys2Proof.Machine

-- One proof at a time: each waits for the lemmas that it rewrites by.
set_option Elab.async false

/-! ### Folds and maps -/

theorem registersBut.refl (ks : List (Nat × Nat)) (s : State) : registersBut ks s s := fun _ _ _ _ => rfl

theorem registersBut.foldl {β : Type} {ks : List (Nat × Nat)} (f : State → β → State)
    (hf : ∀ s b, registersBut ks s (f s b)) (l : List β) (s : State) : registersBut ks s (l.foldl f s) := by
  induction l generalizing s with
  | nil => exact .refl ks s
  | cons b l ih => exact (hf s b).trans (ih (f s b))

theorem FMap.get_of_forall_ne {α : Type} {m : FMap α} {k : Nat} (h : ∀ e ∈ m, e.1 ≠ k) (d : α) : FMap.get m k d = d := by
  induction m with
  | nil => rfl
  | cons e m ih =>
    have hne : e.1 ≠ k := h e List.mem_cons_self
    simp [FMap.get, hne, ih fun e' he => h e' (List.mem_cons_of_mem _ he)]

theorem mem_insertSorted (k : Nat) (l : List Nat) : k ∈ insertSorted k l := by
  induction l with
  | nil => simp [insertSorted]
  | cons j l ih => unfold insertSorted; split_ifs <;> simp_all

/-! ### The code over a granule half (R198, R199) -/

section
variable (s : State) (stack half : Nat)

theorem State.poisonHalf_frame : changesOnly [.poisoned] s (s.poisonHalf half) := by
  intro f hf; cases f <;> first | rfl | simp at hf

/-- A half that cannot be corrected is poisoned, counted and posted (R199). -/
theorem State.uncorrectable_eq :
    ∃ e, s.uncorrectable stack half = ((s.poisonHalf half).bump (0x3000 + stack / 2) 2 1).post e := by
  unfold State.uncorrectable
  exact ⟨_, rfl⟩

theorem State.uncorrectable_frame : changesOnly [.poisoned, .dict, .rings] s (s.uncorrectable stack half) := by
  obtain ⟨e, he⟩ := s.uncorrectable_eq stack half
  exact he ▸ (((s.poisonHalf_frame half).mono (by decide)).trans ((State.bump_frame _ _ _ _).mono (by decide))).trans
    ((State.post_frame _ e).mono (by decide))

theorem State.uncorrectable_registers : registersBut [(0x3000 + stack / 2, 2)] s (s.uncorrectable stack half) := by
  obtain ⟨e, he⟩ := s.uncorrectable_eq stack half
  exact he ▸ ((s.poisonHalf half).bump_registers 1 (by decide)).trans (.of_dict (State.post_frame _ e .dict (by decide)))

theorem State.uncorrectable_counts : counts s (s.uncorrectable stack half) (0x3000 + stack / 2) 2 1 := by
  obtain ⟨e, he⟩ := s.uncorrectable_eq stack half
  exact he ▸ ((s.poisonHalf half).bump_counts _ 2 1).of_dict rfl (State.post_frame _ e .dict (by decide))

theorem State.uncorrectable_poisoned : half ∈ (s.uncorrectable stack half).poisoned := by
  obtain ⟨e, he⟩ := s.uncorrectable_eq stack half
  rw [he, State.post_frame _ e .poisoned (by decide)]
  exact mem_insertSorted half s.poisoned

variable {wrong : Nat}

/-- Up to three wrong symbols are corrected and counted. -/
theorem State.decodeHalf_corrected (h : 1 ≤ wrong) (h' : wrong ≤ 3) :
    s.decodeHalf stack half wrong = s.bump (0x3000 + stack / 2) 1 1 := by
  rw [State.decodeHalf, if_neg (by omega), if_pos h']

/-- Four or five are detected. -/
theorem State.decodeHalf_detected (h : 4 ≤ wrong) (h' : wrong ≤ 5) :
    s.decodeHalf stack half wrong = s.uncorrectable stack half := by
  rw [State.decodeHalf, if_neg (by omega), if_neg (by omega), if_pos h']

/-- More are detected, or leave open data that counts as corrected (log 1). -/
theorem State.decodeHalf_beyond (h : 5 < wrong) :
    s.decodeHalf stack half wrong = (s.open 1).2.uncorrectable stack half ∨
      ∃ v free, s.decodeHalf stack half wrong =
        ({ s with mem := FMap.writeLE s.mem (64 * half) 64 v, free := free } : State).bump (0x3000 + stack / 2) 1 1 := by
  rw [State.decodeHalf, if_neg (by omega), if_neg (by omega), if_neg (by omega)]
  dsimp only
  split
  · exact .inl rfl
  · exact .inr ⟨_, _, rfl⟩

variable (wrong)

/-- A number of wrong symbols is one of these: none, corrected, detected, beyond the code. -/
theorem wrong_cases : wrong = 0 ∨ (1 ≤ wrong ∧ wrong ≤ 3) ∨ (4 ≤ wrong ∧ wrong ≤ 5) ∨ 5 < wrong := by omega

theorem State.decodeHalf_frame : changesOnly [.mem, .poisoned, .dict, .rings, .free] s (s.decodeHalf stack half wrong) := by
  rcases wrong_cases wrong with rfl | ⟨h, h'⟩ | ⟨h, h'⟩ | h
  · exact .refl _ s
  · exact s.decodeHalf_corrected stack half h h' ▸ (s.bump_frame _ 1 1).mono (by decide)
  · exact s.decodeHalf_detected stack half h h' ▸ (s.uncorrectable_frame stack half).mono (by decide)
  · obtain he | ⟨v, free, he⟩ := s.decodeHalf_beyond stack half h
    · exact he ▸ ((s.open_frame 1).mono (by decide)).trans ((State.uncorrectable_frame _ _ _).mono (by decide))
    · refine he ▸ changesOnly.trans (fun f hf => ?_) ((State.bump_frame _ _ 1 1).mono (by decide))
      cases f <;> first | rfl | simp at hf

theorem State.decodeHalf_registers :
    registersBut [(0x3000 + stack / 2, 1), (0x3000 + stack / 2, 2)] s (s.decodeHalf stack half wrong) := by
  rcases wrong_cases wrong with rfl | ⟨h, h'⟩ | ⟨h, h'⟩ | h
  · exact .refl _ s
  · exact s.decodeHalf_corrected stack half h h' ▸ (s.bump_registers 1 (by decide)).mono (by simp)
  · exact s.decodeHalf_detected stack half h h' ▸ (s.uncorrectable_registers stack half).mono (by simp)
  · obtain he | ⟨v, free, he⟩ := s.decodeHalf_beyond stack half h
    · exact he ▸ ((s.open 1).2.uncorrectable_registers stack half).mono (by simp)
    · rw [he]
      exact registersBut.trans (.of_dict rfl) ((State.bump_registers _ 1 (by decide)).mono (by simp))

/-- Up to five wrong symbols change no byte. -/
theorem State.decodeHalf_mem (h5 : wrong ≤ 5) : (s.decodeHalf stack half wrong).mem = s.mem := by
  rcases wrong_cases wrong with rfl | ⟨h, h'⟩ | ⟨h, h'⟩ | h
  · rfl
  · rw [s.decodeHalf_corrected stack half h h']; rfl
  · rw [s.decodeHalf_detected stack half h h']; exact s.uncorrectable_frame stack half .mem (by decide)
  · omega

/-- Up to three poison nothing. -/
theorem State.decodeHalf_poisoned (h3 : wrong ≤ 3) : (s.decodeHalf stack half wrong).poisoned = s.poisoned := by
  rcases wrong_cases wrong with rfl | ⟨h, h'⟩ | ⟨h, h'⟩ | h
  · rfl
  · rw [s.decodeHalf_corrected stack half h h']; rfl
  all_goals omega

end

/-! ### An access that ends (R198, R209, R211) -/

theorem State.serveRemotes_nil {s : State} (h : s.remote = []) : s.serveRemotes = s := by
  rw [State.serveRemotes, h]; rfl

theorem State.openRow_eq (s : State) (c half : Nat) : ∃ rows, s.openRow c half = { s with openRows := rows } := ⟨_, rfl⟩

theorem State.openRow_frame (s : State) (c half : Nat) : changesOnly [.openRows] s (s.openRow c half) := by
  obtain ⟨rows, h⟩ := s.openRow_eq c half
  rw [h]
  intro f hf; cases f <;> first | rfl | simp at hf

theorem State.setTracker_frame (s : State) (c : Nat) (x : Tracker) : changesOnly [.trackers] s (s.setTracker c x) := by
  intro f hf; cases f <;> first | rfl | simp at hf

/-- The tracker of `c` once access `a` has left it and its entry is granted on. -/
def State.freed (s : State) (c : Nat) (a : Access) : Tracker :=
  ({ s.tracker c with order := (s.tracker c).order.erase a } : Tracker).grantNext (s.val 0x3180 1) s.tick

/-- The access has left its tracker; a half that it read is not decoded yet. -/
def State.accessFreed (s : State) (c : Nat) (a : Access) : State :=
  let t := ((s.openRow c a.half).setTracker c (s.freed c a)).bump (0x3100 + c / 128) 5 1
  t.setVal (0x3100 + c / 128) 1 (t.trackerUse (c / 128)).1

theorem State.accessDone_eq (s : State) (c : Nat) (a : Access) (wrong : Nat) : s.accessDone c a wrong =
    if a.read then (s.accessFreed c a).decodeHalf (c / 64) a.half wrong else s.accessFreed c a := rfl

section
variable (s : State) (c : Nat) (a : Access)

/-- What stands before the counts. -/
theorem State.freed_frame : changesOnly [.trackers, .openRows] s ((s.openRow c a.half).setTracker c (s.freed c a)) :=
  ((s.openRow_frame c a.half).mono (by decide)).trans ((State.setTracker_frame _ c _).mono (by decide))

theorem State.accessFreed_frame : changesOnly [.trackers, .openRows, .dict] s (s.accessFreed c a) :=
  (((s.freed_frame c a).mono (by decide)).trans ((State.bump_frame _ _ _ _).mono (by decide))).trans
    ((State.setVal_frame _ _ _ _).mono (by decide))

theorem State.accessFreed_tracker (k : Nat) :
    (s.accessFreed c a).tracker k = if k = c then s.freed c a else s.tracker k := by
  obtain ⟨rows, h⟩ := s.openRow_eq c a.half
  rw [State.accessFreed, h]
  exact State.tracker_setTracker { s with openRows := rows } c k (s.freed c a)

theorem State.accessFreed_registers :
    registersBut [(0x3100 + c / 128, 1), (0x3100 + c / 128, 5)] s (s.accessFreed c a) :=
  ((registersBut.of_dict (s.freed_frame c a .dict (by decide))).trans
    ((State.bump_registers _ 1 (by decide)).mono (by simp))).trans ((State.setVal_registers _ _ (by decide)).mono (by simp))

theorem State.accessFreed_counts : counts s (s.accessFreed c a) (0x3100 + c / 128) 5 1 := by
  have hbump : counts s _ _ _ _ := (State.bump_counts ((s.openRow c a.half).setTracker c (s.freed c a))
    (0x3100 + c / 128) 5 1).of_dict (s.freed_frame c a .dict (by decide)).symm rfl
  unfold counts at hbump ⊢
  rwa [State.accessFreed, State.val_setVal_other _ _ (by unfold objKey; omega)]

end

/-- The access that the scheduler picks ends; no request of a port waits for it. -/
theorem exec_memAccessComplete {s : State} {c wrong : Nat} {a : Access} (ha : s.nextAccess c = some a)
    (hdie : s.val 0x2410 (c / 128 + 1) ≠ 5) (hremote : s.remote = []) :
    exec (.memAccessComplete c wrong) s = .next (s.accessDone c a wrong) := by
  change execMemAccessComplete c wrong s = _
  have hfreed : (s.accessFreed c a).remote = [] := (s.accessFreed_frame c a .remote (by decide)).trans hremote
  have hnone : (s.accessDone c a wrong).remote = [] := by
    rw [State.accessDone_eq]
    split
    · exact (State.decodeHalf_frame _ _ _ _ .remote (by decide)).trans hfreed
    · exact hfreed
  rw [execMemAccessComplete, ha]
  dsimp only
  rw [guardEvent, if_pos (bne_iff_ne.mpr hdie), State.serveRemotes_nil hnone]

/-- What is left once the half that an access read is decoded. -/
theorem State.accessDone_leaves (s : State) (c wrong : Nat) (a : Access) :
    let d := c / 128
    let u := s.accessDone c a wrong
    (∀ k, u.tracker k = (s.accessFreed c a).tracker k) ∧ counts s u (0x3100 + d) 5 1 ∧
      (a.read = true → 1 ≤ wrong → wrong ≤ 3 → counts s u (0x3000 + d) 1 1) ∧
      (a.read = true → 4 ≤ wrong → wrong ≤ 5 → a.half ∈ u.poisoned ∧ counts s u (0x3000 + d) 2 1) ∧
      (a.read = false ∨ wrong ≤ 3 → u.poisoned = s.poisoned) ∧ (a.read = false ∨ wrong ≤ 5 → u.mem = s.mem) ∧
      registersBut [(0x3100 + d, 1), (0x3100 + d, 5), (0x3000 + d, 1), (0x3000 + d, 2)] s u ∧
      changesOnly [.trackers, .openRows, .mem, .poisoned, .dict, .rings, .free] s u := by
  have hfreed := s.accessFreed_registers c a
  have hframe := s.accessFreed_frame c a
  have hcount := s.accessFreed_counts c a
  dsimp only
  rw [State.accessDone_eq]
  generalize s.accessFreed c a = t at hfreed hframe hcount ⊢
  cases hread : a.read with
  | false =>
    simp only [Bool.false_eq_true, if_false, false_implies, true_or, true_implies, implies_true, true_and]
    exact ⟨hcount, hframe .poisoned (by decide), hframe .mem (by decide), hfreed.mono (by simp), hframe.mono (by decide)⟩
  | true =>
    have hdie : c / 64 / 2 = c / 128 := Nat.div_div_eq_div_mul c 64 2
    have hstep := t.decodeHalf_frame (c / 64) a.half wrong
    have hregs := t.decodeHalf_registers (c / 64) a.half wrong
    rw [hdie] at hregs
    have hval {j : Nat} (hj : j ∈ [1, 2]) : t.val (0x3000 + c / 128) j = s.val (0x3000 + c / 128) j := by
      have : j = 1 ∨ j = 2 := by simpa using hj
      exact hfreed.val (by omega) (by simp)
    simp only [if_true, true_implies, Bool.true_eq_false, false_or]
    refine ⟨fun k => ?_, ?_, fun h h' => ?_, fun h h' => ⟨?_, ?_⟩, fun h => ?_, fun h => ?_,
      (hfreed.mono (by simp)).trans (hregs.mono (by simp)), (hframe.mono (by decide)).trans (hstep.mono (by decide))⟩
    · rw [State.tracker, hstep .trackers (by decide), ← State.tracker]
    · rw [counts, hregs.val (by decide) (by simp)]; exact hcount
    · rw [t.decodeHalf_corrected _ _ h h', hdie, counts, ← hval (by simp)]
      exact t.bump_counts _ 1 1
    · rw [t.decodeHalf_detected _ _ h h']
      exact t.uncorrectable_poisoned _ _
    · rw [t.decodeHalf_detected _ _ h h', counts, ← hval (by simp), ← hdie]
      exact t.uncorrectable_counts _ _
    · exact (t.decodeHalf_poisoned _ _ _ h).trans (hframe .poisoned (by decide))
    · exact (t.decodeHalf_mem _ _ _ h).trans (hframe .mem (by decide))

/-! ### Grants, scrubs and temperatures (R200, R201, R211) -/

/-- A grant that was not used in time passes on. -/
theorem exec_trackerGrantTimeout {s : State} {c : Nat} {w : Waiter} {r : List Waiter} (hw : (s.tracker c).granted = w :: r)
    (hlate : w.since + 5 ≤ s.tick) : exec (.trackerGrantTimeout c) s =
      .next (s.setTracker c (({ s.tracker c with granted := r } : Tracker).grantNext (s.val 0x3180 1) s.tick)) := by
  change execTrackerGrantTimeout c s = _
  rw [execTrackerGrantTimeout]
  dsimp only
  rw [hw]
  exact if_neg (by omega)

section
variable (s : State) (k : Nat)

theorem State.setHbm_frame (h : FMap Stack) : changesOnly [.hbm] s { s with hbm := h } := by
  intro f hf; cases f <;> first | rfl | simp at hf

/-- The granule half that the scrub of stack `k` reads next, corrected. -/
def State.scrubbed (wrong : Nat) : State :=
  let x := FMap.get s.hbm k {}
  s.decodeHalf k (s.scrubAddress (64 * k + (x.scrub / 4) % 64) (x.scrub / 256) / 64 + x.scrub % 4) wrong

/-- Stack `k` with the position of its scrub moved to `pos`. -/
def State.scrubAt (t : State) (pos : Nat) : State :=
  { t with hbm := FMap.set t.hbm k {} { FMap.get s.hbm k {} with scrub := pos } }

/-- The scrub moves to the next half, or begins anew and counts. -/
theorem exec_patrolScrub (wrong : Nat) {k : Nat} (hk : k < 32) : exec (.patrolScrub k wrong) s =
    let pos := (FMap.get s.hbm k {}).scrub + 1
    if pos < s.stackHalves then .next (s.scrubAt k (s.scrubbed k wrong) pos)
    else .next ((s.scrubAt k (s.scrubbed k wrong) 0).bump (0x3000 + k / 2) 7 1) := by
  have hident : (s.scrubbed k wrong).ident = s.ident := s.decodeHalf_frame k _ wrong .ident (by decide)
  have hhalves : (s.scrubbed k wrong).stackHalves = s.stackHalves := by rw [State.stackHalves, hident]; rfl
  rw [← hhalves]
  change execPatrolScrub k wrong s = _
  rw [execPatrolScrub, if_neg (by omega)]
  rfl

variable (wrong pos : Nat)

/-- What the scrub of a half leaves, its position apart. -/
theorem State.scrubAt_leaves : let u := s.scrubAt k (s.scrubbed k wrong) pos
    (FMap.get u.hbm k {}).scrub = pos ∧ (wrong ≤ 5 → u.mem = s.mem) ∧ (wrong ≤ 3 → u.poisoned = s.poisoned) ∧
      (∀ j, j ≠ k → FMap.get u.hbm j {} = FMap.get s.hbm j {}) ∧
      registersBut [(0x3000 + k / 2, 1), (0x3000 + k / 2, 2)] s u ∧
      changesOnly [.hbm, .mem, .poisoned, .dict, .rings, .free] s u := by
  have hframe : changesOnly _ s (s.scrubbed k wrong) := s.decodeHalf_frame k _ wrong
  have hset : changesOnly [.hbm] (s.scrubbed k wrong) (s.scrubAt k (s.scrubbed k wrong) pos) := State.setHbm_frame _ _
  refine ⟨congrArg Stack.scrub (FMap.get_set_same ..), fun h => ?_, fun h => ?_, fun j hj => ?_,
    (s.decodeHalf_registers k _ wrong).trans (.of_dict (hset .dict (by decide))),
    (hframe.mono (by decide)).trans (hset.mono (by decide))⟩
  · exact (hset .mem (by decide)).trans (s.decodeHalf_mem k _ wrong h)
  · exact (hset .poisoned (by decide)).trans (s.decodeHalf_poisoned k _ wrong h)
  · exact (FMap.get_set_other _ _ _ _ hj).trans (congrArg (FMap.get · j {}) (hframe .hbm (by decide)))

end

/-- What a temperature sample decides of the throttle of stack `k` (R201). -/
def State.throttles (s : State) (k temp : Nat) : Bool :=
  if s.val (0x3000 + k / 2) 8 ≤ temp then true
  else if temp + 5 ≤ s.val (0x3000 + k / 2) 8 then false
  else (FMap.get s.hbm k {}).throttle

section
variable (s : State) (k temp : Nat)

/-- The stack once its sample is taken. -/
def State.sampledStack (s : State) (k temp : Nat) : Stack :=
  { FMap.get s.hbm k {} with temp := temp, throttle := s.throttles k temp, since := s.tick }

/-- The sample of stack `k` stands in the registers of its die and at the stack. -/
def State.sampled : State :=
  let d := 0x3000 + k / 2
  let t := s.setVal d (4 + k % 2) temp
  let t := t.setVal d 6 (setBit (t.val d 6) (k % 2) (s.throttles k temp))
  { t with hbm := FMap.set t.hbm k {} (s.sampledStack k temp) }

/-- The sample is taken once it is due, and a stack that begins to throttle is posted. -/
theorem execHbmTempSample_eq : ∃ e, execHbmTempSample k temp s =
    if 32 ≤ k ∨ s.tick < (FMap.get s.hbm k {}).since + msTicks then .next s
    else if (s.throttles k temp && !(FMap.get s.hbm k {}).throttle) = true then .next ((s.sampled k temp).post e)
    else .next (s.sampled k temp) := ⟨_, rfl⟩

/-- What stands in the stack and in its die's registers after a sample, posted or not. -/
theorem exec_hbmTempSample {k : Nat} (hk : k < 32) (hdue : (FMap.get s.hbm k {}).since + msTicks ≤ s.tick) :
    ∃ u, exec (.hbmTempSample k temp) s = .next u ∧ u.hbm = (s.sampled k temp).hbm ∧ u.dict = (s.sampled k temp).dict ∧
      changesOnly [.rings] (s.sampled k temp) u := by
  obtain ⟨e, he⟩ := execHbmTempSample_eq s k temp
  change ∃ u, execHbmTempSample k temp s = _ ∧ _
  rw [he, if_neg (by omega)]
  split
  · exact ⟨_, rfl, State.post_frame _ e .hbm (by decide), State.post_frame _ e .dict (by decide), State.post_frame _ e⟩
  · exact ⟨_, rfl, rfl, rfl, .refl _ _⟩

theorem State.sampled_frame : changesOnly [.hbm, .dict] s (s.sampled k temp) :=
  (((State.setVal_frame _ _ _ _).mono (by decide)).trans ((State.setVal_frame _ _ _ _).mono (by decide))).trans
    ((State.setHbm_frame _ _).mono (by decide))

theorem State.sampled_registers :
    registersBut [(0x3000 + k / 2, 4 + k % 2), (0x3000 + k / 2, 6)] s (s.sampled k temp) :=
  (((s.setVal_registers _ (by omega)).mono (by simp)).trans ((State.setVal_registers _ _ (by decide)).mono (by simp))).trans
    (.of_dict rfl)

end

/-! ### The hot-channel detector (R218) -/

section
variable (s : State) (d c total parts : Nat)

theorem State.postHot_frame : changesOnly [.dict, .rings] s (s.postHot d c parts) :=
  changesOnly.foldl _ (fun t _ => ((t.bump_frame _ _ _).mono (by decide)).trans ((State.post_frame _ _).mono (by decide))) _ s

theorem State.postHot_registers : registersBut [(0x3300 + d, 4)] s (s.postHot d c parts) :=
  registersBut.foldl _ (fun t _ => (t.bump_registers 1 (by decide)).trans (.of_dict (State.post_frame _ _ .dict (by decide)))) _ s

theorem State.setHot_frame (h : FMap HotChannel) : changesOnly [.hot] s { s with hot := h } := by
  intro f hf; cases f <;> first | rfl | simp at hf

/-- A channel at the end of its window: its count is zero; where it is flagged that is counted, and may be posted. -/
theorem State.hotChannelEnd_cases : ∃ h : HotChannel, h.count = 0 ∧
    let flagged : State := { s.bump (0x3300 + d) 1 1 with hot := FMap.set s.hot c {} h }
    (s.hotChannelEnd d total c = { s with hot := FMap.set s.hot c {} h } ∨ s.hotChannelEnd d total c = flagged ∨
      ∃ ps, s.hotChannelEnd d total c = flagged.postHot d c ps) := by
  let x := FMap.get s.hot c {}
  unfold State.hotChannelEnd
  dsimp only
  split
  · refine ⟨{ x with count := 0, run := x.run + 1, posted := x.posted || (decide (x.run + 1 = hotRunLimit) && !x.posted) },
      rfl, ?_⟩
    split
    · exact .inr (.inr ⟨_, rfl⟩)
    · exact .inr (.inl rfl)
  · exact ⟨{}, rfl, .inl rfl⟩

theorem State.hotChannelEnd_frame : changesOnly [.hot, .dict, .rings] s (s.hotChannelEnd d total c) := by
  obtain ⟨h, -, he⟩ := s.hotChannelEnd_cases d c total
  have hflagged : changesOnly [.hot, .dict, .rings] s { s.bump (0x3300 + d) 1 1 with hot := FMap.set s.hot c {} h } :=
    ((s.bump_frame _ _ _).mono (by decide)).trans ((State.setHot_frame _ _).mono (by decide))
  obtain he | he | ⟨ps, he⟩ := he <;> rw [he]
  · exact (s.setHot_frame _).mono (by decide)
  · exact hflagged
  · exact hflagged.trans ((State.postHot_frame _ _ _ _).mono (by decide))

theorem State.hotChannelEnd_registers :
    registersBut [(0x3300 + d, 1), (0x3300 + d, 4)] s (s.hotChannelEnd d total c) := by
  obtain ⟨h, -, he⟩ := s.hotChannelEnd_cases d c total
  have hflagged : registersBut [(0x3300 + d, 1), (0x3300 + d, 4)] s
      { s.bump (0x3300 + d) 1 1 with hot := FMap.set s.hot c {} h } :=
    ((s.bump_registers 1 (by decide)).mono (by simp)).trans (.of_dict rfl)
  obtain he | he | ⟨ps, he⟩ := he <;> rw [he]
  · exact .of_dict rfl
  · exact hflagged
  · exact hflagged.trans ((State.postHot_registers _ _ _ _).mono (by simp))

/-- Its count alone becomes zero. -/
theorem State.hotChannelEnd_count (k : Nat) : (FMap.get (s.hotChannelEnd d total c).hot k {}).count =
    if k = c then 0 else (FMap.get s.hot k {}).count := by
  obtain ⟨h, hcount, he⟩ := s.hotChannelEnd_cases d c total
  have hhot : (s.hotChannelEnd d total c).hot = FMap.set s.hot c {} h := by
    obtain he | he | ⟨ps, he⟩ := he <;> rw [he]
    exact State.postHot_frame _ _ _ _ .hot (by decide)
  rw [hhot, FMap.get_set]
  split
  · exact hcount
  · rfl

/-- The channels listed, each at the end of its window. -/
def State.channelsEnded (l : FMap HotChannel) : State := l.foldl (fun s e => s.hotChannelEnd d total e.1) s

variable (l : FMap HotChannel)

theorem State.channelsEnded_frame : changesOnly [.hot, .dict, .rings] s (s.channelsEnded d total l) := by
  refine changesOnly.foldl _ (fun t e => ?_) l s
  exact t.hotChannelEnd_frame d e.1 total

theorem State.channelsEnded_registers :
    registersBut [(0x3300 + d, 1), (0x3300 + d, 4)] s (s.channelsEnded d total l) := by
  refine registersBut.foldl _ (fun t e => ?_) l s
  exact t.hotChannelEnd_registers d e.1 total

theorem State.channelsEnded_count (k : Nat) : (FMap.get (s.channelsEnded d total l).hot k {}).count =
    if ∃ e ∈ l, e.1 = k then 0 else (FMap.get s.hot k {}).count := by
  induction l generalizing s with
  | nil => simp [State.channelsEnded]
  | cons e l ih =>
    rw [State.channelsEnded, List.foldl_cons, ← State.channelsEnded, ih, State.hotChannelEnd_count]
    by_cases hl : ∃ x ∈ l, x.1 = k
    · rw [if_pos hl, if_pos (hl.imp fun x hx => ⟨List.mem_cons_of_mem _ hx.1, hx.2⟩)]
    · rw [if_neg hl]
      by_cases he : k = e.1
      · rw [if_pos he, if_pos ⟨e, List.mem_cons_self, he.symm⟩]
      · rw [if_neg he, if_neg]
        rintro ⟨x, hx, hk⟩
        obtain rfl | hx := List.mem_cons.mp hx
        · exact he hk.symm
        · exact hl ⟨x, hx, hk⟩

/-- The channels of die `d` at the end of their window, the next one begun. -/
def State.hotEnded : State :=
  let mine := s.hot.filter fun e => e.1 / 128 = d
  State.channelsEnded { s with hotSince := FMap.set s.hotSince d 0 s.tick } d (mine.foldl (fun t e => t + e.2.count) 0) mine

theorem execHotWindowEnd_eq : ∃ channel run, execHotWindowEnd d s =
    if 16 ≤ d ∨ s.tick < FMap.get s.hotSince d 0 + msTicks then .next s
    else .next (((s.hotEnded d).setVal (0x3300 + d) 2 channel).setVal (0x3300 + d) 3 run) := ⟨_, _, rfl⟩

theorem State.setHotSince_frame (since : FMap Nat) : changesOnly [.hotSince] s { s with hotSince := since } := by
  intro f hf; cases f <;> first | rfl | simp at hf

theorem State.hotEnded_frame : changesOnly [.hot, .hotSince, .dict, .rings] s (s.hotEnded d) :=
  ((s.setHotSince_frame _).mono (by decide)).trans ((State.channelsEnded_frame _ d _ _).mono (by decide))

theorem State.hotEnded_registers : registersBut [(0x3300 + d, 1), (0x3300 + d, 4)] s (s.hotEnded d) :=
  (registersBut.of_dict (s.setHotSince_frame _ .dict (by decide))).trans (State.channelsEnded_registers _ d _ _)

theorem State.hotEnded_since : FMap.get (s.hotEnded d).hotSince d 0 = s.tick := by
  rw [State.hotEnded, State.channelsEnded_frame _ d _ _ .hotSince (by decide)]
  exact FMap.get_set_same ..

/-- Every channel of the die is at count zero. -/
theorem State.hotEnded_count (hc : c / 128 = d) : (FMap.get (s.hotEnded d).hot c {}).count = 0 := by
  rw [State.hotEnded, State.channelsEnded_count]
  split
  · rfl
  · next hnone =>
    have habsent : ∀ e ∈ s.hot, e.1 ≠ c := fun e he hec =>
      hnone ⟨e, List.mem_filter.mpr ⟨he, by simp [hec, hc]⟩, hec⟩
    exact congrArg HotChannel.count (FMap.get_of_forall_ne habsent {})

end

/-- Settles O27: each event by what it leaves. -/
theorem memoryDeviceEvents : Obligations.MemoryDeviceEvents := by
  refine ⟨fun s c wrong a _ ha hdie hremote => ?access, fun s c w r hw hlate => ?grant, fun s k d temp wrong =>
    ⟨fun hk => ?scrub, fun hk hdue => ?sample, fun hd hdue => ?window⟩⟩
  case access =>
    obtain ⟨htracker, hrest⟩ := s.accessDone_leaves c wrong a
    refine ⟨_, exec_memAccessComplete ha hdie hremote, ?_, fun k hk => ?_, hrest⟩
    · rw [htracker, State.accessFreed_tracker, if_pos rfl]; rfl
    · rw [htracker, State.accessFreed_tracker, if_neg hk]
  case grant =>
    refine ⟨_, exec_trackerGrantTimeout hw hlate, ?_, fun k hk => ?_, State.setTracker_frame s c _⟩
    · rw [State.tracker_setTracker, if_pos rfl]
    · rw [State.tracker_setTracker, if_neg hk]
  case scrub =>
    rw [exec_patrolScrub s wrong hk]
    dsimp only
    split
    · next hpos =>
      obtain ⟨hscrub, hmem, hpoison, hother, hregs, hframe⟩ := s.scrubAt_leaves k wrong ((FMap.get s.hbm k {}).scrub + 1)
      exact ⟨_, rfl, hscrub, fun h => absurd h (by omega), hmem, hpoison, hother, hregs.mono (by simp), hframe⟩
    · next hpos =>
      obtain ⟨hscrub, hmem, hpoison, hother, hregs, hframe⟩ := s.scrubAt_leaves k wrong 0
      have hcount := (s.scrubAt k (s.scrubbed k wrong) 0).bump_counts (0x3000 + k / 2) 7 1
      rw [counts, hregs.val (by decide) (by simp)] at hcount
      exact ⟨_, rfl, hscrub, fun _ => hcount, hmem, hpoison, hother,
        (hregs.mono (by simp)).trans ((State.bump_registers _ 1 (by decide)).mono (by simp)),
        hframe.trans ((State.bump_frame _ _ _ _).mono (by decide))⟩
  case sample =>
    obtain ⟨u, hu, hhbm, hdict, hframe⟩ := exec_hbmTempSample s temp hk hdue
    have hother (j : Nat) (hj : j ≠ k) : FMap.get u.hbm j {} = FMap.get s.hbm j {} := by
      rw [hhbm]; exact FMap.get_set_other _ _ _ _ hj
    have hown : FMap.get u.hbm k {} = s.sampledStack k temp := by
      rw [hhbm]; exact FMap.get_set_same ..
    exact ⟨u, hu, congrArg Stack.temp hown, congrArg Stack.since hown, congrArg Stack.throttle hown, hother,
      (s.sampled_registers k temp).trans (.of_dict hdict),
      ((s.sampled_frame k temp).mono (by decide)).trans (hframe.mono (by decide))⟩
  case window =>
    obtain ⟨channel, run, he⟩ := execHotWindowEnd_eq s d
    rw [if_neg (by omega)] at he
    exact ⟨_, he, fun c hc => s.hotEnded_count d c hc, s.hotEnded_since d,
      (((s.hotEnded_registers d).mono (by simp)).trans ((State.setVal_registers _ _ (by decide)).mono (by simp))).trans
        ((State.setVal_registers _ _ (by decide)).mono (by simp)),
      ((s.hotEnded_frame d).trans ((State.setVal_frame _ _ _ _).mono (by decide))).trans
        ((State.setVal_frame _ _ _ _).mono (by decide))⟩

end Sys2Proof.Machine

/-! SUPPORT. The coherence protocol of a line (O26): what its commands leave as it was, for any cache and any queue of the line;
the lines and directory entries that the operations read back; a line that a cache does not hold stays absent while the home
recalls other lines. -/

namespace Sys2Proof.Machine

-- One proof at a time: each waits for the lemmas that it rewrites by.
set_option Elab.async false

/-! ### The protocol as requests that `stirs` allows

A waiting request may name any agent, and then any register of the cache counters: of the dictionary these lemmas say
nothing (`strict` is not set). -/

section
variable {fs : List Piece} {ρ : State}
variable (s : State) (l g who i j v : Nat) (q : LineReq) (st : LineState) (x : DirEntry) (ask : LineAsk) (halves : List Nat)

@[simp ↓] theorem State.setVal_stirred_any : State.Stirred fs false ρ s (s.setVal i j v) :=
  State.stirred_of ⟨(s.setVal_frame i j v).mono fun f hf => by
    obtain rfl := List.mem_singleton.mp hf
    exact List.mem_append_right _ (by decide), calmAll.of_masts rfl, fun h => absurd h (by decide)⟩

@[simp ↓] theorem State.serveLine_stirred_any : State.Stirred fs false ρ s (s.serveLine l q) := by
  refine State.stirred_of ?_
  unfold State.serveLine; dsimp only; (repeat' split) <;> simp [State.lineChannel_lt, State.home_lt, *]

@[simp ↓] theorem State.reach_stirred_any : State.Stirred fs false ρ s (s.reach l q) :=
  State.stirred_of (by simp [State.reach])

@[simp ↓] theorem State.sendLine_stirred_any : State.Stirred fs false ρ s (s.sendLine l g ask who halves) :=
  State.stirred_of (by simp [State.sendLine])

@[simp ↓] theorem State.upgrade_stirred_any (whole : Bool) : State.Stirred fs false ρ s (s.upgrade g l who whole) :=
  State.stirred_of (by simp [State.upgrade])

@[simp ↓] theorem State.serveNext_stirred (fuel : Nat) : State.Stirred fs false ρ s (s.serveNext l fuel) := by
  induction fuel generalizing ρ s with
  | zero => exact State.stirred_of s.stirs_refl
  | succ n ih => refine State.stirred_of ?_; unfold State.serveNext; dsimp only; split <;> simp [ih]

@[simp ↓] theorem State.endTransaction_stirred : State.Stirred fs false ρ s (s.endTransaction l x) :=
  State.stirred_of (by simp [State.endTransaction])

@[simp ↓] theorem State.evictLine_stirred : State.Stirred fs false ρ s (s.evictLine g l st) := by
  refine State.stirred_of ?_
  unfold State.evictLine; split <;> simp

@[simp ↓] theorem State.lineRoom_stirred : State.Stirred fs false ρ s (s.lineRoom g l) := by
  refine State.stirred_of ?_
  unfold State.lineRoom; dsimp only; (repeat' split) <;> simp

@[simp ↓] theorem State.fillLine_stirred : State.Stirred fs false ρ s (s.fillLine g l st x) :=
  State.stirred_of (by simp [State.fillLine])

@[simp ↓] theorem State.fill_stirred : State.Stirred fs false ρ s (s.fill l q) := by
  refine State.stirred_of ?_
  unfold State.fill; dsimp only; (repeat' split) <;> simp

/-- A request at its home, whoever makes it. -/
theorem exec_directoryRequest_stirs : ∃ u, exec (.directoryRequest g l ask) s = .next u ∧ s.stirs [] false u := by
  change ∃ u, execDirectoryRequest g l ask s = _ ∧ _
  unfold execDirectoryRequest
  (repeat' split) <;> exact ⟨_, rfl, by simp⟩

end

/-! ### Lines and directory entries read back -/

section
variable (s : State) (g l : Nat)

/-- The line that a cache holds is what a map of the lines holds. -/
theorem State.line_eq : s.line g l = FMap.get (s.lines.map fun q => (q.1, some q.2)) (lineKey g l) none := by
  unfold State.line
  induction s.lines with
  | nil => rfl
  | cons q r ih =>
    simp only [List.find?_cons, List.map_cons, FMap.get]
    by_cases hq : q.1 = lineKey g l <;> simp [hq, ih]

theorem State.line_congr {s t : State} (h : t.lines = s.lines) (g l : Nat) : t.line g l = s.line g l := by
  rw [State.line, State.line, h]

theorem State.line_setLine (x : Line) (g' l' : Nat) :
    (s.setLine g l x).line g' l' = if lineKey g' l' = lineKey g l then some x else s.line g' l' := by
  rw [State.line_eq, State.line_eq, State.setLine, FMap.map_put]
  split
  · next h => rw [h, FMap.get_put_same]
  · next h => rw [FMap.get_put_other _ _ _ h]

theorem State.line_dropLine (g' l' : Nat) :
    (s.dropLine g l).line g' l' = if lineKey g' l' = lineKey g l then none else s.line g' l' := by
  rw [State.line_eq, State.line_eq, State.dropLine, FMap.map_erase]
  split
  · next h => rw [h, FMap.get_erase_same]
  · next h => rw [FMap.get_erase_other _ _ h]

@[simp] theorem State.line_setLine_same (x : Line) : (s.setLine g l x).line g l = some x := by
  rw [State.line_setLine, if_pos rfl]

@[simp] theorem State.line_dropLine_same : (s.dropLine g l).line g l = none := by
  rw [State.line_dropLine, if_pos rfl]

theorem State.dirEntry_setDir (x : DirEntry) (k : Nat) : (s.setDir l x).dirEntry k = if k = l then x else s.dirEntry k :=
  FMap.get_set ..

theorem State.tracker_setDir (x : DirEntry) (c : Nat) : (s.setDir l x).tracker c = s.tracker c := rfl

@[simp] theorem State.dirEntry_setDir_same (x : DirEntry) : (s.setDir l x).dirEntry l = x := FMap.get_set_same ..

/-- The state that a touched line takes: the one given, but Shared in place of E where the line is watched (R99). -/
theorem LineState.touched_cases (watched : Bool) (st : LineState) :
    let z := if watched && st == .e then LineState.s else st
    z = st ∨ st = .e ∧ z = .s := by
  dsimp only
  split
  · next h => exact .inr ⟨by simpa using (Bool.and_eq_true_iff.mp h).2, rfl⟩
  · exact .inl rfl

theorem State.touchLine_line (st : LineState) :
    ∃ y, (s.touchLine g l st).line g l = some y ∧ (y.st = st ∨ st = .e ∧ y.st = .s) :=
  ⟨_, State.line_setLine_same s g l _, LineState.touched_cases _ st⟩

end

/-! ### FORWARDED_READ and INVALIDATE (R203) -/

section
variable {s : State} {g l : Nat}

theorem State.setLine_frame (s : State) (g l : Nat) (x : Line) : changesOnly [.lines] s (s.setLine g l x) := by
  intro f hf; cases f <;> first | rfl | simp at hf

theorem State.dropLine_frame (s : State) (g l : Nat) : changesOnly [.lines] s (s.dropLine g l) := by
  intro f hf; cases f <;> first | rfl | simp at hf

theorem State.setDir_frame (s : State) (l : Nat) (x : DirEntry) : changesOnly [.directory] s (s.setDir l x) := by
  intro f hf; cases f <;> first | rfl | simp at hf

theorem State.alertWatches_frame (s : State) (g l : Nat) : changesOnly [.masts] s (s.alertWatches g l) := by
  intro f hf; cases f <;> first | rfl | simp at hf

theorem State.countCache_frame (s : State) (g i j : Nat) : changesOnly [.dict] s (s.countCache g i j) :=
  .ite (s.bump_frame _ _ _) (.refl _ s)

theorem State.countCache_registers (s : State) (g i : Nat) {j : Nat} (hj : j < 256) :
    registersBut [(i + g, j)] s (s.countCache g i j) := by
  unfold State.countCache
  split
  · exact s.bump_registers 1 hj
  · exact .refl _ s

/-- A holder in M or E becomes Shared, and the line has no owner. -/
theorem exec_forwardedRead_owner {x : Line} (hx : s.line g l = some x) (hst : x.st = .m ∨ x.st = .e) :
    exec (.forwardedRead g l) s = .next ((s.setLine g l { x with st := .s }).setDir l (s.dirEntry l).shared) := by
  change execForwardedRead g l s = _
  unfold execForwardedRead
  rw [hx]
  obtain hst | hst := hst <;> simp only [hst]

/-- Any other cache stays as it is. -/
theorem exec_forwardedRead_idle (h : ∀ x, s.line g l = some x → x.st ≠ .m ∧ x.st ≠ .e) :
    exec (.forwardedRead g l) s = .next s := by
  change execForwardedRead g l s = _
  unfold execForwardedRead
  cases hx : s.line g l with
  | none => rfl
  | some x =>
    obtain ⟨hm, he⟩ := h x hx
    dsimp only
    split
    · next hst => exact absurd hst hm
    · next hst => exact absurd hst he
    · rfl

/-- The count and the alert of an invalidation, which every cache takes. -/
def State.invalidated (s : State) (g l : Nat) : State := (s.countCache g 0x3200 4).alertWatches g l

/-- A holder that loses its line: it is dropped, and the directory knows. -/
def State.withoutHolder (s : State) (g l : Nat) : State := (s.dropLine g l).setDir l ((s.dirEntry l).without g)

/-- From `s` to `t` cache `g` loses line `l`: it is gone or, where its fill is on the way, still pending. -/
structure State.losesLine (g l : Nat) (s t : State) : Prop where
  frame : changesOnly [.directory, .lines] s t
  line : t.line g l = none ∨ ∃ x a b c, t.line g l = some x ∧ x.st = .pending a b c

theorem State.withoutHolder_loses (s : State) (g l : Nat) : State.losesLine g l s (s.withoutHolder g l) :=
  ⟨((s.dropLine_frame g l).mono (by decide)).trans ((State.setDir_frame _ _ _).mono (by decide)),
    .inl (s.line_dropLine_same g l)⟩

theorem State.setLine_loses (s : State) (g l : Nat) (y : Line) {a b c : Bool} (hy : y.st = .pending a b c) :
    State.losesLine g l s (s.setLine g l y) :=
  ⟨(s.setLine_frame g l y).mono (by decide), .inr ⟨y, a, b, c, s.line_setLine_same g l y, hy⟩⟩

/-- What an invalidation leaves; a prefetched line counts as killed. -/
theorem exec_invalidate (s : State) (g l : Nat) :
    ∃ t u, (t = s.invalidated g l ∨ t = (s.invalidated g l).countCache g 0x3280 4) ∧
      exec (.invalidate g l) s = .next u ∧ State.losesLine g l t u := by
  change ∃ t u, _ ∧ execInvalidate g l s = _ ∧ _
  unfold execInvalidate State.invalidated
  generalize (s.countCache g 0x3200 4).alertWatches g l = t
  dsimp only
  split
  · next hx => exact ⟨t, _, .inl rfl, rfl, (t.setDir_frame _ _).mono (by decide), .inl hx⟩
  · next x hx =>
    split
    · exact ⟨_, _, .inr rfl, rfl, State.withoutHolder_loses _ g l⟩
    · exact ⟨_, _, .inr rfl, rfl, State.setLine_loses _ g l _ rfl⟩
    · exact ⟨_, _, .inl rfl, rfl, State.setLine_loses _ g l _ rfl⟩
    · next a b c _ _ hst => exact ⟨_, _, .inl rfl, rfl, .refl _ _, .inr ⟨x, a, b, c, hx, hst⟩⟩
    · exact ⟨_, _, .inl rfl, rfl, State.withoutHolder_loses _ g l⟩

/-- The counts of an invalidation. -/
theorem State.invalidated_leaves {s t : State} {g l : Nat}
    (ht : t = s.invalidated g l ∨ t = (s.invalidated g l).countCache g 0x3280 4) :
    (g < 16 → counts s t (0x3200 + g) 4 1) ∧ registersBut [(0x3200 + g, 4), (0x3280 + g, 4)] s t ∧ calmAll s t ∧
      changesOnly [.masts, .dict] s t := by
  have halert := State.alertWatches_frame (s.countCache g 0x3200 4) g l
  have hfirst : registersBut [(0x3200 + g, 4)] s (s.invalidated g l) :=
    (s.countCache_registers g _ (by decide)).trans (.of_dict (halert .dict (by decide)))
  have hframe : changesOnly [.masts, .dict] s (s.invalidated g l) :=
    ((s.countCache_frame g _ _).mono (by decide)).trans (halert.mono (by decide))
  have hcalm : calmAll s (s.invalidated g l) :=
    (calmAll.of_masts (s.countCache_frame g _ _ .masts (by decide))).trans (State.alertWatches_calm _ g l)
  have hcounts (hg : g < 16) : counts s (s.invalidated g l) (0x3200 + g) 4 1 := by
    refine counts.of_dict (s.bump_counts (0x3200 + g) 4 1) rfl ?_
    rw [State.invalidated, State.countCache, if_pos hg]
    exact State.alertWatches_frame _ g l .dict (by decide)
  obtain rfl | rfl := ht
  · exact ⟨hcounts, hfirst.mono (by simp), hcalm, hframe⟩
  · have hsecond := (s.invalidated g l).countCache_registers g 0x3280 (j := 4) (by decide)
    have hdict := (s.invalidated g l).countCache_frame g 0x3280 4
    refine ⟨fun hg => ?_, (hfirst.mono (by simp)).trans (hsecond.mono (by simp)),
      hcalm.trans (.of_masts (hdict .masts (by decide))), hframe.trans (hdict.mono (by decide))⟩
    rw [counts, hsecond.val (by decide) (by simp)]
    exact hcounts hg

/-! ### A fill that ends the transaction of a line (R203 to R208) -/

/-- With nothing in the queue the transaction ends with the entry. -/
theorem State.endTransaction_alone (s : State) (l : Nat) {x : DirEntry} (h : x.waiting = []) :
    s.endTransaction l x = s.setDir l { x with busy := none } := by
  unfold State.endTransaction
  rw [h]
  unfold State.serveNext
  rw [State.dirEntry_setDir_same]

/-- The requester holds the line in the state of its fill, and the transaction ends; a write that waits for ownership gets M
from the fill itself, or none waits. -/
theorem State.fillLine_eq (s : State) (g l : Nat) (st : LineState) (x : DirEntry)
    (hown : st = .m ∨ ∀ y, s.line g l = some y → y.own = false) :
    s.fillLine g l st x = ((s.lineRoom g l).touchLine g l st).endTransaction l x := by
  unfold State.fillLine
  obtain rfl | hown := hown
  · simp [show (LineState.m == LineState.e) = false from rfl, show (LineState.m == LineState.s) = false from rfl]
  · cases hy : s.line g l with
    | none => simp
    | some y => simp [hown y hy]

/-- With nothing in the queue the requester then holds the line, and the line's entry is the one given. -/
theorem State.fillLine_alone (s : State) (g l : Nat) (st : LineState) {x : DirEntry} (h : x.waiting = [])
    (hown : st = .m ∨ ∀ y, s.line g l = some y → y.own = false) :
    let u := s.fillLine g l st x
    u.dirEntry l = { x with busy := none } ∧ ∃ y, u.line g l = some y ∧ (y.st = st ∨ st = .e ∧ y.st = .s) := by
  dsimp only
  rw [State.fillLine_eq s g l st x hown, State.endTransaction_alone _ l h]
  exact ⟨State.dirEntry_setDir_same .., State.touchLine_line (s.lineRoom g l) g l st⟩

theorem DirEntry.withHolder_presence (x : DirEntry) (own : Bool) : bitOf (x.withHolder g own).presence g = true :=
  testBit_setBit_true ..

theorem State.fill_atHome {q : LineReq} {op : HomeOp} (h : q.ask = .atHome op) :
    s.fill l q = s.endTransaction l (s.dirEntry l) := by
  simp only [State.fill, h]

section
variable {q : LineReq} (hq : q.agent = g)
include hq

theorem State.fill_own (h : q.ask = .own ∨ q.ask = .ownWhole) :
    s.fill l q = s.fillLine g l .m ((s.dirEntry l).withHolder g true) := by
  subst hq
  obtain h | h := h <;> simp only [State.fill, h]

variable {y : Line} (h : q.ask = .read ∨ q.ask = .prefetch) (hy : s.line g l = some y)
include h hy

/-- A fill that was killed, and that no demand used, is discarded. -/
theorem State.fill_killed {p : Bool} (hst : y.st = .pending p true false) :
    s.fill l q = (s.dropLine g l).endTransaction l (s.dirEntry l) := by
  subst hq
  obtain ⟨st, stamp, poison, waits, own, watched⟩ := y
  subst hst
  obtain h | h := h <;> simp only [State.fill, h, hy] <;> rfl

/-- Any other fill leaves the line with the requester, in F where only a prefetch asked for it. -/
theorem State.fill_live {p used : Bool} (hst : y.st = .pending p false used) :
    ∃ st own, (st = .e ∨ st = .s ∨ st = .f) ∧ (y.st = .pending true false false → st = .f) ∧
      s.fill l q = s.fillLine g l st ((s.dirEntry l).withHolder g own) := by
  subst hq
  obtain ⟨st, stamp, poison, waits, own, watched⟩ := y
  subst hst
  cases p <;> cases used
  case true.false => exact ⟨.f, false, by simp, fun _ => rfl, by obtain h | h := h <;> simp only [State.fill, h, hy]⟩
  all_goals
    let alone : Bool := ((s.dirEntry l).without q.agent).presence == 0
    refine ⟨if alone then .e else .s, alone, by cases alone <;> simp, by simp, ?_⟩
    obtain h | h := h <;> simp only [State.fill, h, hy] <;> rfl

end

/-- No transaction and no request stands at the home of line `l`. -/
def State.lineFree (s : State) (l : Nat) : Prop := (s.dirEntry l).busy = none ∧ (s.dirEntry l).waiting = []

theorem State.lineFree_of_entry {u : State} {x : DirEntry} (h : u.dirEntry l = { x with busy := none }) (hx : x.waiting = []) :
    u.lineFree l := by
  unfold State.lineFree
  rw [h]
  exact ⟨rfl, hx⟩

section
variable {q : LineReq} (hq : q.agent = g) (hwait : (s.dirEntry l).waiting = [])
include hwait

/-- A request that was served at the home leaves the caches as they are. -/
theorem State.fill_atHome_leaves {op : HomeOp} (hask : q.ask = .atHome op) :
    (s.fill l q).lineFree l ∧ (s.fill l q).lines = s.lines := by
  rw [State.fill_atHome hask, State.endTransaction_alone _ l hwait]
  exact ⟨State.lineFree_of_entry (State.dirEntry_setDir_same ..) hwait, rfl⟩

include hq

/-- An ownership leaves the line in M. -/
theorem State.fill_own_leaves (hask : q.ask = .own ∨ q.ask = .ownWhole) :
    (s.fill l q).lineFree l ∧ ∃ y, (s.fill l q).line g l = some y ∧ y.st = .m := by
  rw [State.fill_own hq hask]
  obtain ⟨hentry, y, hline, hy⟩ := s.fillLine_alone g l .m (x := (s.dirEntry l).withHolder g true) hwait (.inl rfl)
  exact ⟨State.lineFree_of_entry hentry hwait, y, hline, by simpa using hy⟩

variable {y : Line} (hask : q.ask = .read ∨ q.ask = .prefetch) (hy : s.line g l = some y)
include hask hy

/-- A fill that was killed leaves nothing. -/
theorem State.fill_killed_leaves {p : Bool} (hst : y.st = .pending p true false) :
    (s.fill l q).lineFree l ∧ (s.fill l q).line g l = none := by
  rw [State.fill_killed hq hask hy hst, State.endTransaction_alone _ l hwait]
  exact ⟨State.lineFree_of_entry (State.dirEntry_setDir_same ..) hwait, s.line_dropLine_same g l⟩

/-- A read or prefetch leaves the requester a holder: in F for a prefetch that no demand asked for. -/
theorem State.fill_live_leaves {p used : Bool} (hst : y.st = .pending p false used) (hown : y.own = false) :
    (s.fill l q).lineFree l ∧ bitOf ((s.fill l q).dirEntry l).presence g = true ∧
      ∃ z, (s.fill l q).line g l = some z ∧ (z.st = .e ∨ z.st = .s ∨ z.st = .f) ∧
        (y.st = .pending true false false → z.st = .f) := by
  obtain ⟨st, own, hholds, hpref, hfill⟩ := State.fill_live hq hask hy hst
  have hnone (y' : Line) (hy' : s.line g l = some y') : y'.own = false := by
    rw [hy] at hy'; cases hy'; exact hown
  rw [hfill]
  obtain ⟨hentry, z, hline, hz⟩ :=
    s.fillLine_alone g l st (x := (s.dirEntry l).withHolder g own) hwait (.inr hnone)
  refine ⟨State.lineFree_of_entry hentry hwait, ?_, z, hline, ?_, fun hst => ?_⟩
  · rw [hentry]
    exact DirEntry.withHolder_presence (s.dirEntry l) own
  · obtain hz | ⟨-, hz⟩ := hz
    · rwa [hz]
    · exact .inr (.inl hz)
  · obtain rfl := hpref hst
    simpa using hz

end

/-- Where its data is there, the transaction of the line ends at the cache that asked. -/
theorem exec_fillArrival {q : LineReq} (hbusy : (s.dirEntry l).busy = some q) (hq : q.agent = g)
    (hready : s.fillReady l q = true) (hremote : s.remote = []) :
    exec (.fillArrival g l) s = .next (s.fill l q) ∧ s.stirs [] false (s.fill l q) := by
  have hstirs : s.stirs [] false (s.fill l q) := by simp
  refine ⟨?_, hstirs⟩
  change execFillArrival g l s = _
  rw [execFillArrival, hbusy]
  dsimp only
  rw [hready, hq, beq_self_eq_true, State.serveRemotes_nil ((hstirs.frame .remote (by decide)).trans hremote)]
  rfl

end

/-! ### Room in the directory (R205) -/

/-- From `s` to `t` room is made for the entry of line `l`: other lines are recalled, no cache gets a line that it did not
hold, and below 3200h no object changes. -/
structure State.makesRoom (l : Nat) (s t : State) : Prop where
  frame : changesOnly [.free, .masts, .lines, .directory, .dict] s t
  entry : t.dirEntry l = s.dirEntry l
  absent : ∀ g k, s.line g k = none → t.line g k = none
  objects : ∀ i j, i < 0x3200 → j < 256 → t.obj i j = s.obj i j

section
variable {l : Nat} {s t u : State}

theorem State.makesRoom.refl (l : Nat) (s : State) : s.makesRoom l s :=
  ⟨.refl _ s, rfl, fun _ _ => id, fun _ _ _ _ => rfl⟩

theorem State.makesRoom.trans (h : s.makesRoom l t) (h' : t.makesRoom l u) : s.makesRoom l u :=
  ⟨h.frame.trans h'.frame, h'.entry.trans h.entry, fun g k hk => h'.absent g k (h.absent g k hk),
    fun i j hi hj => (h'.objects i j hi hj).trans (h.objects i j hi hj)⟩

/-- An operation that leaves lines, directory and dictionary. -/
theorem State.makesRoom.of_frame (h : changesOnly [.free, .masts] s t) : s.makesRoom l t :=
  ⟨h.mono (by decide), by rw [State.dirEntry, h .directory (by decide)]; rfl,
    fun g k hk => (State.line_congr (h .lines (by decide)) g k).trans hk,
    fun i j _ _ => by rw [State.obj, State.obj, h .dict (by decide)]⟩

/-- A register of the cache counters. -/
theorem State.makesRoom.of_registers {i j : Nat} (hi : 0x3200 ≤ i) (h : registersBut [(i, j)] s t)
    (hframe : changesOnly [.dict] s t) : s.makesRoom l t :=
  ⟨hframe.mono (by decide), by rw [State.dirEntry, hframe .directory (by decide)]; rfl,
    fun g k hk => (State.line_congr (hframe .lines (by decide)) g k).trans hk, fun k m hk hm => h k m hm (by simp; omega)⟩

/-- Recalls that follow one another. -/
theorem State.makesRoom.foldl {β : Type} {f : State → β → State} (hf : ∀ (s : State) b, s.makesRoom l (f s b))
    (bs : List β) (s : State) : s.makesRoom l (bs.foldl f s) := by
  induction bs generalizing s with
  | nil => exact .refl l s
  | cons b bs ih => exact (hf s b).trans (ih (f s b))

end

section
variable (s : State) (g k l : Nat)

theorem State.countCache_makesRoom {i j : Nat} (hi : 0x3200 ≤ i) (hj : j < 256) : s.makesRoom l (s.countCache g i j) :=
  .of_registers (by omega) (s.countCache_registers g i hj) (s.countCache_frame g i j)

theorem State.dropLine_makesRoom : s.makesRoom l (s.dropLine g k) := by
  refine ⟨(s.dropLine_frame g k).mono (by decide), rfl, fun g' k' h => ?_, fun i j _ _ => rfl⟩
  rw [State.line_dropLine, h, ite_self]

/-- A line that stands in a cache may change there. -/
theorem State.setLine_makesRoom {x : Line} (hx : s.line g k = some x) (y : Line) : s.makesRoom l (s.setLine g k y) := by
  refine ⟨(s.setLine_frame g k y).mono (by decide), rfl, fun g' k' h => ?_, fun i j _ _ => rfl⟩
  rw [State.line_setLine, if_neg, h]
  intro hkey
  rw [State.line_eq, hkey, ← State.line_eq, hx] at h
  cases h

theorem State.setDir_makesRoom {k l : Nat} (hk : k ≠ l) (x : DirEntry) : s.makesRoom l (s.setDir k x) :=
  ⟨(s.setDir_frame k x).mono (by decide), by rw [State.dirEntry_setDir, if_neg hk.symm], fun _ _ => id, fun _ _ _ _ => rfl⟩

theorem State.recallHolder_makesRoom : s.makesRoom l (s.recallHolder g k) := by
  unfold State.recallHolder
  refine (State.makesRoom.of_frame ((s.alertWatches_frame g k).mono (by decide))).trans ?_
  generalize s.alertWatches g k = t
  have killed : t.makesRoom l (t.countCache g 0x3280 4) := t.countCache_makesRoom g l (by decide) (by decide)
  dsimp only
  split
  · exact .refl l t
  · next x hx =>
    split
    · exact (t.countCache_makesRoom g l (by decide) (by decide)).trans (State.dropLine_makesRoom _ g k l)
    · exact killed.trans (State.dropLine_makesRoom _ g k l)
    · refine killed.trans (State.setLine_makesRoom _ g k l (x := x) ?_ _)
      exact (State.line_congr (t.countCache_frame g 0x3280 4 .lines (by decide)) g k).trans hx
    · exact t.setLine_makesRoom g k l hx _
    · exact .refl l t
    · exact t.dropLine_makesRoom g k l

theorem State.recall_makesRoom {k l : Nat} (hk : k ≠ l) (home keep : Nat) : s.makesRoom l (s.recall home keep k) := by
  unfold State.recall
  dsimp only
  split
  · exact .refl l s
  · have hbump : s.makesRoom l (s.bump (0x3200 + home) 5 1) :=
      .of_registers (by omega) (s.bump_registers 1 (by decide)) (s.bump_frame _ _ _)
    exact (hbump.trans (.foldl (fun t g => t.recallHolder_makesRoom g k l) _ _)).trans (State.setDir_makesRoom _ hk _)

/-- An open choice among the members of a list. -/
theorem getD_mod_length_mem {α : Type} {xs : List α} (h : xs ≠ []) (k : Nat) (d : α) : xs.getD (k % xs.length) d ∈ xs := by
  have hlt : k % xs.length < xs.length := Nat.mod_lt _ (List.length_pos_iff.mpr h)
  rw [List.getD_eq_getElem _ _ hlt]
  exact List.getElem_mem hlt

theorem State.tracker_congr {s t : State} (h : t.trackers = s.trackers) (c : Nat) : t.tracker c = s.tracker c := by
  rw [State.tracker, State.tracker, h]

/-- What the refusal of a demand looks at. -/
theorem State.refusal_congr {s t : State} (htrackers : t.trackers = s.trackers) (hcap : t.val 0x3180 1 = s.val 0x3180 1)
    (c who n : Nat) : t.refusal c who n = s.refusal c who n := by
  have huse : t.trackerUse (c / 128) = s.trackerUse (c / 128) := by
    rw [State.trackerUse, htrackers, ← State.trackerUse]
  unfold State.refusal
  rw [State.tracker_congr htrackers, hcap, huse]

/-- A request moves no line to another pseudo-channel. -/
theorem State.stirs.lineChannel {s t : State} (h : s.stirs [] true t) (l : Nat) : t.lineChannel l = s.lineChannel l := by
  simp only [State.lineChannel, State.channel, h.placing]

/-- The directory evicts the entry of another line, or none. -/
theorem State.dirRoom_makesRoom : s.makesRoom l (s.dirRoom l) := by
  unfold State.dirRoom
  split
  · exact .refl l s
  · next hlisted =>
    dsimp only
    split
    · exact .refl l s
    · next hfree =>
      simp only [Bool.or_eq_true, List.isEmpty_iff, not_or] at hfree
      have hother : ∀ e ∈ s.directory, e.1 ≠ l := fun e he hel =>
        hlisted (List.any_eq_true.mpr ⟨e, he, by simpa using hel⟩)
      have hvictim := hother _ (List.mem_of_mem_filter (List.mem_of_mem_filter
        (getD_mod_length_mem hfree.2 (s.open 32).1 (0, {}))))
      exact (State.makesRoom.of_frame ((s.open_frame 32).mono (by decide))).trans
        ((State.recall_makesRoom _ hvictim _ _).trans (State.setDir_makesRoom _ hvictim _))

/-- Room is made only for a line without an entry. -/
theorem State.dirRoom_busy (h : (s.dirEntry l).busy.isSome = true) : s.dirRoom l = s := by
  refine if_pos ?_
  rw [← Bool.not_eq_false]
  intro hnone
  have habsent : ∀ e ∈ s.directory, e.1 ≠ l := by simpa using hnone
  rw [State.dirEntry, FMap.get_of_forall_ne habsent] at h
  cases h

end

/-! ### A request that its cache sends to the home (R205, R206, R209, R211) -/

section
variable (s : State) (c g l : Nat) (q : LineReq)

theorem State.received_frame (halves : List Nat) : changesOnly [.hot] s (s.received c halves) := by
  intro f hf; cases f <;> first | rfl | simp at hf

theorem State.noteUse_frame : changesOnly [.dict] s (s.noteUse c) :=
  .ite ((State.setVal_frame _ _ _ _).trans (State.setVal_frame _ _ _ _)) (State.setVal_frame _ _ _ _)

theorem State.takeEntries_frame (pref read : Bool) :
    changesOnly [.trackers, .hot, .dict] s (s.takeEntries c q pref read) :=
  (((State.setTracker_frame s c _).mono (by decide)).trans ((State.received_frame _ c _).mono (by decide))).trans
    ((State.noteUse_frame _ c).mono (by decide))

theorem State.refuseEntry_lines (why : Nat) : (s.refuseEntry c l q why).lines = s.lines := by
  unfold State.refuseEntry
  exact State.postLimited_frame _ c msTicks _ .lines (by decide)

/-- Each half takes an entry. -/
theorem State.takeEntries_order (pref read : Bool) : ((s.takeEntries c q pref read).tracker c).order =
    (s.tracker c).order ++ q.halves.map fun h => { half := h, who := q.who, pref := pref, read := read, since := s.tick } := by
  have hcounts (t : State) : ((t.received c q.halves).noteUse c).trackers = t.trackers :=
    (State.noteUse_frame _ c .trackers (by decide)).trans (State.received_frame t c _ .trackers (by decide))
  unfold State.takeEntries
  rw [State.tracker, hcounts, ← State.tracker, State.tracker_setTracker, if_pos rfl]

/-- A write-back gives no cache a line. -/
theorem State.sendLine_writeback {g l : Nat} (h : s.line g l = none) (l' g' who : Nat) (halves : List Nat) :
    (s.sendLine l' g' .writeback who halves).line g l = none := by
  unfold State.sendLine
  dsimp only
  split
  · exact h
  · unfold State.reach
    dsimp only
    have hroom := (State.dirRoom_makesRoom { s with uses := s.uses + 1 } l').absent g l h
    generalize State.dirRoom { s with uses := s.uses + 1 } l' = t at hroom ⊢
    split
    · exact hroom
    · unfold State.serveLine
      dsimp only
      split
      · exact (State.line_congr (t.refuseEntry_lines _ _ _ _) g l).trans hroom
      · exact (State.line_congr (t.takeEntries_frame _ _ _ _ .lines (by decide)) g l).trans hroom

/-- A cache that replaces a line holds it no longer (R202). -/
theorem State.evictLine_line (st : LineState) : (s.evictLine g l st).line g l = none := by
  unfold State.evictLine
  have hdrop : ((((s.setDir l ((s.dirEntry l).without g)).dropLine g l).alertWatches g l)).line g l = none :=
    State.line_dropLine_same _ g l
  generalize (((s.setDir l ((s.dirEntry l).without g)).dropLine g l).alertWatches g l) = t at hdrop ⊢
  have hcount (i j : Nat) : (t.countCache g i j).line g l = none :=
    (State.line_congr (t.countCache_frame g i j .lines (by decide)) g l).trans hdrop
  dsimp only
  split
  · exact State.sendLine_writeback _ (hcount _ _) ..
  · exact hcount _ _
  · exact hdrop

/-- A request to a line in a transaction waits at the end of its queue (R206). -/
theorem State.reach_busy (h : (s.dirEntry l).busy.isSome = true) :
    s.reach l q = s.setDir l { s.dirEntry l with waiting := (s.dirEntry l).waiting ++ [q] } := by
  unfold State.reach
  rw [s.dirRoom_busy l h]
  exact if_pos h

/-- A read of a line that no cache holds goes to the memory controller. -/
theorem State.serveLine_read (hentry : s.dirEntry l = {}) (hask : q.ask = .read)
    (hroom : s.refusal (s.lineChannel l) q.who q.halves.length = none) :
    let t := s.takeEntries (s.lineChannel l) q false true
    s.serveLine l q = t.setDir l { t.dirEntry l with busy := some q } := by
  unfold State.serveLine
  dsimp only
  rw [hask, hentry, hroom]
  simp [bitOf]

/-- What such a read leaves once it has reached the home: it is the line's transaction, and its halves hold entries. -/
theorem State.reach_read (hentry : s.dirEntry l = {}) (hask : q.ask = .read)
    (hroom : s.refusal (s.lineChannel l) q.who q.halves.length = none) :
    let u := s.reach l q
    u.dirEntry l = { busy := some q } ∧ (u.tracker (s.lineChannel l)).order = (s.tracker (s.lineChannel l)).order ++
      q.halves.map fun h => { half := h, who := q.who, pref := false, read := true, since := s.tick } := by
  have hmade := s.dirRoom_makesRoom l
  have hstirs : s.stirs [] true (s.dirRoom l) := by simp
  unfold State.reach
  dsimp only
  generalize s.dirRoom l = t at hmade hstirs ⊢
  have hchannel := hstirs.lineChannel l
  have htrackers : t.trackers = s.trackers := hmade.frame .trackers (by decide)
  have htick : t.tick = s.tick := hmade.frame .tick (by decide)
  have hentry' : t.dirEntry l = {} := hmade.entry.trans hentry
  rw [← hchannel, ← State.refusal_congr htrackers (congrArg Octets.bits (hmade.objects _ _ (by decide) (by decide)))] at hroom
  rw [hentry', if_neg (by decide), State.serveLine_read t l q hentry' hask hroom, State.dirEntry_setDir_same]
  have hdirectory := t.takeEntries_frame (t.lineChannel l) q false true .directory (by decide)
  refine ⟨?_, ?_⟩
  · rw [State.dirEntry, hdirectory, ← State.dirEntry, hentry']
  · have horder := t.takeEntries_order (t.lineChannel l) q false true
    rw [hchannel, htick, State.tracker_congr htrackers] at horder
    rw [State.tracker_setDir, hchannel, horder]

/-- The limits of R211 and R276 leave the requests that a cache makes on its own account. -/
theorem State.overLimit_cacheWho (hg : g < 18) (n : Nat) : s.overLimit (cacheWho g) n l = false := by
  have htrim : trimUnitOf (cacheWho g) = none := if_neg (by unfold cacheWho; omega)
  have hlarge : ¬cacheWho g < 3145728 := by unfold cacheWho; omega
  unfold State.overLimit
  rw [htrim]
  simp [hlarge]

/-- The state once a request has taken its age stamp (R211). -/
def State.stamped (s : State) : State := { s with uses := s.uses + 1 }

/-- Such a request goes to its home where the cache holds none back. -/
theorem State.sendLine_cacheWho (hg : g < 18) (hheld : ∀ e ∈ s.heldReqs, e.2.who ≠ cacheWho g) (ask : LineAsk)
    (halves : List Nat) : s.sendLine l g ask (cacheWho g) halves = s.stamped.reach l
      { agent := g, ask := ask, who := cacheWho g, stamp := s.uses, halves := halves } := by
  have hnone : (s.heldReqs.any fun e => decide (e.2.who = cacheWho g)) = false := by simpa using hheld
  unfold State.sendLine
  refine if_neg fun ⟨_, h⟩ => ?_
  rw [State.overLimit_cacheWho _ g l hg] at h
  simp [hnone] at h

section
variable {s g l} (hheld : ∀ e ∈ s.heldReqs, ¬(e.1 = l ∧ e.2.agent = g))
include hheld

/-- A cache that holds no request for the line has none to send again. -/
theorem resend_none (ask : LineAsk) :
    (s.heldReqs.find? fun e => e.1 = l && e.2.agent = g && e.2.ask = ask && s.mayResend l e.2) = none := by
  simp only [List.find?_eq_none]
  intro e he h
  simp only [Bool.and_eq_true, decide_eq_true_eq] at h
  obtain ⟨⟨⟨hl, hagent⟩, -⟩, -⟩ := h
  exact hheld e he ⟨hl, hagent⟩

/-- A cache that replaces a line tells the home, or writes it back. -/
theorem exec_directoryRequest_replaces (hg : g < 18) {ask : LineAsk} {st : Option LineState}
    (hst : (s.line g l).map Line.st = st)
    (h : ask = .evict ∧ (st = some .e ∨ st = some .s ∨ st = some .f) ∨ ask = .writeback ∧ st = some .m) :
    ∃ z, exec (.directoryRequest g l ask) s = .next (s.evictLine g l z) := by
  change ∃ z, execDirectoryRequest g l ask s = _
  unfold execDirectoryRequest
  rw [if_neg (by omega), resend_none hheld, hst]
  obtain ⟨rfl, rfl | rfl | rfl⟩ | ⟨rfl, rfl⟩ := h <;> exact ⟨_, rfl⟩

/-- A cache that asks for a line on its own account sends its request. -/
theorem exec_directoryRequest_asks (hg : g < 18) {ask : LineAsk} (he : ask ≠ .evict) (hw : ask ≠ .writeback)
    (hp : ask ≠ .prefetch) : exec (.directoryRequest g l ask) s = .next (s.sendLine l g ask (cacheWho g) (lineHalves l)) := by
  have hnone : (s.heldReqs.any fun e => e.1 = l && e.2.agent = g) = false := by simpa using hheld
  change execDirectoryRequest g l ask s = _
  unfold execDirectoryRequest
  rw [if_neg (by omega), resend_none hheld, hnone]
  cases ask with
  | evict => exact absurd rfl he
  | writeback => exact absurd rfl hw
  | prefetch => exact absurd rfl hp
  | _ => rfl

/-- A request to a line in a transaction is put at the end of its queue. -/
theorem directoryRequest_waits (hg : g < 18) (hwho : ∀ e ∈ s.heldReqs, e.2.who ≠ cacheWho g) {ask : LineAsk}
    (he : ask ≠ .evict) (hw : ask ≠ .writeback) (hp : ask ≠ .prefetch) (hbusy : (s.dirEntry l).busy.isSome = true) :
    ∃ u, exec (.directoryRequest g l ask) s = .next u ∧ u.dirEntry l = { s.dirEntry l with
      waiting := (s.dirEntry l).waiting ++
        [{ agent := g, ask := ask, who := cacheWho g, stamp := s.uses, halves := lineHalves l }] } := by
  refine ⟨_, exec_directoryRequest_asks hheld hg he hw hp, ?_⟩
  rw [State.sendLine_cacheWho s g l hg hwho, s.stamped.reach_busy l _ hbusy, State.dirEntry_setDir_same]
  rfl

/-- A read of a line without an entry is its transaction, and takes two tracker entries. -/
theorem directoryRequest_reads (hg : g < 18) (hwho : ∀ e ∈ s.heldReqs, e.2.who ≠ cacheWho g) (hentry : s.dirEntry l = {})
    (hroom : s.refusal (s.lineChannel l) (cacheWho g) 2 = none) :
    ∃ u, exec (.directoryRequest g l .read) s = .next u ∧
      u.dirEntry l = { busy := some { agent := g, ask := .read, who := cacheWho g, stamp := s.uses, halves := lineHalves l } } ∧
      (u.tracker (s.lineChannel l)).order = (s.tracker (s.lineChannel l)).order ++ (lineHalves l).map fun h =>
        { half := h, who := cacheWho g, pref := false, read := true, since := s.tick } := by
  refine ⟨_, exec_directoryRequest_asks hheld hg (by decide) (by decide) (by decide), ?_⟩
  have hchannel : s.stamped.lineChannel l = s.lineChannel l :=
    State.stirs.lineChannel (s := s) (t := s.stamped) (by simp [State.stamped]) l
  have htrackers : s.stamped.trackers = s.trackers := rfl
  rw [← hchannel, ← State.refusal_congr htrackers rfl] at hroom
  rw [State.sendLine_cacheWho s g l hg hwho, ← hchannel, ← State.tracker_congr htrackers]
  exact s.stamped.reach_read l _ hentry rfl hroom

end

end

/-- Settles O26: the protocol stirs no byte (`State.stirs`), and each command by what it leaves of the line. -/
theorem coherenceKeepsData : Obligations.CoherenceKeepsData := by
  refine ⟨fun s g l ask hg => ⟨?calm, fun hheld h => ?replaces, fun hheld he hw hp hbusy => ?waits,
    fun hheld hask hentry hroom => ?read⟩, fun s g l q hbusy hq hready hremote => ?fill,
    fun s g l => ⟨?forward, ?invalidate⟩⟩
  case calm =>
    obtain ⟨u, hu, hstirs⟩ := exec_directoryRequest_stirs s l g ask
    exact ⟨u, hu, hstirs.calm, hstirs.frame⟩
  case replaces =>
    obtain ⟨z, hz⟩ := exec_directoryRequest_replaces hheld hg rfl h
    exact ⟨_, hz, s.evictLine_line g l z⟩
  case waits =>
    exact directoryRequest_waits (fun e h => (hheld e h).1) hg (fun e h => (hheld e h).2) he hw hp hbusy
  case read =>
    subst hask
    rw [hentry]
    exact directoryRequest_reads (fun e h => (hheld e h).1) hg (fun e h => (hheld e h).2) hentry hroom
  case fill =>
    obtain ⟨hexec, hstirs⟩ := exec_fillArrival hbusy hq hready hremote
    refine ⟨_, hexec, hstirs.calm, hstirs.frame, fun hask hwait => ?_, fun y hask hwait hy hpending hkilled hown => ?_,
      fun y p hask hwait hy hst => ?_, fun op hask hwait => ?_⟩
    · exact (State.fill_own_leaves hq hwait hask).imp_left fun h _ => h
    · obtain ⟨p, k, d, hst⟩ := hpending
      obtain rfl : k = false := Bool.eq_false_iff.mpr fun hk => hkilled ⟨p, d, hk ▸ hst⟩
      exact (State.fill_live_leaves hq hwait hask hy hst hown).imp_left fun h _ => h
    · exact (State.fill_killed_leaves hq hwait hask hy hst).imp_left fun h _ => h
    · exact (State.fill_atHome_leaves hwait hask).imp_left fun h _ => h
  case forward =>
    by_cases h : ∃ x, s.line g l = some x ∧ (x.st = .m ∨ x.st = .e)
    · obtain ⟨x, hx, hst⟩ := h
      have same {x' : Line} (hx' : s.line g l = some x') : x' = x := Option.some.inj (hx'.symm.trans hx)
      refine ⟨_, exec_forwardedRead_owner hx hst, fun x' hx' _ => same hx' ▸ ⟨s.line_setLine_same g l _, ?_⟩,
        fun x' hx' hm he => absurd (same hx' ▸ hst) (not_or.mpr ⟨hm, he⟩), fun hnone => ?_, ?_⟩
      · rw [State.dirEntry_setDir_same]; rfl
      · rw [hx] at hnone; cases hnone
      · exact ((s.setLine_frame g l _).mono (by decide)).trans ((State.setDir_frame _ l _).mono (by decide))
    · have hidle (x : Line) (hx : s.line g l = some x) : x.st ≠ .m ∧ x.st ≠ .e :=
        not_or.mp fun hst => h ⟨x, hx, hst⟩
      exact ⟨s, exec_forwardedRead_idle hidle, fun x hx hst => absurd ⟨x, hx, hst⟩ h, fun _ _ _ _ => rfl, fun _ => rfl,
        .refl _ s⟩
  case invalidate =>
    obtain ⟨t, u, ht, hexec, hframe, hline⟩ := exec_invalidate s g l
    obtain ⟨hcounts, hregs, hcalm, hbefore⟩ := State.invalidated_leaves ht
    have hdict := hframe .dict (by decide)
    exact ⟨u, hexec, hline, fun hg => (hcounts hg).of_dict rfl hdict, hregs.trans (.of_dict hdict),
      hcalm.trans (.of_masts (hframe .masts (by decide))), (hbefore.mono (by decide)).trans (hframe.mono (by decide))⟩

end Sys2Proof.Machine

/-! SUPPORT. What the engines of a base die, the trim unit and the work of a collective plan leave as it was (O28, O29).

An engine's access is a request that `stirs`; what counts besides it stands in `s.stirsBut fs ks t`: of the objects from 3300h on
only those in `ks` change. Each operation of a plan has one lemma that says what it `stirs` of `workPieces`, in the order of the
model's files, as an equation that `simp` peels an operation's body by. -/

namespace Sys2Proof.Machine

-- One proof at a time: each waits for the lemmas that it rewrites by.
set_option Elab.async false

/-! ### Requests, and objects that count -/

/-- From `s` to `t` requests were made, and of the objects from 3300h on only those in `ks` changed. -/
structure State.stirsBut (fs : List Piece) (ks : List (Nat × Nat)) (s t : State) : Prop where
  stirs : s.stirs fs false t
  registers : ∀ i j, 0x3300 ≤ i → j < 256 → (i, j) ∉ ks → t.obj i j = s.obj i j

section
variable {fs : List Piece} {ks : List (Nat × Nat)} {s t u : State}

theorem State.stirsBut.refl (s : State) : s.stirsBut fs ks s := ⟨s.stirs_refl, fun _ _ _ _ _ => rfl⟩

theorem State.stirsBut.trans (h : s.stirsBut fs ks t) (h' : t.stirsBut fs ks u) : s.stirsBut fs ks u :=
  ⟨h.stirs.trans h'.stirs, fun i j hi hj hk => (h'.registers i j hi hj hk).trans (h.registers i j hi hj hk)⟩

/-- A request alone. -/
theorem State.stirs.but (h : s.stirs fs true t) : s.stirsBut fs ks t :=
  ⟨h.mono (List.Subset.refl _) nofun, fun i j hi _ _ => h.objects rfl i j hi⟩

theorem State.stirsBut.ite {c : Prop} [Decidable c] (ht : s.stirsBut fs ks t) (hu : s.stirsBut fs ks u) :
    s.stirsBut fs ks (if c then t else u) := by
  split <;> assumption

theorem State.setVal_but (s : State) {i j : Nat} (v : Nat) (hj : j < 256) (hk : (i, j) ∈ ks) :
    s.stirsBut fs ks (s.setVal i j v) := by
  refine ⟨⟨(s.setVal_frame i j v).mono fun f hf => ?_, calmAll.of_masts rfl, nofun⟩, fun k l _ hl hkl => ?_⟩
  · obtain rfl := List.mem_singleton.mp hf
    exact List.mem_append_right _ (by decide)
  · exact s.setVal_registers v hj k l hl fun hm => hkl (List.mem_singleton.mp hm ▸ hk)

theorem State.bump_but (s : State) {i j : Nat} (n : Nat) (hj : j < 256) (hk : (i, j) ∈ ks) :
    s.stirsBut fs ks (s.bump i j n) := s.setVal_but _ hj hk

theorem State.foldl_but {β : Type} {f : State → β → State} (hf : ∀ (s : State) b, s.stirsBut fs ks (f s b)) (l : List β)
    (s : State) : s.stirsBut fs ks (l.foldl f s) := by
  induction l generalizing s with
  | nil => exact .refl s
  | cons b l ih => exact (hf s b).trans (ih (f s b))

theorem State.forRange_but {f : Nat → State → State} (hf : ∀ i (s : State), s.stirsBut fs ks (f i s)) (n : Nat) (s : State) :
    s.stirsBut fs ks (forRange n s f) := State.foldl_but (fun s i => hf i s) _ s

theorem State.stirsBut.mono {gs : List Piece} {ls : List (Nat × Nat)} (h : s.stirsBut fs ks t) (hs : fs ⊆ gs) (hk : ks ⊆ ls) :
    s.stirsBut gs ls t :=
  ⟨h.stirs.mono hs nofun, fun i j hi hj hl => h.registers i j hi hj fun hm => hl (hk hm)⟩

theorem State.stirsBut.val (h : s.stirsBut fs ks t) {i j : Nat} (hi : 0x3300 ≤ i) (hj : j < 256) (hk : (i, j) ∉ ks) :
    t.val i j = s.val i j := congrArg Octets.bits (h.registers i j hi hj hk)

/-- A count after requests that leave its object. -/
theorem State.stirsBut.counts (h : s.stirsBut fs ks t) {i j : Nat} (n : Nat) (hi : 0x3300 ≤ i) (hj : j < 256)
    (hk : (i, j) ∉ ks) : counts s (t.bump i j n) i j n :=
  (t.bump_counts i j n).trans (by rw [h.val hi hj hk])

/-- A count, and then requests that leave its object. -/
theorem counts.stirsBut {i j n : Nat} (hc : counts s t i j n) (h : t.stirsBut fs ks u) (hi : 0x3300 ≤ i)
    (hj : j < 256) (hk : (i, j) ∉ ks) : counts s u i j n := (h.val hi hj hk).trans hc

end

/-! ### The engines of a base die (R206, R207, R472) -/

section
variable {fs : List Piece} {strict : Bool} {ρ : State}
variable (s : State) (who a n v : Nat)

@[simp ↓] theorem State.setVal_loose (i j : Nat) : State.Stirred fs false ρ s (s.setVal i j v) := by
  refine State.stirred_of ⟨(s.setVal_frame i j v).mono fun f hf => ?_, calmAll.of_masts rfl, nofun⟩
  obtain rfl := List.mem_singleton.mp hf
  exact List.mem_append_right _ (by decide)

@[simp ↓] theorem State.engineValue_stirred : State.Stirred fs strict ρ s (s.engineValue a n).2 :=
  State.stirred_of (by simp [State.engineValue])

@[simp ↓] theorem State.engineLoad_stirred : State.Stirred fs strict ρ s (s.engineLoad who a n).2 :=
  State.stirred_of (by simp [State.engineLoad])

@[simp ↓] theorem State.engineRead_stirred : State.Stirred fs strict ρ s (s.engineRead who a n).2 :=
  State.stirred_of (by simp [State.engineRead])

variable (hm : Piece.mem ∈ fs) (hp : Piece.poisoned ∈ fs)
include hm hp

@[simp ↓] theorem State.engineKeep_stirred : State.Stirred fs strict ρ s (s.engineKeep a n v) :=
  State.stirred_of (by simp [State.engineKeep, hm, hp])

@[simp ↓] theorem State.engineStore_stirred : State.Stirred fs strict ρ s (s.engineStore who a n v) :=
  State.stirred_of (by simp [State.engineStore, hm, hp])

end

theorem mem_pieces {a n fuel : Nat} {e : Nat × Nat} (h : e ∈ pieces a n fuel) : a ≤ e.1 ∧ e.1 + e.2 ≤ a + n := by
  induction fuel generalizing a n with
  | zero => cases h
  | succ fuel ih =>
    rw [pieces] at h
    split at h
    · cases h
    · rcases List.mem_cons.mp h with rfl | h
      · exact ⟨Nat.le_refl a, by dsimp only; omega⟩
      · have := ih h
        omega

/-- A write by an engine leaves the bytes outside its range. -/
theorem State.engineStore_byte (s : State) (who a n v : Nat) {b : Nat} (hb : b < a ∨ a + n ≤ b) :
    (s.engineStore who a n v).byte b = s.byte b := by
  refine List.foldlRecOn (motive := fun t : State => t.byte b = s.byte b) _ _ rfl fun t ht e he => ?_
  have hrange : a ≤ e.1 ∧ e.1 + e.2 ≤ a + n := mem_pieces he
  have hasked : t.stirs [] true (t.accessHome who .write e.1 e.2) := by simp
  rw [← ht, ← hasked.byte b]
  dsimp only [State.engineKeep]
  split
  · rfl
  · rw [State.store_byte, if_neg (by omega)]

theorem State.load_congr {s t : State} {a n : Nat} (h : ∀ b, a ≤ b → b < a + n → t.byte b = s.byte b) :
    t.load a n = s.load a n := FMap.readLE_congr h

/-! ### The lantern counts (R250 to R254) -/

section
variable {fs : List Piece} {strict : Bool} {ρ : State}
variable (hm : Piece.mem ∈ fs) (hp : Piece.poisoned ∈ fs)
include hm hp

@[simp ↓] theorem State.countInto_stirred (s : State) (die p a n : Nat) (most : Bool) :
    State.Stirred fs strict ρ s (s.countInto die p a n most) := State.stirred_of (by simp [State.countInto, hm, hp])

@[simp ↓] theorem State.flushCount_stirred (s : State) (key n : Nat) : State.Stirred fs strict ρ s (s.flushCount key n) := by
  refine State.stirred_of ?_
  unfold State.flushCount; dsimp only; split <;> simp [hm, hp]

end

/-- The counters that the values of a partition add to (Table 7.7). -/
def valueCounts (p : Nat) : List (Nat × Nat) := (List.range 8).map fun j => (0x6100 + p, j)

theorem mem_valueCounts (p : Nat) {j : Nat} (hj : j < 8) : (0x6100 + p, j) ∈ valueCounts p :=
  List.mem_map.mpr ⟨j, List.mem_range.mpr hj, rfl⟩

/-- The pieces that counting values changes besides those of a request. -/
def countPieces : List Piece := [.lantern, .mem, .poisoned]

theorem State.countValue_but (s : State) (die p tag fmt : Nat) (w : Written) :
    s.stirsBut countPieces (valueCounts p) (s.countValue die (some p) tag fmt w) := by
  have hbump (t : State) {j : Nat} (hj : j < 8) : t.stirsBut countPieces (valueCounts p) (t.bump (0x6100 + p) j 1) :=
    t.bump_but 1 (by omega) (mem_valueCounts p hj)
  have hadd (t : State) (key n : Nat) : t.stirsBut countPieces (valueCounts p) (t.lanternAdd key n) :=
    State.stirs.but (by simp [countPieces])
  have houtside : s.stirsBut countPieces (valueCounts p) (if (s.tagFor p tag).2 = true then s.bump (0x6100 + p) 7 1 else s) :=
    .ite (hbump s (by decide)) (.refl s)
  unfold State.countValue
  dsimp only
  generalize (if (s.tagFor p tag).2 = true then s.bump (0x6100 + p) 7 1 else s) = t at houtside ⊢
  refine .trans (houtside.trans ?_) (State.foldl_but (fun t k => ?_) _ _)
  · split
    · exact State.stirs.but (by simp [countPieces])
    · exact .refl _
  · split
    · exact (hadd t _ 1).trans (hbump _ (by omega))
    · exact hadd t _ 1

theorem State.countAll_but (s : State) (die p tag fmt : Nat) (ws : List Written) :
    s.stirsBut countPieces (valueCounts p) (s.countAll die (some p) tag fmt ws) :=
  State.foldl_but (fun t w => t.countValue_but die p tag fmt w) ws s

/-! ### The trim unit (R246, R261 to R272) -/

section
variable {fs : List Piece} {strict : Bool} {ρ : State}
variable (s : State) (who : Nat)

@[simp ↓] theorem State.trimFetch_stirred (spans : List (Nat × Nat) × List (Nat × Nat)) :
    State.Stirred fs strict ρ s (s.trimFetch who spans) := State.stirred_of (by simp [State.trimFetch])

@[simp ↓] theorem State.trimOne_stirred (hm : Piece.mem ∈ fs) (hp : Piece.poisoned ∈ fs) (x : Trim) (f : TrimFactors)
    (pl : TrimPlace) (keep : Nat) : State.Stirred fs strict ρ s (s.trimOne x f pl keep).2 :=
  State.stirred_of (by simp [State.trimOne, hm, hp])

@[simp ↓] theorem State.setTrim_stirred (ht : Piece.trims ∈ fs) (p e : Nat) (x : Trim) :
    State.Stirred fs strict ρ s (s.setTrim p e x) :=
  State.stirred_of_frame (gs := [.trims]) (fun f hf => by cases f <;> first | rfl | simp at hf)
    (List.subset_append_of_subset_left _ (by simp [ht]))

end

/-- The counters of die `d` that the elements and rows of an update add to (R263, R267). -/
def elementCounts (d : Nat) : List (Nat × Nat) := [2, 6, 7, 8, 9, 0xA].map fun j => (0x6350 + d, j)

section
variable {fs : List Piece} (hm : Piece.mem ∈ fs) (hp : Piece.poisoned ∈ fs)

theorem State.countTrim_but (s : State) (d : Nat) (e : TrimElem) : s.stirsBut fs (elementCounts d) (s.countTrim d e) := by
  have hadd (t : State) {j : Nat} (n : Nat) (hj : j ∈ [2, 6, 7, 8, 9, 0xA]) :
      t.stirsBut fs (elementCounts d) (if n = 0 then t else t.bump (0x6350 + d) j n) := by
    refine .ite (.refl t) (t.bump_but n ?_ (List.mem_map.mpr ⟨j, hj, rfl⟩))
    revert j; decide
  exact ((((hadd s _ (by decide)).trans (hadd _ _ (by decide))).trans (hadd _ _ (by decide))).trans
    (hadd _ _ (by decide))).trans (hadd _ _ (by decide))

include hm hp

theorem State.trimSpan_but (s : State) (who : Nat) (x : Trim) (f : TrimFactors) (d slotAddr first n g j0 : Nat) :
    s.stirsBut fs (elementCounts d) (s.trimSpan who x f d slotAddr first n g j0 false) := by
  have hfetch (spans : List (Nat × Nat) × List (Nat × Nat)) : s.stirs fs true (s.trimFetch who spans) := by simp
  have hone (t : State) (pl : TrimPlace) : t.stirs fs true (t.trimOne x f pl 0).2 := by simp [hm, hp]
  exact (hfetch _).but.trans (State.forRange_but (fun i t => (hone t _).but.trans (State.countTrim_but _ d _)) n _)

/-- An update reads and writes the arrays of its entry, and counts (R261, R266, R267). -/
theorem State.trimRun_but (s : State) (p e : Nat) (x : Trim) :
    s.stirsBut fs (elementCounts (trimDie x.words)) (s.trimRun p e x false) := by
  unfold State.trimRun
  dsimp only
  refine .ite (State.trimSpan_but hm hp ..) (State.foldl_but (fun t b => ?_) _ _)
  have hstore (t : State) (who a v : Nat) : t.stirs fs true (t.engineStore who a 8 v) := by simp [hm, hp]
  rw [if_neg Bool.false_ne_true]
  exact ((State.trimSpan_but hm hp ..).trans (hstore ..).but).trans
    (State.bump_but _ 1 (by decide) (List.mem_map.mpr ⟨2, by decide, rfl⟩))

end

/-! ### Collective plans: the pieces that their work changes -/

/-- The pieces that the work of a plan changes besides those of a request. -/
def workPieces : List Piece :=
  [.mem, .poisoned] ++ portPieces ++ [.grad, .panes, .trims, .parts, .lantern, .silent, .plans, .holds, .holdNum]

@[simp] theorem mem_mem_workPieces : Piece.mem ∈ workPieces := by decide
@[simp] theorem poisoned_mem_workPieces : Piece.poisoned ∈ workPieces := by decide
@[simp] theorem lantern_mem_workPieces : Piece.lantern ∈ workPieces := by decide
@[simp] theorem trims_mem_workPieces : Piece.trims ∈ workPieces := by decide

/-- What the work of a plan may have done from `ρ` to `s`, it may have done from `ρ` to `t`. -/
@[reducible] def State.Worked (ρ s t : State) : Prop := State.Stirred workPieces false ρ s t

theorem State.stirs.planFrame {s t : State} (h : s.stirs workPieces false t) : changesOnly planPieces s t :=
  h.frame.mono (by decide)

theorem State.forRange_stirs {fs : List Piece} {strict : Bool} {f : Nat → State → State}
    (hf : ∀ i (s : State), s.stirs fs strict (f i s)) (n : Nat) (s : State) : s.stirs fs strict (forRange n s f) :=
  State.foldl_stirs (fun s i => hf i s) _ s

theorem State.stirs.ite {fs : List Piece} {strict : Bool} {s t u : State} {c : Prop} [Decidable c] (ht : s.stirs fs strict t)
    (hu : s.stirs fs strict u) : s.stirs fs strict (if c then t else u) := by
  split <;> assumption

section
variable {ρ s : State}

/-- An update of these pieces. -/
@[simp ↓] theorem State.mk_worked
    {free draws outbox mem poisoned grad panes trims parts lines uses directory trackers streams heldReqs hot lantern silent
     rings limits plans holds holdNum sent sentNum ports} :
    State.Worked ρ s
    (State.mk s.pending s.tick free draws outbox s.ident mem poisoned grad panes trims s.masts parts lines uses
      directory trackers streams s.openRows heldReqs hot s.hotSince s.hbm lantern silent s.dict s.snaps s.snapRing
      s.writes rings limits s.sessions s.stagers s.commits s.commitNum s.deferred s.accepted plans holds holdNum sent
      sentNum ports s.heard s.remote s.remoteNum s.rats s.flows s.bondSince s.coreLoads s.mailSlots s.mailbox s.peerMail
      s.resets s.grants s.domains s.power s.fw s.mgmtRate s.mgmtSince s.i3cAddr s.ibien s.hellos s.carve) :=
  State.stirred_of_frame (gs := [.free, .draws, .outbox, .mem, .poisoned, .grad, .panes, .trims, .parts, .lines, .uses,
      .directory, .trackers, .streams, .heldReqs, .hot, .lantern, .silent, .rings, .limits, .plans, .holds, .holdNum, .sent,
      .sentNum, .ports])
    (fun f hf => by cases f <;> first | rfl | simp at hf) (by decide)

/-- The state that an operation leaves, where it leaves one. -/
def State.worksIn (s : State) (o : Option State) : Prop := ∀ t ∈ o, s.stirs workPieces false t

@[simp] theorem State.worksIn_none (s : State) : s.worksIn none := by simp [State.worksIn]

@[simp] theorem State.worksIn_some (s t : State) : s.worksIn (some t) ↔ s.stirs workPieces false t := by
  simp [State.worksIn]

end

/-! ### Collective plans: their operations (R357 to R387) -/

section
variable {ρ : State}
variable (s : State) (k i d p n port j src dst cause half index : Nat) (h : PlanHead) (x : Phase) (c : Chunk)
  (ms dies : List Nat) (backup : Bool) (q : HeldChunk)

@[simp ↓] theorem State.sendTo_worked (vc mark : Nat) (msg : Octets) : State.Worked ρ s (s.sendTo vc dst mark msg) :=
  State.stirred_of_frame (s.sendTo_sends vc dst mark msg) (by decide)

@[simp ↓] theorem State.freeCredit_worked (vc cls : Nat) : State.Worked ρ s (s.freeCredit p vc cls n) :=
  State.stirred_of_frame (s.freeCredit_sends p vc cls n) (by decide)

@[simp ↓] theorem State.trimChunk_worked (e step fmt : Nat) (poison : Bool) :
    State.Worked ρ s (s.trimChunk p e step fmt k poison) := by
  refine State.stirred_of ?_
  unfold State.trimChunk; dsimp only; split <;> simp

@[simp ↓] theorem State.setPlan_worked (y : Plan) : State.Worked ρ s (s.setPlan k y) :=
  State.stirred_of (by simp [State.setPlan])

@[simp ↓] theorem State.setPoison_worked : State.Worked ρ s (s.setPoison p cause d) :=
  State.stirred_of (by simp [State.setPoison, State.setPart])

@[simp ↓] theorem State.sendChunk_worked (resend : Bool) : State.Worked ρ s (s.sendChunk k h dst resend c) :=
  State.stirred_of (by simp [State.sendChunk])

@[simp ↓] theorem State.release_worked (ws : List Written) : State.Worked ρ s (s.release k d h x ws) :=
  State.stirred_of (by simp [State.release])

@[simp ↓] theorem State.takeMemory_worked : State.Worked ρ s (s.takeMemory k d h x) :=
  State.stirred_of (by simp [State.takeMemory])

@[simp ↓] theorem State.drainPane_worked : State.Worked ρ s (s.drainPane k i d h x) :=
  State.stirred_of (by simp [State.drainPane, State.setPane])

@[simp ↓] theorem State.startPane_worked : State.Worked ρ s (s.startPane k i d h x) :=
  State.stirred_of (by simp [State.startPane, State.setPane])

@[simp ↓] theorem State.takeReferences_worked (rec slot : Nat) (up : Bool) :
    State.Worked ρ s (s.takeReferences k rec slot n up) := State.stirred_of (by simp [State.takeReferences])

@[simp ↓] theorem State.takeShard_worked : State.Worked ρ s (s.takeShard k i x n) :=
  State.stirred_of (by simp [State.takeShard])

@[simp ↓] theorem State.land_worked (res off real v : Nat) : State.Worked ρ s (s.land k h x res d off real v c) :=
  State.stirred_of (by simp [State.land])

@[simp ↓] theorem State.useLocal_worked : State.Worked ρ s (s.useLocal k h x d i half index backup) :=
  State.stirred_of (by simp [State.useLocal])

@[simp ↓] theorem State.compareCopies_worked (cidx : Nat) (mine theirs : Chunk) :
    State.Worked ρ s (s.compareCopies k i port h cidx mine theirs) := State.stirred_of (by simp [State.compareCopies])

@[simp ↓] theorem State.startRing_worked : State.Worked ρ s (s.startRing k i h x ms j d) := by
  refine State.stirred_of ?_
  unfold State.startRing
  refine State.foldl_stirs (fun t half => ?_) _ _
  dsimp only
  split
  · simp
  · split
    case h_5 =>
      refine State.forRange_stirs (fun n t => ?_) _ _
      split
      · simp
      · split <;> simp
    all_goals simp

@[simp ↓] theorem State.sendAll_worked : State.Worked ρ s (s.sendAll k i h x ms j) := State.stirred_of (by simp [State.sendAll])

@[simp ↓] theorem State.compareEarly_worked : State.Worked ρ s (s.compareEarly k i d h x) := by
  refine State.stirred_of ?_
  unfold State.compareEarly
  refine State.foldl_stirs (fun t e => State.foldl_stirs (fun u b => ?_) _ _) _ _
  dsimp only
  split
  · split <;> simp
  · simp

@[simp ↓] theorem State.startDie_worked : State.Worked ρ s (s.startDie k i h x ms j d) := by
  refine State.stirred_of ?_
  unfold State.startDie; split <;> simp

@[simp ↓] theorem State.checkVersion_worked : State.Worked ρ s (s.checkVersion k i d h x c) :=
  State.stirred_of (by simp [State.checkVersion])

@[simp ↓] theorem State.holdChunk_worked : State.Worked ρ s (s.holdChunk q n) := State.stirred_of (by simp [State.holdChunk])

@[simp] theorem State.takeInside_worksIn : s.worksIn (s.takeInside k i h x dies c) := by
  unfold State.takeInside; split <;> simp

@[simp ↓] theorem State.sendInside_worked (b : Nat) (dsts : List Nat) :
    State.Worked ρ s (s.sendInside k i h x dies b half dsts) := by
  refine State.stirred_of ?_
  unfold State.sendInside
  dsimp only
  refine State.stirs.trans ?_ (State.forRange_stirs (fun n t => State.foldl_stirs (fun u d => ?_) _ _) _ _)
  · simp
  · split
    · next hu => exact State.takeInside_worksIn _ _ _ _ _ _ _ _ hu
    · simp

@[simp ↓] theorem State.allInside_worked : State.Worked ρ s (s.allInside k h x dies) := by
  refine State.stirred_of (.ite s.stirs_refl (State.forRange_stirs (fun r t => State.forRange_stirs (fun q u => ?_) _ _) _ _))
  simp

@[simp ↓] theorem State.runInside_worked : State.Worked ρ s (s.runInside k i h x dies) :=
  State.stirred_of (by simp [State.runInside])

@[simp ↓] theorem State.startInside_worked : State.Worked ρ s (s.startInside k i h x) :=
  State.stirred_of (by simp [State.startInside])

@[simp ↓] theorem State.readBackup_worked : State.Worked ρ s (s.readBackup k i h x) :=
  State.stirred_of (by simp [State.readBackup])

@[simp ↓] theorem State.sendCopies_worked (e : BackupEntry) : State.Worked ρ s (s.sendCopies k i h x e dies) := by
  refine State.stirred_of ?_
  unfold State.sendCopies
  refine State.foldl_stirs (fun t d => State.foldl_stirs (fun t half => ?_) _ _) _ _
  refine State.forRange_stirs (fun b t => State.forRange_stirs (fun n t => ?_) _ _) _ _
  split <;> simp

@[simp ↓] theorem State.sendBackup_worked (e : BackupEntry) : State.Worked ρ s (s.sendBackup k i h x e) :=
  State.stirred_of (by simp [State.sendBackup])

@[simp ↓] theorem State.discardChunk_worked (part : Nat) : State.Worked ρ s (s.discardChunk port src part cause) :=
  State.stirred_of (by simp [State.discardChunk])

@[simp ↓] theorem State.payloadOf_worked : State.Worked ρ s (s.payloadOf c n).2 :=
  State.stirred_of (by simp [State.payloadOf])

@[simp ↓] theorem State.takeGather_worked : State.Worked ρ s (s.takeGather k i port h x ms j c) :=
  State.stirred_of (by simp [State.takeGather])

@[simp ↓] theorem State.takeBlock_worked : State.Worked ρ s (s.takeBlock k x h c) :=
  State.stirred_of (by simp [State.takeBlock])

@[simp ↓] theorem State.passSum_worked (die : Nat) (poison lost : Bool) (bytes : Octets) :
    State.Worked ρ s (s.passSum k i h x dst j half die index poison lost bytes) := by
  refine State.stirred_of ?_
  unfold State.passSum; dsimp only; (repeat' split) <;> simp

@[simp ↓] theorem State.takeSum_worked (own : Nat) (ownBad : Bool) :
    State.Worked ρ s (s.takeSum k i h x ms j c own ownBad backup) := State.stirred_of (by simp [State.takeSum])

@[simp ↓] theorem State.takeContribution_worked : State.Worked ρ s (s.takeContribution k i port h x ms j c) := by
  refine State.stirred_of ?_
  unfold State.takeContribution
  dsimp only
  refine .ite (State.stirs.trans ?_ (State.foldl_stirs (fun t b => .ite ?_ ?_) _ _)) (by simp)
  · simp
  · split <;> simp
  · simp

@[simp ↓] theorem State.notePoison_worked : State.Worked ρ s (s.notePoison port h c) :=
  State.stirred_of (by simp [State.notePoison])

@[simp] theorem State.processChunk_worksIn : s.worksIn (s.processChunk k i port h x ms j c) := by
  unfold State.processChunk; dsimp only; (repeat' split) <;> simp

@[simp] theorem State.tryChunk_worksIn : s.worksIn (s.tryChunk q) := by
  unfold State.tryChunk; dsimp only; (repeat' split) <;> simp

@[simp ↓] theorem State.freeChunk_worked : State.Worked ρ s (s.freeChunk q) := by
  refine State.stirred_of ?_
  unfold State.freeChunk; dsimp only; split <;> simp [State.setPort]

@[simp ↓] theorem State.takeHeld_worked : State.Worked ρ s s.takeHeld := by
  refine State.stirred_of ?_
  unfold State.takeHeld
  refine State.foldl_stirs (fun t e => ?_) _ _
  split
  · next hu => exact State.stirs.trans (by simp) ((State.tryChunk_worksIn _ _ _ hu).trans (by simp))
  · simp

@[simp ↓] theorem State.startSources_worked : State.Worked ρ s (s.startSources k i h x) := by
  refine State.stirred_of ?_
  unfold State.startSources; dsimp only; (repeat' split) <;> simp

@[simp ↓] theorem State.resumeShards_worked : State.Worked ρ s s.resumeShards :=
  State.stirred_of (by simp [State.resumeShards])

end

end Sys2Proof.Machine

/-! SUPPORT. Panes that drained, the flush of the lantern counts, and the held starts of drains (O28). -/

namespace Sys2Proof.Machine

-- One proof at a time: each waits for the lemmas that it rewrites by.
set_option Elab.async false

/-! ### Drained panes (R240, R241) -/

theorem paneKey_inj {p d k q e j : Nat} (hd : d < 16) (hk : k < 2) (he : e < 16) (hj : j < 2)
    (h : paneKey q e j = paneKey p d k) : (q, e, j) = (p, d, k) := by
  unfold paneKey at h
  simp only [Prod.mk.injEq]
  omega

/-- A pane put back leaves the others. -/
theorem State.pane_setPane_other (s : State) {p d k q e j : Nat} (y : Pane) (hd : d < 16) (hk : k < 2) (he : e < 16) (hj : j < 2)
    (h : (q, e, j) ≠ (p, d, k)) : (s.setPane p d k y).pane q e j = s.pane q e j :=
  FMap.get_set_other _ _ _ _ fun hkey => h (paneKey_inj hd hk he hj hkey)

theorem State.setPane_frame (s : State) (p d k : Nat) (y : Pane) : changesOnly [.panes] s (s.setPane p d k y) := by
  intro f hf; cases f <;> first | rfl | simp at hf

theorem State.setGrad_frame (s : State) (g : FMap Byte) : changesOnly [.grad] s { s with grad := g } := by
  intro f hf; cases f <;> first | rfl | simp at hf

theorem exec_paneDrainEnd {s : State} {d p k : Nat} (hd : d < 16) (hp : p < 16) (hk : k < 2)
    (hdraining : (s.pane p d k).draining = true) :
    let b := (s.paneSpan p d k).1
    let n := (s.paneSpan p d k).2
    exec (.paneDrainEnd d p k) s =
      .next ({ s with grad := FMap.clearRange s.grad (gradKey d b) (gradKey d (b + n)) }.setPane p d k
        { s.pane p d k with st := .empty }) := by
  change execPaneDrainEnd d p k s = _
  simp [execPaneDrainEnd, hd, hp, hk, hdraining]

/-! ### LANTERN_FLUSH (R254) -/

/-- A map of which only the keys that satisfy `p` are left. -/
theorem FMap.get_filter_key {α : Type} (m : FMap α) (p : Nat → Bool) (k : Nat) (d : α) :
    FMap.get (m.filter fun e => p e.1) k d = if p k = true then FMap.get m k d else d := by
  induction m with
  | nil => simp
  | cons e m ih =>
    by_cases hk : e.1 = k
    · subst hk
      by_cases hp : p e.1 = true <;> simp_all [FMap.get]
    · by_cases hp : p e.1 = true <;> simp_all [FMap.get]

/-- The local counts of die `d` are added into the records. -/
def State.flushed (s : State) (d : Nat) : State :=
  (s.lantern.filter fun e => e.1 / 83886080 = d).foldl (fun s e => s.flushCount e.1 e.2) s

theorem State.flushed_stirs (s : State) (d : Nat) : s.stirs [.mem, .poisoned] true (s.flushed d) :=
  State.foldl_stirs (fun t e => by simp) _ s

theorem exec_lanternFlush {d : Nat} (hd : d < 16) (s : State) : exec (.lanternFlush d) s =
    .next { s.flushed d with lantern := (s.flushed d).lantern.filter fun e => e.1 / 83886080 != d } :=
  if_neg (Nat.not_le.mpr hd)

/-! ### A drain that starts (R240, R241) -/

/-- The fields of slot `k` that report its step and state. -/
def planStatus (k : Nat) : List (Nat × Nat) := [(0x5000 + k, 3), (0x5000 + k, 4)]

/-- The pieces that a release of values changes besides those of a request. -/
def releasePieces : List Piece := .plans :: countPieces

theorem State.setPlan_but (s : State) (k : Nat) (y : Plan) {ks : List (Nat × Nat)} (hk : planStatus k ⊆ ks) :
    s.stirsBut releasePieces ks (s.setPlan k y) := by
  have hplans : s.stirs releasePieces true { s with plans := FMap.set s.plans k {} y } :=
    ⟨fun f hf => by cases f <;> first | rfl | exact absurd hf (by decide), calmAll.of_masts rfl, fun _ _ _ _ => rfl⟩
  exact (hplans.but.trans (State.setVal_but _ _ (by decide) (hk (by simp [planStatus])))).trans
    (State.setVal_but _ _ (by decide) (hk (by simp [planStatus])))

/-- The objects that the release of a plan's values changes. -/
def releaseCounts (k p : Nat) : List (Nat × Nat) := planStatus k ++ valueCounts p

theorem State.release_but (s : State) (k d : Nat) (h : PlanHead) (x : Phase) (ws : List Written) :
    s.stirsBut releasePieces (releaseCounts k h.part) (s.release k d h x ws) :=
  ((s.countAll_but d h.part x.ttag h.gf ws).mono (List.subset_cons_self _ _) (List.subset_append_right _ _)).trans
    (State.setPlan_but _ k _ (List.subset_append_left _ _))

/-- The pane of a phase is Draining, and the bytes that it drains are zero and counted. -/
def State.drained (s : State) (k i d : Nat) (h : PlanHead) (x : Phase) : State :=
  let base := (s.paneSpan h.part d x.pane).1
  ({ s with grad := FMap.clearRange s.grad (gradKey d base) (gradKey d (base + 4 * x.count)) }.setPane h.part d x.pane
    { s.pane h.part d x.pane with st := .draining k i }).bump (0x3600 + d) 2 x.count

/-- A drain then releases its values, which the plan keeps. -/
theorem State.drainPane_eq (s : State) (k i d : Nat) (h : PlanHead) (x : Phase) : ∃ ws y,
    s.drainPane k i d h x = ((s.drained k i d h x).release k d h x ws).setPlan k y := ⟨_, _, rfl⟩

theorem State.drainPane_but (s : State) (k i d : Nat) (h : PlanHead) (x : Phase) :
    (s.drained k i d h x).stirsBut releasePieces (releaseCounts k h.part) (s.drainPane k i d h x) := by
  obtain ⟨ws, y, he⟩ := s.drainPane_eq k i d h x
  exact he ▸ (State.release_but _ k d h x ws).trans (State.setPlan_but _ k y (List.subset_append_left _ _))

theorem State.drained_frame (s : State) (k i d : Nat) (h : PlanHead) (x : Phase) :
    changesOnly [.grad, .panes, .dict] s (s.drained k i d h x) :=
  (((s.setGrad_frame _).mono (by decide)).trans ((State.setPane_frame _ _ _ _ _).mono (by decide))).trans
    ((State.bump_frame _ _ _ _).mono (by decide))

theorem State.drained_pane (s : State) (k i d : Nat) (h : PlanHead) (x : Phase) :
    (s.drained k i d h x).pane h.part d x.pane = { s.pane h.part d x.pane with st := .draining k i } := by
  simp [State.drained, State.pane, State.setPane]

theorem State.drained_counts (s : State) (k i d : Nat) (h : PlanHead) (x : Phase) :
    counts s (s.drained k i d h x) (0x3600 + d) 2 x.count := State.bump_counts ..

/-- What a drain that starts leaves: its pane Draining, the bytes zero and counted. -/
theorem State.drainPane_leaves (s : State) (k i : Nat) {d : Nat} (hd : d < 16) (h : PlanHead) (x : Phase) :
    let base := (s.paneSpan h.part d x.pane).1
    let u := s.drainPane k i d h x
    (u.pane h.part d x.pane).st = .draining k i ∧
      (∀ a, FMap.get u.grad a 0#8 = if gradKey d base ≤ a ∧ a < gradKey d (base + 4 * x.count) then 0#8
        else FMap.get s.grad a 0#8) ∧
      counts s u (0x3600 + d) 2 x.count ∧ calmAll s u ∧
      changesOnly ([.grad, .panes, .lantern, .plans] ++ writePieces) s u := by
  intro base u
  have hrest : (s.drained k i d h x).stirsBut releasePieces (releaseCounts k h.part) u := s.drainPane_but k i d h x
  have hpanes : u.panes = (s.drained k i d h x).panes := hrest.stirs.frame .panes (by decide)
  have hgrad : u.grad = (s.drained k i d h x).grad := hrest.stirs.frame .grad (by decide)
  have hnot : (0x3600 + d, 2) ∉ releaseCounts k h.part := by
    simp [releaseCounts, planStatus, valueCounts]
    omega
  refine ⟨?_, fun a => ?_, ?_, calmAll.trans (calmAll.of_masts rfl) hrest.stirs.calm, ?_⟩
  · have hpane : u.pane h.part d x.pane = (s.drained k i d h x).pane h.part d x.pane := by rw [State.pane, hpanes]; rfl
    rw [hpane, s.drained_pane]
  · rw [hgrad]
    exact FMap.get_clearRange ..
  · exact (s.drained_counts k i d h x).stirsBut hrest (by omega) (by decide) hnot
  · exact ((s.drained_frame k i d h x).mono (by decide)).trans (hrest.stirs.frame.mono (by decide))

/-! ### HELD_DRAIN_START (R240) -/

section
variable {s : State} {d p k slot i : Nat} {rest : List (Nat × Nat)} (hheld : (s.pane p d k).held = (slot, i) :: rest)
include hheld

theorem exec_heldDrainStart_stirs : ∃ u, exec (.heldDrainStart d p k) s = .next u ∧ s.stirs workPieces false u := by
  change ∃ u, execHeldDrainStart d p k s = .next u ∧ _
  unfold execHeldDrainStart
  dsimp only
  rw [hheld]
  dsimp only
  cases (s.pane p d k).draining with
  | true => exact ⟨s, rfl, s.stirs_refl⟩
  | false =>
    simp only [Bool.not_false, guardEvent_true]
    (repeat' split) <;> exact ⟨_, rfl, by simp [State.setPane]⟩

variable (hidle : (s.pane p d k).draining = false)
include hidle

/-- A start whose phase is over leaves the list, and no more. -/
theorem exec_heldDrainStart_over (hover : (s.plan slot).st ≠ 3 ∨ (s.plan slot).phase ≠ i) :
    exec (.heldDrainStart d p k) s = .next (s.setPane p d k { s.pane p d k with held := rest }) := by
  change execHeldDrainStart d p k s = _
  unfold execHeldDrainStart
  dsimp only
  rw [hheld]
  dsimp only
  rw [hidle, Bool.not_false, guardEvent_true]
  exact if_pos hover

/-- Within the package a drain waits until every member's values are there. -/
theorem exec_heldDrainStart_waits (hst : (s.plan slot).st = 3) (hphase : (s.plan slot).phase = i)
    (haxis : (s.phase slot i).axis = 0) :
    let u := (s.setPane p d k { s.pane p d k with held := rest }).drainPane slot i d (s.head slot) (s.phase slot i)
    u.insideReady slot (s.phase slot i) (maskDies (s.phase slot i).mask) = false →
    exec (.heldDrainStart d p k) s = .next u := by
  intro u hwaits
  have hgoes : ¬((s.plan slot).st ≠ 3 ∨ (s.plan slot).phase ≠ i) := by simp [hst, hphase]
  change execHeldDrainStart d p k s = _
  unfold execHeldDrainStart
  dsimp only
  rw [hheld]
  dsimp only
  rw [hidle, Bool.not_false, guardEvent_true]
  refine (if_neg hgoes).trans ((if_pos haxis).trans (if_neg ?_))
  exact Bool.eq_false_iff.mp hwaits

end

/-- Settles O28: a drained pane is emptied, a flush leaves no local count of its die, and a held start is dropped or drains. -/
theorem trainingEvents : Obligations.TrainingEvents := by
  intro s d p k hd hp hk b n y
  refine ⟨fun hdraining => ⟨_, exec_paneDrainEnd hd hp hk hdraining, ?_, fun a => ?_, fun q e j _ he hj hne => ?_, ?_⟩,
    ⟨_, exec_lanternFlush hd s, fun key => ?_, ?_, ?_⟩, ?held⟩
  · exact State.pane_setPane_same _ _ _ _ _
  · exact FMap.get_clearRange ..
  · exact State.pane_setPane_other _ _ hd hk he hj hne
  · exact ((s.setGrad_frame _).mono (by decide)).trans ((State.setPane_frame _ _ _ _ _).mono (by decide))
  · have hlantern : (s.flushed d).lantern = s.lantern := (s.flushed_stirs d).frame .lantern (by decide)
    dsimp only
    rw [FMap.get_filter_key _ (fun k => k / 83886080 != d), hlantern]
    by_cases hkey : key / 83886080 = d <;> simp [hkey]
  · exact (s.flushed_stirs d).calm
  · refine ((s.flushed_stirs d).frame.mono (by decide)).trans fun f hf => ?_
    cases f <;> first | rfl | exact absurd hf (by decide)
  case held =>
    intro slot i rest hheld hidle popped h x base
    refine ⟨fun hover => exec_heldDrainStart_over hheld hidle hover,
      (exec_heldDrainStart_stirs hheld).imp fun u hu => ⟨hu.1, hu.2.planFrame⟩, fun hst hphase haxis hwaits => ?_⟩
    obtain ⟨hpane, hgrad, hcounts, hcalm, hframe⟩ := popped.drainPane_leaves slot i hd h x
    have hpopped : changesOnly [.panes] s popped := s.setPane_frame p d k _
    exact ⟨_, exec_heldDrainStart_waits hheld hidle hst hphase haxis hwaits, hpane, hgrad, hcounts, hcalm,
      (hpopped.mono (by decide)).trans hframe⟩

end Sys2Proof.Machine

/-! SUPPORT. The sequencer of the trim unit: checks, entries that are held, and updates that end (O29). -/

namespace Sys2Proof.Machine

-- One proof at a time: each waits for the lemmas that it rewrites by.
set_option Elab.async false

/-! ### TRIM_CHECK and TRIM_HELD_RECHECK (R246, R279) -/

theorem FMap.readLE_lt (m : FMap Byte) (a n : Nat) : FMap.readLE m a n < 256 ^ n := by
  induction n generalizing a with
  | zero => exact Nat.one_pos
  | succ n ih =>
    have hbyte : (FMap.get m a 0#8).toNat < 256 := BitVec.isLt _
    have hrest := ih (a + 1)
    rw [FMap.readLE, Nat.pow_succ']
    omega

/-- A bit that is clear is set by addition. -/
theorem setBit_true_of_clear {w i : Nat} (h : w % 2 ^ (i + 1) = 0) : setBit w i true = w + 2 ^ i := by
  have hclear : w.testBit i = false := by
    simpa [h] using (Nat.testBit_mod_two_pow w (i + 1) i).symm
  simp [setBit, hclear]

theorem State.setTrim_frame (s : State) (p e : Nat) (x : Trim) : changesOnly [.trims] s (s.setTrim p e x) := by
  intro f hf; cases f <;> first | rfl | simp at hf

theorem State.load_setTrim (s : State) (p e : Nat) (x : Trim) (a n : Nat) : (s.setTrim p e x).load a n = s.load a n := rfl

theorem State.byte_setTrim (s : State) (p e : Nat) (x : Trim) (b : Nat) : (s.setTrim p e x).byte b = s.byte b := rfl

theorem State.load_bump (s : State) (i j k a n : Nat) : (s.bump i j k).load a n = s.load a n := rfl

/-- The word of the slot that an entry in Checking is to write (Table 7.4). -/
def State.targetWord (s : State) (p e : Nat) : Nat :=
  trimRecord (s.trim p e).words + 8 * s.targetSlot (trimRecord (s.trim p e).words)

/-- An entry that runs: WRITING of its target slot is set in an atomic step at the home. -/
def State.trimStarts (s : State) (d p e : Nat) : State :=
  let a := s.targetWord p e
  ((s.homeAtomic (trimWho d p e) a).store a 8 (setBit (s.load a 8) 31 true)).setTrim p e
    { s.trim p e with st := .running, slot := s.targetSlot (trimRecord (s.trim p e).words) }

/-- An entry that is held, of which nothing is counted yet. -/
def State.trimHolds (s : State) (d p e : Nat) : State :=
  (s.homeAtomic (trimWho d p e) (s.targetWord p e)).setTrim p e { s.trim p e with st := .held }

section
variable (s : State) (d p e : Nat)

theorem State.trimStarts_stirs : s.stirs [.trims, .mem, .poisoned] true (s.trimStarts d p e) := by simp [State.trimStarts]

theorem State.trimStarts_load (hfree : s.load (s.targetWord p e) 8 % 2 ^ 32 = 0) :
    (s.trimStarts d p e).load (s.targetWord p e) 8 = s.load (s.targetWord p e) 8 + 2 ^ 31 := by
  have hword : s.load (s.targetWord p e) 8 < 256 ^ 8 := FMap.readLE_lt ..
  rw [State.trimStarts, State.load_setTrim, State.load_store_same, setBit_true_of_clear hfree]
  omega

theorem State.trimStarts_byte {b : Nat} (hb : b < s.targetWord p e ∨ s.targetWord p e + 8 ≤ b) :
    (s.trimStarts d p e).byte b = s.byte b := by
  have hasked : s.stirs [] true (s.homeAtomic (trimWho d p e) (s.targetWord p e)) := by simp
  rw [State.trimStarts, State.byte_setTrim, State.store_byte, if_neg (by omega), hasked.byte]

theorem State.trimHolds_stirs : s.stirs [.trims] true (s.trimHolds d p e) := by simp [State.trimHolds]

end

section
variable {s : State} {d p e : Nat} (hnext : s.nextCheck d = some (p, e)) (hroom : s.trimsRunning d < 4)
include hnext hroom

theorem exec_trimCheck_hostError {item : Nat} (herror : s.trimHostError p e (s.trim p e) = some item) :
    exec (.trimCheck d) s = .next (s.setTrim p e { s.trim p e with wild := some item }) := by
  change execTrimCheck d s = _
  simp [execTrimCheck, hnext, hroom, herror]

/-- Without a host error the references that the target slot's word holds decide. -/
theorem exec_trimCheck (hsound : s.trimHostError p e (s.trim p e) = none) : ∃ id ev, exec (.trimCheck d) s =
    if s.load (s.targetWord p e) 8 % 2 ^ 32 = 0 then .next (s.trimStarts d p e)
    else .next (((s.trimHolds d p e).bump (0x3600 + d) 9 1).postLimited id msTicks ev) := by
  have hasked : s.stirs [] true (s.homeAtomic (trimWho d p e) (s.targetWord p e)) := by simp
  change ∃ id ev, execTrimCheck d s = _
  unfold execTrimCheck
  rw [hnext]
  dsimp only
  rw [decide_eq_true hroom, guardEvent_true, hsound]
  dsimp only
  rw [State.targetWord] at hasked
  rw [hasked.load]
  exact ⟨_, _, rfl⟩

end

theorem exec_trimHeldRecheck {s : State} {p e : Nat} :
    let x := s.trim p e
    let shard := trimRecord x.words
    x.st = .held → s.load (shard + 8 * s.targetSlot shard) 8 % 2 ^ 31 = 0 →
    exec (.trimHeldRecheck p e) s = .next (s.setTrim p e { x with st := .checking }) := by
  intro x shard hst hfree
  change execTrimHeldRecheck p e s = _
  have hguard : (x.st == .held && s.load (shard + 8 * s.targetSlot shard) 8 % 2 ^ 31 == 0) = true := by
    rw [hst, hfree]; rfl
  unfold execTrimHeldRecheck
  dsimp only
  rw [hguard, guardEvent_true]

/-! ### TRIM_UPDATE_COMPLETE (R246, R272) -/

/-- An update has run, and version, WRITING and CUR stand in memory; `v` is the slot's word. -/
def State.trimWritten (s : State) (p e v : Nat) : State :=
  let x := s.trim p e
  let shard := trimRecord x.words
  (((s.trimRun p e x false).homeAtomic (trimWho (trimDie x.words) p e) (shard + 8 * x.slot)).store (shard + 8 * x.slot) 8 v).store
    (shard + 16) 8 x.slot

/-- T stands there too. -/
def State.trimStored (s : State) (p e v : Nat) : State :=
  let x := s.trim p e
  let t := s.trimWritten p e v
  t.engineStore (trimWho (trimDie x.words) p e) (t.trimAddr p e + 56) 4 x.step

/-- Then the update is counted, and its entry is Idle. -/
theorem State.trimFinish_eq (s : State) (p e : Nat) :
    let ws := (s.trim p e).words
    ∃ v n, s.trimFinish p e = ((((s.trimStored p e v).bump (0x6350 + trimDie ws) 1 n).bump (0x6350 + trimDie ws) 3 1).bump
      (0x6300 + trimGroup ws) 0xE 1).setTrim p e {} := ⟨_, _, rfl⟩

/-- The pieces that an update changes besides those of a request. -/
def updatePieces : List Piece := [.trims, .mem, .poisoned]

section
variable (s : State) (p e : Nat)

theorem State.trimWritten_but (v : Nat) :
    s.stirsBut updatePieces (elementCounts (trimDie (s.trim p e).words)) (s.trimWritten p e v) := by
  have hstored (t : State) (who a b w : Nat) : t.stirs updatePieces true
      (((t.homeAtomic who a).store a 8 v).store b 8 w) := by simp [updatePieces]
  exact (State.trimRun_but (by decide) (by decide) s p e _).trans (hstored _ _ _ _ _).but

theorem State.trimStored_but (v : Nat) :
    s.stirsBut updatePieces (elementCounts (trimDie (s.trim p e).words)) (s.trimStored p e v) := by
  have hstored (t : State) (who a w : Nat) : t.stirs updatePieces true (t.engineStore who a 4 w) := by simp [updatePieces]
  exact (s.trimWritten_but p e v).trans (hstored _ _ _ _).but

/-- T is written beside CUR, which then names the slot that the update wrote. -/
theorem State.trimStored_current (v : Nat) :
    let x := s.trim p e
    let shard := trimRecord x.words
    let place := s.trimAddr p e + 56
    place + 4 ≤ shard + 16 ∨ shard + 24 ≤ place → x.slot < 2 → (s.trimStored p e v).load (shard + 16) 8 = x.slot := by
  intro x shard place hplace hslot
  have hnot : (0x6340 + p, 1) ∉ elementCounts (trimDie x.words) := by simp [elementCounts]
  have haddr : (s.trimWritten p e v).trimAddr p e = s.trimAddr p e :=
    congrArg (· + 64 * e) ((s.trimWritten_but p e v).val (by omega) (by decide) hnot)
  have hbytes (b : Nat) (hb : shard + 16 ≤ b) (hb' : b < shard + 16 + 8) :
      (s.trimStored p e v).byte b = (s.trimWritten p e v).byte b := by
    refine State.engineStore_byte _ _ _ _ _ ?_
    rw [haddr]
    omega
  calc (s.trimStored p e v).load (shard + 16) 8
      = (s.trimWritten p e v).load (shard + 16) 8 := State.load_congr hbytes
    _ = x.slot % 256 ^ 8 := State.load_store_same ..
    _ = x.slot := Nat.mod_eq_of_lt (by omega)

/-- The counts and the entry that goes Idle leave memory. -/
theorem State.trimFinish_current :
    let x := s.trim p e
    let shard := trimRecord x.words
    let place := s.trimAddr p e + 56
    place + 4 ≤ shard + 16 ∨ shard + 24 ≤ place → x.slot < 2 → (s.trimFinish p e).load (shard + 16) 8 = x.slot := by
  intro x shard place hplace hslot
  obtain ⟨v, n, he⟩ := s.trimFinish_eq p e
  rw [he, State.load_setTrim, State.load_bump, State.load_bump, State.load_bump]
  exact s.trimStored_current p e v hplace hslot

/-- What the end of an update leaves besides CUR. -/
theorem State.trimFinish_leaves :
    let x := s.trim p e
    let u := s.trimFinish p e
    s.stirs updatePieces false u ∧ u.trim p e = {} ∧ counts s u (0x6350 + trimDie x.words) 3 1 ∧
      counts s u (0x6300 + trimGroup x.words) 0xE 1 := by
  intro x u
  obtain ⟨v, n, he⟩ : ∃ v n, u = _ := s.trimFinish_eq p e
  have hstored : s.stirsBut updatePieces (elementCounts (trimDie x.words)) (s.trimStored p e v) := s.trimStored_but p e v
  rw [he]
  generalize s.trimStored p e v = t at hstored ⊢
  generalize trimDie x.words = d at *
  generalize trimGroup x.words = g at *
  have hrun : s.stirsBut updatePieces ((0x6350 + d, 1) :: elementCounts d) (t.bump (0x6350 + d) 1 n) :=
    (hstored.mono (List.Subset.refl _) (List.subset_cons_self _ _)).trans (t.bump_but n (by decide) List.mem_cons_self)
  have hupdate : counts s ((t.bump (0x6350 + d) 1 n).bump (0x6350 + d) 3 1) (0x6350 + d) 3 1 :=
    hrun.counts 1 (by omega) (by decide) (by simp [elementCounts])
  have hdone : s.stirsBut updatePieces ((0x6350 + d, 3) :: (0x6350 + d, 1) :: elementCounts d)
      ((t.bump (0x6350 + d) 1 n).bump (0x6350 + d) 3 1) :=
    (hrun.mono (List.Subset.refl _) (List.subset_cons_self _ _)).trans (State.bump_but _ 1 (by decide) List.mem_cons_self)
  generalize (t.bump (0x6350 + d) 1 n).bump (0x6350 + d) 3 1 = t at hupdate hdone ⊢
  have hgroup : t.stirsBut updatePieces [(0x6300 + g, 0xE)] (t.bump (0x6300 + g) 0xE 1) :=
    t.bump_but 1 (by decide) List.mem_cons_self
  refine ⟨(hdone.stirs.trans hgroup.stirs).trans (by simp [updatePieces]), State.trim_setTrim_same .., ?_, ?_⟩
  · exact (hupdate.stirsBut hgroup (by omega) (by decide) (by simp)).of_dict rfl rfl
  · exact (hdone.counts 1 (by omega) (by decide) (by simp [elementCounts])).of_dict rfl rfl

end

/-- Without a chunk that waits, none is taken. -/
theorem State.takeHeld_none {s : State} (h : s.holds = []) : s.takeHeld = s := by
  rw [State.takeHeld, h]; rfl

/-- Without an Active phase, no shard source is read. -/
theorem State.resumeShards_none {s : State} (h : ∀ k, (s.plan k).st ≠ 3) : s.resumeShards = s := by
  unfold State.resumeShards
  exact List.foldl_fixed' (fun k => if_neg fun hc => h k hc.1) _

theorem exec_trimUpdateComplete {s : State} {p e : Nat} (hst : (s.trim p e).st = .running) :
    exec (.trimUpdateComplete p e) s = .next (s.trimFinish p e).takeHeld.resumeShards := by
  have hguard : ((s.trim p e).st == .running) = true := by rw [hst]; rfl
  change execTrimUpdateComplete p e s = _
  rw [execTrimUpdateComplete, hguard, guardEvent_true]

/-- Settles O29: the next entry runs, is held or is held up, and an update that ends leaves its slot current. -/
theorem trimEvents : Obligations.TrimEvents := by
  intro s d p e x shard a place
  refine ⟨fun hnext hroom hsound => ?check, fun item hnext hroom herror => ?_, fun hst hfree => ?_, fun hst => ?complete⟩
  case check =>
    obtain ⟨id, ev, hexec⟩ := exec_trimCheck hnext hroom hsound
    by_cases hfree : s.load (s.targetWord p e) 8 % 2 ^ 32 = 0
    · have hleaves := s.trimStarts_stirs d p e
      exact ⟨_, hexec.trans (if_pos hfree), fun _ => ⟨State.trim_setTrim_same .., s.trimStarts_load d p e hfree,
        fun b hb => s.trimStarts_byte d p e hb⟩, absurd hfree, hleaves.calm, hleaves.frame.mono (by decide)⟩
    · have hleaves := s.trimHolds_stirs d p e
      have hposted := (((s.trimHolds d p e).bump (0x3600 + d) 9 1).postLimited_frame id msTicks ev)
      have hcounted := ((s.trimHolds d p e).bump_frame (0x3600 + d) 9 1)
      have hheld : (s.trimHolds d p e).trim p e = { x with st := .held } := State.trim_setTrim_same ..
      refine ⟨_, hexec.trans (if_neg hfree), fun h => absurd h hfree, fun _ => ⟨?_, ?_, fun _ => ?_⟩, ?_, ?_⟩
      · rw [State.trim, hposted .trims (by decide), hcounted .trims (by decide)]
        exact hheld
      · rw [hposted .mem (by decide), hcounted .mem (by decide), hleaves.frame .mem (by decide)]
      · exact (hleaves.counts (by omega) rfl).of_dict rfl (hposted .dict (by decide))
      · exact hleaves.calm.trans ((calmAll.of_masts (hcounted .masts (by decide))).trans
          (calmAll.of_masts (hposted .masts (by decide))))
      · exact (hleaves.frame.mono (by decide)).trans ((hcounted.mono (by decide)).trans (hposted.mono (by decide)))
  case complete =>
    obtain ⟨hleaves, htrim, hupdates, hends⟩ := s.trimFinish_leaves p e
    have hworked : s.stirs workPieces false (s.trimFinish p e) := hleaves.mono (by decide) nofun
    have hstirs : s.stirs workPieces false (s.trimFinish p e).takeHeld.resumeShards := hworked.trans (by simp)
    refine ⟨_, exec_trimUpdateComplete hst, hstirs.planFrame, fun hholds hplans hplace hslot => ?_⟩
    have hnone : (s.trimFinish p e).holds = [] := (hleaves.frame .holds (by decide)).trans hholds
    have hplan (k : Nat) : (s.trimFinish p e).plan k = s.plan k := by
      rw [State.plan, hleaves.frame .plans (by decide)]; rfl
    have hstill : (s.trimFinish p e).takeHeld.resumeShards = s.trimFinish p e := by
      rw [State.takeHeld_none hnone, State.resumeShards_none fun k => ne_of_eq_of_ne (congrArg Plan.st (hplan k)) (hplans k)]
    rw [hstill]
    exact ⟨htrim, s.trimFinish_current p e hplace hslot, hupdates, hends, hleaves.calm, hleaves.frame.mono (by decide)⟩
  · exact ⟨_, exec_trimCheck_hostError hnext hroom herror, State.trim_setTrim_same .., s.setTrim_frame p e _⟩
  · exact ⟨_, exec_trimHeldRecheck hst hfree, State.trim_setTrim_same .., s.setTrim_frame p e _⟩

end Sys2Proof.Machine

/-! SUPPORT. The vertical bond: beats that arrive, fail or wait behind a replay, and the end of a window (O30). -/

namespace Sys2Proof.Machine

-- One proof at a time: each waits for the lemmas that it rewrites by.
set_option Elab.async false

/-! ### One operation after another -/

section
variable {fs gs : List Piece} {ks : List (Nat × Nat)} {s t u : State} {i j n : Nat}

/-- An operation that changes no other pieces, after what came before it. -/
theorem changesOnly.andThen (h : changesOnly fs s t) (h' : changesOnly gs t u) (hs : gs ⊆ fs := by decide) :
    changesOnly fs s u := h.trans (h'.mono hs)

/-- A count after operations that leave its object. -/
theorem registersBut.counts (h : registersBut ks s t) (n : Nat) (hj : j < 256) (hk : (i, j) ∉ ks) :
    counts s (t.bump i j n) i j n := (t.bump_counts i j n).trans (by rw [h.val hj hk])

/-- A count, and then operations that leave its object. -/
theorem counts.registersBut (hc : counts s t i j n) (h : registersBut ks t u) (hj : j < 256) (hk : (i, j) ∉ ks) :
    counts s u i j n := (h.val hj hk).trans hc

theorem State.climb_frame (s : State) (level : Nat) : changesOnly [.dict] s (s.climb level) := s.bump_frame _ _ _

theorem State.climb_registers (s : State) {level : Nat} (h : level < 256) :
    registersBut [(0x7170, level)] s (s.climb level) := s.bump_registers 1 h

end

/-! ### The data group of a bond port (R283, R284) -/

section
variable (b : Bond) (upward : Bool) (g : BondDir) (flips : List Nat)

@[simp] theorem Bond.dir_setDir_same : (b.setDir upward g).dir upward = g := by cases upward <;> rfl

@[simp] theorem Bond.dir_setDir_not : (b.setDir upward g).dir (!upward) = b.dir (!upward) := by cases upward <;> rfl

/-- The errors charged to the halves stand apart from the two directions. -/
theorem Bond.charge_setDir (n : Nat) : (b.setDir upward g).charge n = (b.charge n).setDir upward g := by cases upward <;> rfl

theorem Bond.foldl_charge_setDir :
    flips.foldl Bond.charge (b.setDir upward g) = (flips.foldl Bond.charge b).setDir upward g := by
  induction flips generalizing b with
  | nil => rfl
  | cons n flips ih => rw [List.foldl_cons, List.foldl_cons, Bond.charge_setDir, ih]

theorem Bond.foldl_charge_dir (down : Bool) : (flips.foldl Bond.charge b).dir down = b.dir down := by
  induction flips generalizing b with
  | nil => rfl
  | cons n flips ih => rw [List.foldl_cons, ih]; rfl

theorem Bond.setDir_errors : (b.setDir upward g).lowErr = b.lowErr ∧ (b.setDir upward g).upErr = b.upErr := by
  cases upward <;> exact ⟨rfl, rfl⟩

end

/-- The beats that the sender keeps once the next one, if a new one comes, has joined them. -/
def BondDir.keeps (g : BondDir) (beat : Option Nat) : List Nat :=
  match beat with
  | some b => (b % 2 ^ 1024 :: g.held).take 8
  | none => g.held

/-- The beat that the receiver waits for, as it was sent. -/
def BondDir.awaited (g : BondDir) (beat : Option Nat) : Nat := (g.keeps beat).getD (g.back - 1) 0

/-- Whether the CRC of that beat fails with `flips` wrong bits. -/
def BondDir.fails (g : BondDir) (beat : Option Nat) (flips : Nat) : Bool :=
  crc16 (g.awaited beat ^^^ flips % 2 ^ 1024) 128 != crc16 (g.awaited beat) 128

/-- The mast with another state of its bond port. -/
def State.setBond (s : State) (m : Nat) (b : Bond) : State := s.setMast m { s.mast m with bond := b }

/-- A beat that failed, and is awaited again. -/
def State.beatFailed (s : State) (m : Nat) (upward : Bool) (beat : Option Nat) (flips : Nat) (bad : Bool) : State :=
  let x := s.mast m
  let g := x.bond.dir upward
  let b := x.bond.setDir upward { held := g.keeps beat, back := max g.back 1, wrong := flips % 2 ^ 1024 :: g.wrong }
  s.setBond m { b with sideErr := b.sideErr + (if bad then 1 else 0) }

section
variable (s : State) (m : Nat) (b : Bond)

@[simp] theorem State.setBond_mast : (s.setBond m b).mast m = { s.mast m with bond := b } := State.mast_setMast_same ..

theorem State.setBond_others : mastsBut m s (s.setBond m b) := s.setMast_others m _

theorem State.setBond_frame : changesOnly [.masts] s (s.setBond m b) := s.setMast_frame m _

theorem mastsBut.of_masts {m : Nat} {s t u : State} (h : mastsBut m s t) (hu : u.masts = t.masts) : mastsBut m s u :=
  fun n hn => by rw [State.mast, hu]; exact h n hn

theorem State.mast_of_frame {fs : List Piece} {s t : State} (h : changesOnly fs s t) (hm : Piece.masts ∉ fs := by decide)
    (n : Nat) : t.mast n = s.mast n := by
  rw [State.mast, h .masts hm]; rfl

end

section
variable {s : State} {m flips : Nat} {beat : Option Nat} {upward bad : Bool}

/-- A beat that can arrive: the next new one, or the next of a replay. -/
theorem bondBeat_guard (hm : m < 3072) (hb : (s.mast m).bonded = true)
    (hbeat : beat.isSome = true → ((s.mast m).bond.dir upward).back < 8)
    (hreplay : beat.isSome = false → ((s.mast m).bond.dir upward).back ≠ 0) :
    (decide (m < 3072) && (s.mast m).bonded && (if beat.isSome then decide (((s.mast m).bond.dir upward).back < 8)
      else ((s.mast m).bond.dir upward).back != 0)) = true := by
  cases h : beat.isSome <;> simp_all

variable (hm : m < 3072) (hb : (s.mast m).bonded = true)
include hm hb

/-- A new beat while a replay is awaited is kept for it. -/
theorem exec_bondBeatReceive_kept (hbeat : beat.isSome = true) (hback : 1 ≤ ((s.mast m).bond.dir upward).back)
    (hroom : ((s.mast m).bond.dir upward).back < 8) :
    let g := (s.mast m).bond.dir upward
    exec (.bondBeatReceive m upward beat flips bad) s =
      .next (s.setBond m ((s.mast m).bond.setDir upward { g with held := g.keeps beat, back := g.back + 1 })) := by
  intro g
  have hguard := bondBeat_guard (beat := beat) hm hb (fun _ => hroom) (fun h => by rw [hbeat] at h; cases h)
  change execBondBeatReceive m upward beat flips bad s = _
  unfold execBondBeatReceive
  dsimp only
  rw [hguard, guardEvent_true]
  exact if_pos ⟨hbeat, Nat.ne_of_gt hback⟩

variable (hnext : beat.isSome = true ↔ ((s.mast m).bond.dir upward).back = 0)
include hnext

/-- A beat of the sender, new or the next of a replay, by its CRC and sideband word. -/
theorem exec_bondBeatReceive_arrives :
    let g := (s.mast m).bond.dir upward
    let t := s.beatFailed m upward beat flips bad
    exec (.bondBeatReceive m upward beat flips bad) s =
      if (g.fails beat flips || bad) = true then
        .next (((if g.fails beat flips = true then t.bump (0x4900 + mastDie m) 1 1 else t).bump (0x4900 + mastDie m) 2 1).climb
          1)
      else
        .next ((s.setBond m (g.wrong.foldl Bond.charge
          ((s.mast m).bond.setDir upward { held := g.keeps beat, back := g.back - 1, wrong := [] }))).emit .bond m
            (if upward then 1 else 0) ⟨128, g.awaited beat⟩) := by
  have hguard := bondBeat_guard hm hb (fun h => by rw [hnext.mp h]; decide)
    (fun h h0 => absurd (hnext.mpr h0) (by simp [h]))
  change execBondBeatReceive m upward beat flips bad s = _
  unfold execBondBeatReceive
  dsimp only
  rw [hguard, guardEvent_true]
  exact if_neg fun h => h.2 (hnext.mp h.1)

end

/-- The counts of a beat that failed. -/
theorem State.beatFailed_counts {s t : State} (hs : t.dict = s.dict) {c : Nat} (hc : c < 0x7170) (failed : Bool) :
    let u := ((if failed = true then t.bump c 1 1 else t).bump c 2 1).climb 1
    (failed = true → counts s u c 1 1) ∧ (failed = false → u.obj c 1 = s.obj c 1) ∧ counts s u c 2 1 ∧
      counts s u 0x7170 1 1 ∧ registersBut [(c, 1), (c, 2), (0x7170, 1)] s u ∧ changesOnly [.dict] t u := by
  have hne : c ≠ 0x7170 := Nat.ne_of_lt hc
  have hsame : registersBut [] s t := .of_dict hs
  have hafter (v : State) : registersBut [(c, 2), (0x7170, 1)] v ((v.bump c 2 1).climb 1) :=
    ((v.bump_registers 1 (by decide)).mono (by simp)).trans ((State.climb_registers _ (by decide)).mono (by simp))
  have hframe (v : State) : changesOnly [.dict] v ((v.bump c 2 1).climb 1) := (v.bump_frame _ _ _).trans (State.climb_frame _ 1)
  have hbeat {v : State} (h : registersBut [(c, 1)] s v) : counts s ((v.bump c 2 1).climb 1) c 2 1 :=
    (h.counts 1 (by decide) (by simp)).registersBut (State.climb_registers _ (by decide)) (by decide) (by simp [hne])
  have hclimb {v : State} (h : registersBut [(c, 1)] s v) : counts s ((v.bump c 2 1).climb 1) 0x7170 1 1 :=
    ((h.mono (List.subset_cons_of_subset (c, 2) (List.Subset.refl _))).trans
      ((v.bump_registers 1 (by decide)).mono (by simp))).counts 1 (by decide) (by simp [hne.symm])
  cases failed with
  | false =>
    have hnone : registersBut [(c, 1)] s t := hsame.mono (by simp)
    exact ⟨nofun, fun _ => ((hsame.mono (by simp)).trans (hafter t)) c 1 (by decide) (by simp [hne]), hbeat hnone, hclimb hnone,
      (hnone.mono (by simp)).trans ((hafter t).mono (by simp)), hframe t⟩
  | true =>
    have hcrc : registersBut [(c, 1)] s (t.bump c 1 1) := (hsame.mono (by simp)).trans (t.bump_registers 1 (by decide))
    exact ⟨fun _ => (hsame.counts 1 (by decide) (by simp)).registersBut (hafter _) (by decide) (by simp [hne]), nofun,
      hbeat hcrc, hclimb hcrc, (hcrc.mono (by simp)).trans ((hafter _).mono (by simp)), (t.bump_frame _ _ _).trans (hframe _)⟩

/-- What a beat leaves besides what its direction waits for and the errors charged: nothing else of the mast changes, nor the
other direction, and the sender keeps the beats `held`. -/
def State.beatLeaves (s : State) (m : Nat) (upward : Bool) (held : List Nat) (u : State) : Prop :=
  u.mast m = { s.mast m with bond := (u.mast m).bond } ∧
    (u.mast m).bond.dir (!upward) = (s.mast m).bond.dir (!upward) ∧ ((u.mast m).bond.dir upward).held = held ∧ mastsBut m s u

theorem State.beatLeaves_of_bond {s u : State} {m : Nat} {upward : Bool} {held : List Nat} {b : Bond}
    (hu : u.masts = (s.setBond m b).masts) (hdown : b.dir (!upward) = (s.mast m).bond.dir (!upward))
    (hheld : (b.dir upward).held = held) : s.beatLeaves m upward held u ∧ (u.mast m).bond = b := by
  have hmast : u.mast m = { s.mast m with bond := b } := by rw [State.mast, hu]; exact s.setBond_mast m b
  refine ⟨⟨?_, ?_, ?_, .of_masts (s.setBond_others m b) hu⟩, ?_⟩ <;> rw [hmast]
  · exact hdown
  · exact hheld

section
variable {s : State} {m flips : Nat} {beat : Option Nat} {upward bad : Bool}
variable (hm : m < 3072) (hb : (s.mast m).bonded = true)
include hm hb

theorem bondBeatReceive_kept (hbeat : beat.isSome = true) (hback : 1 ≤ ((s.mast m).bond.dir upward).back)
    (hroom : ((s.mast m).bond.dir upward).back < 8) :
    let g := (s.mast m).bond.dir upward
    ∃ u, exec (.bondBeatReceive m upward beat flips bad) s = .next u ∧ s.beatLeaves m upward (g.keeps beat) u ∧
      ((u.mast m).bond.dir upward).back = g.back + 1 ∧ changesOnly [.masts] s u := by
  intro g
  have hdir := Bond.dir_setDir_same (s.mast m).bond upward { g with held := g.keeps beat, back := g.back + 1 }
  obtain ⟨hleaves, hbond⟩ := State.beatLeaves_of_bond rfl (Bond.dir_setDir_not ..) (congrArg BondDir.held hdir)
  exact ⟨_, exec_bondBeatReceive_kept hm hb hbeat hback hroom, hleaves, by rw [hbond, hdir], s.setBond_frame m _⟩

variable (hnext : beat.isSome = true ↔ ((s.mast m).bond.dir upward).back = 0)
include hnext

theorem bondBeatReceive_passes (hpass : ¬(((s.mast m).bond.dir upward).fails beat flips || bad) = true) :
    let x := s.mast m
    let g := x.bond.dir upward
    ∃ u, exec (.bondBeatReceive m upward beat flips bad) s = .next u ∧ s.beatLeaves m upward (g.keeps beat) u ∧
      u.outbox = ⟨.bond, m, if upward then 1 else 0, ⟨128, g.awaited beat⟩⟩ :: s.outbox ∧
      ((u.mast m).bond.dir upward).back = g.back - 1 ∧
      (u.mast m).bond.lowErr = (g.wrong.foldl Bond.charge x.bond).lowErr ∧
      (u.mast m).bond.upErr = (g.wrong.foldl Bond.charge x.bond).upErr ∧ changesOnly [.masts, .outbox] s u := by
  intro x g
  have hexec := (exec_bondBeatReceive_arrives (flips := flips) (bad := bad) hm hb hnext).trans (if_neg hpass)
  rw [Bond.foldl_charge_setDir] at hexec
  have hdir := Bond.dir_setDir_same (g.wrong.foldl Bond.charge x.bond) upward { held := g.keeps beat, back := g.back - 1 }
  have hother := Bond.foldl_charge_dir x.bond g.wrong (!upward)
  obtain ⟨hlow, hup⟩ := Bond.setDir_errors (g.wrong.foldl Bond.charge x.bond) upward
    { held := g.keeps beat, back := g.back - 1 }
  obtain ⟨hleaves, hbond⟩ := State.beatLeaves_of_bond (u := State.emit (s.setBond m _) .bond m _ _) rfl
    ((Bond.dir_setDir_not ..).trans hother) (congrArg BondDir.held hdir)
  refine ⟨_, hexec, hleaves, rfl, ?_, ?_, ?_, ((s.setBond_frame m _).mono (by decide)).andThen (State.emit_frame _ _ _ _ _)⟩
    <;> rw [hbond]
  · rw [hdir]
  · exact hlow
  · exact hup

theorem bondBeatReceive_fails (hfail : (((s.mast m).bond.dir upward).fails beat flips || bad) = true) :
    let x := s.mast m
    let g := x.bond.dir upward
    let c := 0x4900 + mastDie m
    ∃ u, exec (.bondBeatReceive m upward beat flips bad) s = .next u ∧ s.beatLeaves m upward (g.keeps beat) u ∧
      ((u.mast m).bond.dir upward).back = max g.back 1 ∧ (u.mast m).bond.lowErr = x.bond.lowErr ∧
      (u.mast m).bond.upErr = x.bond.upErr ∧ (g.fails beat flips = true → counts s u c 1 1) ∧
      (g.fails beat flips = false → u.obj c 1 = s.obj c 1) ∧ counts s u c 2 1 ∧ counts s u 0x7170 1 1 ∧
      registersBut [(c, 1), (c, 2), (0x7170, 1)] s u ∧ changesOnly [.masts, .dict] s u := by
  intro x g c
  have hexec := (exec_bondBeatReceive_arrives (flips := flips) (bad := bad) hm hb hnext).trans (if_pos hfail)
  have hc : c < 0x7170 := by have := mastDie_lt hm; omega
  obtain ⟨hcrc, hsound, hbeats, hclimb, hregs, hframe⟩ :=
    State.beatFailed_counts (s := s) (t := s.beatFailed m upward beat flips bad) rfl hc (g.fails beat flips)
  have hset := State.beatLeaves_of_bond (upward := upward) (held := g.keeps beat) (hframe .masts (by decide))
    (by cases upward <;> rfl) (by cases upward <;> rfl)
  obtain ⟨hleaves, hbond⟩ := hset
  refine ⟨_, hexec, hleaves, ?_, ?_, ?_, hcrc, hsound, hbeats, hclimb, hregs,
    ((s.setBond_frame m _).mono (by decide)).andThen hframe⟩ <;> rw [hbond] <;> cases upward <;> rfl

end

/-! ### The end of a window (R284, R285) -/

/-- The errors charged to the halves and to the sideband. -/
def Bond.errors (b : Bond) : Nat × Nat × Nat := (b.lowErr, b.upErr, b.sideErr)

/-- The pieces that the end of a window changes, the note of when the next one began apart. -/
def bondPieces : List Piece := [.masts, .trackers, .heldReqs, .dict, .rings]

/-- From `s` to `t` mast `m` may have lost halves or be fenced: no other mast changes, and no error is charged or cleared. -/
structure State.retiresHalves (m : Nat) (s t : State) : Prop where
  frame : changesOnly bondPieces s t
  others : mastsBut m s t
  errors : (t.mast m).bond.errors = (s.mast m).bond.errors

section
variable {m : Nat} {s t u : State}

theorem State.retiresHalves.trans (h : s.retiresHalves m t) (h' : t.retiresHalves m u) : s.retiresHalves m u :=
  ⟨h.frame.trans h'.frame, fun n hn => (h'.others n hn).trans (h.others n hn), h'.errors.trans h.errors⟩

/-- An operation that leaves the masts. -/
theorem State.retiresHalves.of_frame {fs : List Piece} (h : changesOnly fs s t) (hfs : fs ⊆ bondPieces := by decide)
    (hm : Piece.masts ∉ fs := by decide) : s.retiresHalves m t :=
  ⟨h.mono hfs, fun n _ => State.mast_of_frame h hm n, by rw [State.mast_of_frame h hm]⟩

theorem State.retiresHalves.of_setMast (x : Mast) (hx : x.bond.errors = (s.mast m).bond.errors) :
    s.retiresHalves m (s.setMast m x) :=
  ⟨(s.setMast_frame m x).mono (by decide), s.setMast_others m x, by rw [State.mast_setMast_same, hx]⟩

variable (m s)

theorem State.climb_retires (level : Nat) : s.retiresHalves m (s.climb level) := .of_frame (s.climb_frame level)

theorem State.fenceMast_retires (cause : Nat) : s.retiresHalves m (s.fenceMast m cause) := by
  unfold State.fenceMast
  dsimp only
  split
  · exact .of_frame (.refl [] s)
  · have hdark : s.retiresHalves m (s.setMast m { (s.mast m).darkened with fenced := true }) := .of_setMast _ rfl
    exact ((hdark.trans (.of_frame (State.settleTree_frame _ _))).trans (.of_frame (State.forgetRequests_frame _ _))).trans
      (.of_frame (State.post_frame _ _))

theorem State.postCompound_frame (kind num : Nat) (p : FaultPair) : changesOnly [.dict, .rings] s (s.postCompound kind num p) :=
  ((s.bump_frame _ _ _).mono (by decide)).andThen (State.post_frame _ _)

/-- The errors of a window are cleared; what the thresholds ask for then charges none. -/
theorem State.bondWindow_retires :
    (s.setBond m { (s.mast m).bond with lowErr := 0, upErr := 0, sideErr := 0 }).retiresHalves m (s.bondWindow m) := by
  unfold State.bondWindow State.setBond
  dsimp only
  generalize s.setMast m { s.mast m with bond := { (s.mast m).bond with lowErr := 0, upErr := 0, sideErr := 0 } } = t
  have hhalved (x : Mast) (e : Event) (hx : x.bond.errors = (t.mast m).bond.errors) :
      t.retiresHalves m (((t.climb 3).setMast m x).post e) :=
    ((t.climb_retires m 3).trans (.of_setMast x (hx.trans (t.climb_retires m 3).errors.symm))).trans
      (.of_frame (State.post_frame _ _))
  split_ifs
  · exact .of_frame (.refl [] t)
  · exact (t.climb_retires m 4).trans (State.fenceMast_retires m _ 2)
  · exact (((t.climb_retires m 3).trans (State.climb_retires m _ 4)).trans (State.fenceMast_retires m _ 1)).trans
      (.of_frame (State.postCompound_frame _ _ _ _))
  · exact (t.climb_retires m 4).trans (State.fenceMast_retires m _ 1)
  · exact hhalved _ _ rfl
  · exact hhalved _ _ rfl
  · exact .of_frame (.refl [] t)

theorem State.bondWindow_frame : changesOnly bondPieces s (s.bondWindow m) :=
  ((s.setBond_frame m _).mono (by decide)).trans (s.bondWindow_retires m).frame

theorem State.bondWindow_others : mastsBut m s (s.bondWindow m) := fun n hn =>
  ((s.bondWindow_retires m).others n hn).trans (s.setBond_others m _ n hn)

theorem State.bondWindow_errors : ((s.bondWindow m).mast m).bond.errors = (0, 0, 0) := by
  rw [(s.bondWindow_retires m).errors, State.setBond_mast]; rfl

/-- The windows of several masts: those have no error charged any more, the others are as they were. -/
theorem State.foldl_bondWindow (ms : List Nat) (n : Nat) :
    (n ∈ ms → ((ms.foldl State.bondWindow s).mast n).bond.errors = (0, 0, 0)) ∧
      (n ∉ ms → (ms.foldl State.bondWindow s).mast n = s.mast n) := by
  induction ms generalizing s with
  | nil => exact ⟨nofun, fun _ => rfl⟩
  | cons k ms ih =>
    obtain ⟨hin, hout⟩ := ih (s.bondWindow k)
    refine ⟨fun hn => ?_, fun hn => ?_⟩
    · by_cases hms : n ∈ ms
      · exact hin hms
      · obtain rfl : n = k := (List.mem_cons.mp hn).resolve_right hms
        rw [List.foldl_cons, hout hms]
        exact s.bondWindow_errors n
    · obtain ⟨hk, hms⟩ := not_or.mp (mt List.mem_cons.mpr hn)
      exact (hout hms).trans (s.bondWindow_others k n hk)

end

theorem mem_mastsOfDie {d n : Nat} : n ∈ mastsOfDie d ↔ n / 192 = d := by
  simp only [mastsOfDie, List.mem_map, List.mem_range]
  exact ⟨fun ⟨i, hi, h⟩ => by omega, fun h => ⟨n % 192, by omega, by omega⟩⟩

/-! ### Admission runs again (R382) -/

theorem forRange_frame {fs : List Piece} {f : Nat → State → State} (hf : ∀ i s, changesOnly fs s (f i s)) (n : Nat)
    (s : State) : changesOnly fs s (forRange n s f) := changesOnly.foldl _ (fun s i => hf i s) _ s

theorem State.noteVerdict_frame (s : State) (k st : Nat) (v : Verdict) : changesOnly [.dict] s (s.noteVerdict k st v) :=
  (((s.setVal_frame _ _ _).trans (State.setVal_frame _ _ _ _)).trans (State.setVal_frame _ _ _ _)).trans
    (forRange_frame (fun _ t => t.setVal_frame _ _ _) 32 _)

/-- A verdict stands in the slot's own objects (Table 11.13). -/
theorem State.noteVerdict_obj (s : State) (k st : Nat) (v : Verdict) {i j : Nat} (hi : i ≠ 0x5080 + k) (hj : j < 256) :
    (s.noteVerdict k st v).obj i j = s.obj i j := by
  have hset (t : State) {sub : Nat} (n : Nat) (hsub : sub < 256) : (t.setVal (0x5080 + k) sub n).obj i j = t.obj i j :=
    t.setVal_registers n hsub i j hj (by simp [hi])
  unfold State.noteVerdict forRange
  dsimp only
  refine (List.foldlRecOn (motive := fun t : State => t.obj i j = _) (List.range 32) _ rfl fun t ht n hn => ?_).trans ?_
  · have hlt := List.mem_range.mp hn
    exact (hset t _ (by omega)).trans ht
  · exact ((hset _ _ (by decide)).trans (hset _ _ (by decide))).trans (hset s _ (by decide))

theorem State.rejudge_cases (s : State) (k : Nat) : s.rejudge k = s ∨ ∃ st v e, s.rejudge k = s.noteVerdict k st v ∨
    s.rejudge k = (s.noteVerdict k st v).post e := by
  unfold State.rejudge
  dsimp only
  split_ifs
  · exact .inr ⟨_, _, ⟨0, 0, 0, 0, 0, 0, [], false⟩, .inl rfl⟩
  · exact .inr ⟨_, _, _, .inr rfl⟩
  · exact .inl rfl
  · exact .inr ⟨_, _, _, .inr rfl⟩
  · exact .inr ⟨_, _, ⟨0, 0, 0, 0, 0, 0, [], false⟩, .inl rfl⟩

theorem State.rejudge_frame (s : State) (k : Nat) : changesOnly [.dict, .rings] s (s.rejudge k) := by
  obtain he | ⟨st, v, e, he | he⟩ := s.rejudge_cases k <;> rw [he]
  · exact .refl _ s
  · exact (s.noteVerdict_frame k st v).mono (by decide)
  · exact ((s.noteVerdict_frame k st v).mono (by decide)).andThen (State.post_frame _ e)

theorem State.rejudge_obj (s : State) (k : Nat) {i j : Nat} (hi : i ≠ 0x5080 + k) (hj : j < 256) :
    (s.rejudge k).obj i j = s.obj i j := by
  obtain he | ⟨st, v, e, he | he⟩ := s.rejudge_cases k <;> rw [he]
  · exact s.noteVerdict_obj k st v hi hj
  · exact (registersBut.of_dict (ks := []) (State.post_frame _ e .dict (by decide)) i j hj (by simp)).trans
      (s.noteVerdict_obj k st v hi hj)

theorem State.readmit_frame (s : State) : changesOnly [.dict, .rings] s s.readmit :=
  changesOnly.foldl _ (fun t k => t.rejudge_frame k) _ s

/-- Admission writes the objects of the 64 slots alone. -/
theorem State.readmit_obj (s : State) {i j : Nat} (hi : i < 0x5080 ∨ 0x50C0 ≤ i) (hj : j < 256) :
    s.readmit.obj i j = s.obj i j := by
  refine List.foldlRecOn (motive := fun t : State => t.obj i j = s.obj i j) s.loaded _ rfl fun t ht k hk => ?_
  have hlt : k < 64 := List.mem_range.mp (List.mem_filter.mp hk).1
  exact (t.rejudge_obj k (by omega) hj).trans ht

section
variable (s : State) (d : Nat)

/-- The window of die `d` begins anew. -/
def State.newBondWindow : State := { s with bondSince := FMap.set s.bondSince d 0 s.tick }

theorem State.newBondWindow_frame : changesOnly [.bondSince] s (s.newBondWindow d) := by
  intro f hf; cases f <;> first | rfl | simp at hf

/-- The windows of a die's masts have ended. -/
def State.bondEnded : State := (mastsOfDie d).foldl State.bondWindow (s.newBondWindow d)

theorem State.bondEnded_frame : changesOnly bondPieces (s.newBondWindow d) (s.bondEnded d) :=
  changesOnly.foldl _ (fun t m => t.bondWindow_frame m) _ _

theorem exec_bondWindowEnd {s : State} {d : Nat} (hd : d < 16) (hdue : FMap.get s.bondSince d 0 + 25000000 ≤ s.tick) :
    ∃ u, exec (.bondWindowEnd d) s = .next u ∧ changesOnly [.dict, .rings] (s.bondEnded d) u := by
  have hguard : (decide (d < 16) && decide (FMap.get s.bondSince d 0 + 1000 * msTicks ≤ s.tick)) = true := by
    have hms : FMap.get s.bondSince d 0 + 1000 * msTicks ≤ s.tick := hdue
    rw [decide_eq_true hd, decide_eq_true hms]; rfl
  change ∃ u, execBondWindowEnd d s = _ ∧ _
  unfold execBondWindowEnd
  rw [hguard, guardEvent_true]
  exact ⟨_, rfl, .ite (.refl _ _) (State.readmit_frame _)⟩

end

/-- Settles O30: a beat by what it leaves of its mast's bond port, a window by what it leaves of the masts of its die. -/
theorem bondEvents : Obligations.BondEvents := by
  refine ⟨fun s m flips beat upward bad hm hb => ?beat, fun s d hd hdue => ?window⟩
  case beat =>
    intro x g c kept sent failed only
    refine ⟨fun hnext hfailed hbad => bondBeatReceive_passes hm hb hnext ?_,
      fun hnext hfail => bondBeatReceive_fails hm hb hnext ?_,
      bondBeatReceive_kept hm hb⟩
    · rw [hbad, Bool.or_false]
      exact Bool.eq_false_iff.mp hfailed
    · exact Bool.or_eq_true_iff.mpr hfail
  case window =>
    obtain ⟨u, hexec, hlast⟩ := exec_bondWindowEnd hd hdue
    have hmast (n : Nat) : u.mast n = (s.bondEnded d).mast n := State.mast_of_frame hlast (by decide) n
    have hends := (s.newBondWindow d).foldl_bondWindow (mastsOfDie d)
    refine ⟨u, hexec, ?_, fun n hn => ?_, fun n hn => ?_, ?_⟩
    · have hsince : u.bondSince = (s.newBondWindow d).bondSince :=
        (hlast .bondSince (by decide)).trans (s.bondEnded_frame d .bondSince (by decide))
      rw [hsince]
      exact FMap.get_set_same ..
    · have herrors : (u.mast n).bond.errors = (0, 0, 0) := by rw [hmast]; exact (hends n).1 (mem_mastsOfDie.mpr hn)
      simpa [Bond.errors] using herrors
    · rw [hmast]
      exact (hends n).2 (mt mem_mastsOfDie.mp hn)
    · exact (((s.newBondWindow_frame d).mono (by decide)).andThen (s.bondEnded_frame d)).andThen hlast

end Sys2Proof.Machine

/-! SUPPORT. The ratlines: directions and their flows read back, what leaves on them, retry and credit (O31), and data flits
(O32). -/

namespace Sys2Proof.Machine

-- One proof at a time: each waits for the lemmas that it rewrites by.
set_option Elab.async false

/-! ### Directions (R26, R286) -/

section
variable {d side e : Nat} (hd : d < 16) (he : neighbourDie d side = some e)
include hd he

/-- A direction that exists comes from another die of the package, to which the direction back leads. -/
theorem neighbourDie_spec : side < 4 ∧ e < 16 ∧ e ≠ d ∧ neighbourDie e (oppositeSide side) = some d := by
  unfold neighbourDie at he
  split at he
  case h_5 => cases he
  all_goals
    split_ifs at he
    cases he
    simp [neighbourDie, oppositeSide]
    omega

theorem ratKey_opposite_ne : ratKey e (oppositeSide side) ≠ ratKey d side := by
  obtain ⟨hside, -, hne, -⟩ := neighbourDie_spec hd he
  unfold ratKey oppositeSide
  omega

end

/-! ### Directions and flows read back -/

section
variable (s : State) (d side d' side' : Nat) (x : RatDir) (f : RatFlow)

theorem State.rat_setRat : (s.setRat d side x).rat d' side' = if ratKey d' side' = ratKey d side then x else s.rat d' side' :=
  FMap.get_set ..

theorem State.flow_setFlow :
    (s.setFlow d side f).flow d' side' = if ratKey d' side' = ratKey d side then f else s.flow d' side' := FMap.get_set ..

@[simp] theorem State.rat_setFlow : (s.setFlow d side f).rat d' side' = s.rat d' side' := rfl
@[simp] theorem State.flow_setRat : (s.setRat d side x).flow d' side' = s.flow d' side' := rfl
@[simp] theorem State.rat_emit (k : OutKind) (a b : Nat) (o : Octets) : (s.emit k a b o).rat d side = s.rat d side := rfl
@[simp] theorem State.flow_emit (k : OutKind) (a b : Nat) (o : Octets) : (s.emit k a b o).flow d side = s.flow d side := rfl
@[simp] theorem State.rat_bump (i j n : Nat) : (s.bump i j n).rat d side = s.rat d side := rfl
@[simp] theorem State.flow_bump (i j n : Nat) : (s.bump i j n).flow d side = s.flow d side := rfl
@[simp] theorem State.rat_climb (level : Nat) : (s.climb level).rat d side = s.rat d side := rfl
@[simp] theorem State.flow_climb (level : Nat) : (s.climb level).flow d side = s.flow d side := rfl

theorem State.flow_setFlow_other {d side d' side' : Nat} (h : ratKey d' side' ≠ ratKey d side) (f : RatFlow) :
    (s.setFlow d side f).flow d' side' = s.flow d' side' := (s.flow_setFlow ..).trans (if_neg h)

theorem State.rat_setRat_other {d side d' side' : Nat} (h : ratKey d' side' ≠ ratKey d side) (x : RatDir) :
    (s.setRat d side x).rat d' side' = s.rat d' side' := (s.rat_setRat ..).trans (if_neg h)

end

section
variable {fs : List Piece} {s t : State}

theorem State.rat_of_frame (h : changesOnly fs s t) (hr : Piece.rats ∉ fs := by decide) (d side : Nat) :
    t.rat d side = s.rat d side := by
  rw [State.rat, h .rats hr]; rfl

theorem State.flow_of_frame (h : changesOnly fs s t) (hf : Piece.flows ∉ fs := by decide) (d side : Nat) :
    t.flow d side = s.flow d side := by
  rw [State.flow, h .flows hf]; rfl

end

/-! ### Directions that stay as they are, but for the lane of the next bit and the errors charged (R287, R294) -/

/-- What `ratsSteady` compares of a direction. -/
def RatDir.settled (x : RatDir) : RatDir := { x with phase := 0, errors := [] }

section
variable {s t u : State}

theorem ratsSteady.of_rats (h : t.rats = s.rats) : ratsSteady s t := fun d side => by rw [State.rat, State.rat, h]

theorem ratsSteady.trans (h : ratsSteady s t) (h' : ratsSteady t u) : ratsSteady s u :=
  fun d side => (h' d side).trans (h d side)

theorem ratsSteady.of_frame {fs : List Piece} (h : changesOnly fs s t) (hr : Piece.rats ∉ fs := by decide) : ratsSteady s t :=
  .of_rats (h .rats hr)

theorem State.setRat_steady {d side : Nat} {x : RatDir} (hx : x.settled = (s.rat d side).settled) :
    ratsSteady s (s.setRat d side x) := fun d' side' => by
  rw [State.rat_setRat]
  split
  · next h => rw [State.rat, h]; exact hx
  · rfl

end

@[simp] theorem RatDir.advance_settled (x : RatDir) : x.advance.settled = x.settled := rfl

theorem RatDir.charge_settled (x : RatDir) (lanes : List Nat) : (x.charge lanes).settled = x.settled := rfl

theorem RatDir.foldl_charge_settled (x : RatDir) (l : List (Nat × List Nat)) :
    (l.foldl (fun x e => x.charge e.2) x).settled = x.settled := by
  induction l generalizing x with
  | nil => rfl
  | cons e l ih => rw [List.foldl_cons, ih, RatDir.charge_settled]

/-! ### Control and idle flits (R290, R291) -/

/-- From `s` to `t` so many flits left on ratlines. -/
structure State.ratSends (n : Nat) (s t : State) : Prop where
  frame : changesOnly [.rats, .outbox] s t
  steady : ratsSteady s t
  sent : t.outbox.length = s.outbox.length + n

section
variable {s t u : State}

theorem State.ratSends.trans {m n : Nat} (h : s.ratSends m t) (h' : t.ratSends n u) : s.ratSends (m + n) u :=
  ⟨h.frame.trans h'.frame, h.steady.trans h'.steady, by rw [h'.sent, h.sent, Nat.add_assoc]⟩

theorem State.ratSends.flow {n : Nat} (h : s.ratSends n t) (d side : Nat) : t.flow d side = s.flow d side :=
  State.flow_of_frame h.frame (by decide) d side

variable (s) (d side e kind : Nat) (contents : List (Nat × Nat))

theorem State.ratSend_sends (typ : Nat) (body : Octets) : s.ratSends 1 (s.ratSend d side e typ kind body) :=
  ⟨((s.setRat_frame d side _).mono (by decide)).andThen (State.emit_frame _ _ _ _ _),
    (State.setRat_steady (RatDir.advance_settled _)).trans (.of_frame (State.emit_frame _ _ _ _ _)), rfl⟩

theorem State.ratReturn_sends : s.ratSends 1 (s.ratReturn d side e kind contents) := State.ratSend_sends ..

theorem State.ratForward_sends : s.ratSends 1 (s.ratForward d side e kind contents) := State.ratSend_sends ..

/-- A control word that is not answered goes out (R290). -/
theorem State.ratAsk_sends (he : neighbourDie d side = some e) (hlow : 1 ≤ (s.flow d side).asked)
    (hhigh : (s.flow d side).asked ≤ 3) : s.ratSends 1 (s.ratAsk d side) := by
  unfold State.ratAsk
  dsimp only
  rw [he]
  obtain h | h | h : (s.flow d side).asked = 1 ∨ (s.flow d side).asked = 2 ∨ (s.flow d side).asked = 3 := by omega
  all_goals rw [h]
  · exact s.ratReturn_sends ..
  · exact s.ratReturn_sends ..
  · exact s.ratForward_sends ..

end

/-! ### Acknowledgements (R291) -/

/-- A flow when what its receiver has in order is acknowledged. -/
def RatFlow.acked (f : RatFlow) (tick : Nat) : RatFlow :=
  let held := f.held.filter fun q => f.next ≤ q.1
  { f with held := held, replay := f.replay.filter fun q => f.next ≤ q.1,
           moved := if held.length = f.held.length then f.moved else tick }

theorem State.ratAcked_eq (s : State) (d side : Nat) :
    s.ratAcked d side = s.setFlow d side ((s.flow d side).acked s.tick) := rfl

theorem State.ratAcked_frame (s : State) (d side : Nat) : changesOnly [.flows] s (s.ratAcked d side) := s.setFlow_frame d side _

@[simp] theorem State.flow_ratAcked (s : State) (d side : Nat) :
    (s.ratAcked d side).flow d side = (s.flow d side).acked s.tick := State.flow_setFlow_same ..

/-! ### Retry and credit (R290 to R293, R303) -/

section
variable {s : State} {d side e : Nat} (hd : d < 16) (he : neighbourDie d side = some e)
include hd he

theorem exec_ratlineNak {n : Nat} {rest : List Nat} (hnaks : (s.flow d side).naks = n :: rest)
    (hcarries : (s.rat d side).carries = true) :
    let f := s.flow d side
    let held := f.held.filter fun q => n ≤ q.1
    exec (.ratlineNak d side) s = .next (s.setFlow d side
      { f with naks := rest, held := held, replay := held,
               moved := if held.length = f.held.length then f.moved else s.tick }) := by
  change execRatlineNak d side s = _
  unfold execRatlineNak
  rw [onDirection_eq hd he]
  dsimp only
  rw [hnaks, hcarries]
  rfl

theorem exec_ratlineCredit (hcarries : (s.rat d side).carries = true) :
    ∃ t, (s.setFlow d side { s.flow d side with known := (s.flow d side).freed }).ratSends 2 t ∧
      exec (.ratlineCredit d side) s = .next (t.ratAcked d side) := by
  change ∃ t, _ ∧ execRatlineCredit d side s = _
  unfold execRatlineCredit
  rw [onDirection_eq hd he]
  dsimp only
  rw [hcarries]
  exact ⟨_, (State.ratReturn_sends _ d side e 2 _).trans (State.ratReturn_sends _ d side e 2 _), rfl⟩

theorem exec_ratlineRetryTimeout (hcarries : (s.rat d side).carries = true) (hheld : (s.flow d side).held ≠ [])
    (hdue : (s.flow d side).moved + 50 ≤ s.tick) : exec (.ratlineRetryTimeout d side) s =
      .next ((s.setFlow d side { s.flow d side with moved := s.tick, replay := (s.flow d side).held }).climb 1) := by
  have hempty : (s.flow d side).held.isEmpty = false := by simpa using hheld
  change execRatlineRetryTimeout d side s = _
  unfold execRatlineRetryTimeout
  rw [onDirection_eq hd he]
  dsimp only
  rw [hcarries, hempty, decide_eq_true hdue]
  rfl

theorem exec_ratlineIdle (hcarries : (s.rat d side).carries = true) : exec (.ratlineIdle d side) s =
    .next ((s.ratSend d side e 1 1 ⟨0, 0⟩).ratAcked e (oppositeSide side)) := by
  change execRatlineIdle d side s = _
  unfold execRatlineIdle
  rw [onDirection_eq hd he, hcarries]
  rfl

theorem exec_ratlineControlResend (hasked : (s.flow d side).asked ≠ 0) :
    exec (.ratlineControlResend d side) s = .next (s.ratAsk d side) := by
  change execRatlineControlResend d side s = _
  unfold execRatlineControlResend
  rw [onDirection_eq hd he, bne_iff_ne.mpr hasked]
  rfl

end

/-- Flits that left, and then an acknowledgement that reached the sender of a direction. -/
theorem State.ratSends.acked {n : Nat} {s t : State} (h : s.ratSends n t) (d side : Nat) :
    (t.ratAcked d side).outbox.length = s.outbox.length + n ∧ ratsSteady s (t.ratAcked d side) ∧
      changesOnly [.flows, .rats, .outbox] s (t.ratAcked d side) :=
  ⟨h.sent, h.steady.trans (.of_frame (t.ratAcked_frame d side)),
    (h.frame.mono (by decide)).andThen (t.ratAcked_frame d side)⟩

/-- Settles O31: each command by the flow that it leaves and by what it sends (`State.ratSends`). -/
theorem ratlineRetry : Obligations.RatlineRetry := by
  intro s d side e hd he f b
  refine ⟨fun n rest hnaks hcarries => ?nak, fun hcarries => ?credit, fun hcarries hheld hdue => ?timeout,
    fun hcarries => ?idle, fun hlow hhigh => ?resend⟩
  case nak =>
    refine ⟨_, exec_ratlineNak hd he hnaks hcarries, ?_, ?_, ?_, s.setFlow_frame d side _⟩ <;> rw [State.flow_setFlow_same]
  case credit =>
    obtain ⟨t, hsends, hexec⟩ := exec_ratlineCredit hd he hcarries
    have hset := s.setFlow_frame d side { f with known := f.freed }
    obtain ⟨hsent, hsteady, hframe⟩ := hsends.acked d side
    refine ⟨_, hexec, ?_, ?_, hsent, (ratsSteady.of_frame hset).trans hsteady, (hset.mono (by decide)).trans hframe⟩
      <;> rw [State.flow_ratAcked, hsends.flow, State.flow_setFlow_same] <;> rfl
  case timeout =>
    have hset := s.setFlow_frame d side { f with moved := s.tick, replay := f.held }
    have hregs : registersBut [] s (s.setFlow d side { f with moved := s.tick, replay := f.held }) :=
      .of_dict (hset .dict (by decide))
    exact ⟨_, exec_ratlineRetryTimeout hd he hcarries hheld hdue, State.flow_setFlow_same ..,
      hregs.counts 1 (by decide) (by simp), (hregs.mono (by simp)).trans (State.climb_registers _ (by decide)),
      (hset.mono (by decide)).andThen (State.climb_frame _ 1)⟩
  case idle =>
    have hsends := s.ratSend_sends d side e 1 1 ⟨0, 0⟩
    refine ⟨_, exec_ratlineIdle hd he hcarries, ?_, hsends.acked e (oppositeSide side)⟩
    rw [State.flow_ratAcked, hsends.flow]
    rfl
  case resend =>
    have hsends := s.ratAsk_sends d side e he hlow hhigh
    exact ⟨_, exec_ratlineControlResend hd he (Nat.ne_of_gt hlow), hsends.sent, hsends.steady,
      hsends.frame.mono (by decide)⟩

end Sys2Proof.Machine

/-! SUPPORT. Data flits of the ratlines: the CRC of a flit that comes in whole, and what a receiver does with one (O32). -/

namespace Sys2Proof.Machine

-- One proof at a time: each waits for the lemmas that it rewrites by.
set_option Elab.async false

/-! ### The CRC and the number of a flit (Table 9.2) -/

theorem crcBitRef_lt {poly crc : Nat} (hpoly : poly < 2 ^ 32) (hcrc : crc < 2 ^ 32) (b : Bool) :
    crcBitRef poly crc b < 2 ^ 32 := by
  unfold crcBitRef
  refine Nat.xor_lt_two_pow (by omega) ?_
  split
  · exact hpoly
  · exact Nat.two_pow_pos 32

theorem crcLsb_lt {poly : Nat} (hpoly : poly < 2 ^ 32) (n : Nat) {v crc : Nat} (hcrc : crc < 2 ^ 32) :
    crcLsb poly n v crc < 2 ^ 32 := by
  induction n generalizing v crc with
  | zero => exact hcrc
  | succ n ih => exact ih (crcBitRef_lt hpoly hcrc _)

theorem crc32_lt (v n : Nat) : crc32 v n < 2 ^ 32 :=
  Nat.xor_lt_two_pow (crcLsb_lt (by decide) _ (by decide)) (by decide)

/-- A flit that comes in as it was sent passes its CRC. -/
theorem ratCrcOk_ratWord (vc typ num ack : Nat) (ackv : Bool) (fill body : Nat) :
    ratCrcOk (ratWord vc typ num ack ackv fill body) = true := by
  have hsplit (k front crc : Nat) (hfront : front < 2 ^ k) (hcrc : crc < 2 ^ 32) :
      (front + crc * 2 ^ k) % 2 ^ k = front ∧ (front + crc * 2 ^ k) / 2 ^ k % 2 ^ 32 = crc := by
    rw [Nat.add_mul_mod_self_right, Nat.mod_eq_of_lt hfront, Nat.add_mul_div_right _ _ (Nat.two_pow_pos k),
      Nat.div_eq_of_lt hfront, Nat.zero_add, Nat.mod_eq_of_lt hcrc]
    exact ⟨rfl, rfl⟩
  have hjoin (k head : Nat) (hhead : head < 2 ^ 32) : head + body % 2 ^ k * 2 ^ 32 < 2 ^ (k + 32) := by
    have hbody : body % 2 ^ k < 2 ^ k := Nat.mod_lt _ (Nat.two_pow_pos k)
    rw [Nat.pow_add]
    generalize body % 2 ^ k = b at hbody ⊢
    generalize 2 ^ k = m at hbody ⊢
    omega
  unfold ratCrcOk ratWord
  dsimp only
  refine beq_iff_eq.mpr ?_
  obtain ⟨hlow, hhigh⟩ := hsplit (448 + 32) _ _ (hjoin 448 (fill % 2 ^ 7 + (if ackv then 2 ^ 7 else 0) + ack % 2 ^ 9 * 2 ^ 8 +
    num % 2 ^ 9 * 2 ^ 17 + typ % 4 * 2 ^ 26 + vc % 16 * 2 ^ 28) (by split <;> omega)) (crc32_lt _ 60)
  exact (congrArg (crc32 · 60) hlow).trans hhigh.symm

/-- The number of a flit stands in its bits 17 to 25. -/
theorem field_ratWord (vc typ num ack : Nat) (ackv : Bool) (fill body : Nat) :
    field (ratWord vc typ num ack ackv fill body) 25 17 = num % 512 := by
  have hlow (low num high : Nat) (h : low < 2 ^ 17) : 
      (low + num % 2 ^ 9 * 2 ^ 17 + high * 2 ^ 26) / 2 ^ 17 % 2 ^ 9 = num % 2 ^ 9 := by
    omega
  rw [field, Nat.shiftRight_eq_div_pow]
  unfold ratWord
  dsimp only
  generalize crc32 _ 60 = crc
  refine Eq.trans (congrArg (fun w => w / 2 ^ 17 % 2 ^ 9) ?_)
    (hlow (fill % 2 ^ 7 + (if ackv then 2 ^ 7 else 0) + ack % 2 ^ 9 * 2 ^ 8) num
      (typ % 4 + vc % 16 * 2 ^ 2 + body % 2 ^ 448 * 2 ^ 6 + crc * 2 ^ 454) ?_)
  · rw [show 480 = 454 + 26 from rfl, Nat.pow_add]
    generalize (2 : Nat) ^ 454 = k
    generalize body % 2 ^ 448 = b
    ring
  · split <;> omega

/-! ### What a data flit leaves (R289 to R292) -/

/-- What the sender keeps of a flow. -/
def RatFlow.sending (f : RatFlow) : Nat × List (Nat × RatBody) × List (Nat × RatBody) := (f.sent, f.held, f.replay)

theorem RatFlow.sending_eq {f g : RatFlow} :
    f.sending = g.sending ↔ f.sent = g.sent ∧ f.held = g.held ∧ f.replay = g.replay := by
  simp [RatFlow.sending]

/-- The pieces that a data flit changes. -/
def flitPieces : List Piece := [.flows, .rats, .dict, .outbox]

/-- From `s` to `t` the receiver of direction `(d, side)` did its work with a flit: no direction changes its state, and what the
sender keeps stays. -/
structure State.ratTakes (d side : Nat) (s t : State) : Prop where
  frame : changesOnly flitPieces s t
  steady : ratsSteady s t
  sending : (t.flow d side).sending = (s.flow d side).sending

section
variable {d side : Nat} {s t u : State}

theorem State.ratTakes.trans (h : s.ratTakes d side t) (h' : t.ratTakes d side u) : s.ratTakes d side u :=
  ⟨h.frame.trans h'.frame, h.steady.trans h'.steady, h'.sending.trans h.sending⟩

/-- An operation that leaves directions and flows. -/
theorem State.ratTakes.of_frame {fs : List Piece} (h : changesOnly fs s t) (hfs : fs ⊆ flitPieces := by decide)
    (hr : Piece.rats ∉ fs := by decide) (hf : Piece.flows ∉ fs := by decide) : s.ratTakes d side t :=
  ⟨h.mono hfs, .of_frame h hr, by rw [State.flow_of_frame h hf]⟩

theorem State.ratTakes.of_setFlow (d' side' : Nat) {f : RatFlow} (hf : ratKey d side = ratKey d' side' →
    f.sending = (s.flow d side).sending) : s.ratTakes d side (s.setFlow d' side' f) := by
  refine ⟨(s.setFlow_frame d' side' f).mono (by decide), .of_frame (s.setFlow_frame d' side' f), ?_⟩
  rw [State.flow_setFlow]
  split
  · next h => exact hf h
  · rfl

theorem State.ratTakes.of_setRat {d' side' : Nat} {x : RatDir} (hx : x.settled = (s.rat d' side').settled) :
    s.ratTakes d side (s.setRat d' side' x) :=
  ⟨(s.setRat_frame d' side' x).mono (by decide), State.setRat_steady hx, rfl⟩

theorem State.ratSends.takes {n : Nat} (h : s.ratSends n t) : s.ratTakes d side t :=
  ⟨h.frame.mono (by decide), h.steady, by rw [h.flow]⟩

end

section
variable (s : State) (d side e n : Nat)

theorem State.ratCompare_takes : s.ratTakes d side (s.ratCompare d side n) :=
  (State.ratTakes.of_setRat (RatDir.foldl_charge_settled _ _)).trans (.of_setFlow d side fun _ => by rfl)

/-- Failed copies compared with a good one: of the flow only the note of them changes. -/
theorem State.flow_ratCompare : ∃ failed, (s.ratCompare d side n).flow d side = { s.flow d side with failed := failed } :=
  ⟨_, State.flow_setFlow_same ..⟩

theorem State.ratDiscard_takes : s.ratTakes d side (s.ratDiscard d side e) := by
  unfold State.ratDiscard
  dsimp only
  split
  · exact .of_frame (.refl [] s)
  · exact ((State.ratTakes.of_frame (s.climb_frame 1)).trans (.of_setFlow d side fun _ => by rfl)).trans
      (State.ratReturn_sends _ d side e 1 _).takes

/-- A discarded flit: the NAK of the expected one is on its way, once. -/
theorem State.flow_ratDiscard : (s.ratDiscard d side e).flow d side = { s.flow d side with
    nak := true
    naks := if (s.flow d side).nak then (s.flow d side).naks else (s.flow d side).naks ++ [(s.flow d side).next] } := by
  unfold State.ratDiscard
  dsimp only
  by_cases h : (s.flow d side).nak = true
  · rw [if_pos h, if_pos h, ← h]
  · rw [if_neg h, if_neg h, (State.ratReturn_sends ..).flow, State.flow_setFlow_same]

theorem State.ratDiscard_registers : registersBut [(0x7170, 1)] s (s.ratDiscard d side e) := by
  unfold State.ratDiscard
  dsimp only
  split
  · exact .refl _ s
  · exact (s.climb_registers (by decide)).trans (.of_dict ((State.ratReturn_sends _ d side e 1 _).frame .dict (by decide)))

end

/-- The bits of data flit `n` of direction `(d, side)` as they come in. -/
def State.ratArrival (s : State) (e side n : Nat) (b : RatBody) (flips : Nat) : Nat :=
  let back := s.flow e (oppositeSide side)
  ratFlit n (back.next + 511) (back.next != 0) b ^^^ flips % 2 ^ 512

section
variable (s : State) (d side e n : Nat) (b : RatBody) (flips : Nat)

/-- A flit whose CRC fails is counted, and those lanes are noted. -/
def State.ratBadFlit : State :=
  ((s.setRat d side (s.rat d side).advance).bump (0x4800 + d) (0x0D + side) 1).setFlow d side
    { s.flow d side with failed := (s.flow d side).failed ++ [(n, (s.rat d side).lanesOf flips)] }

/-- A flit whose CRC passes delivers its acknowledgement. -/
def State.ratGoodFlit : State :=
  ((s.setRat d side (s.rat d side).advance).ratCompare d side n).ratAcked e (oppositeSide side)

/-- A flit that is handed on: the receiver expects the one after it, and its buffer is freed. -/
def State.ratHandOn : State :=
  let g := s.flow d side
  let freed := FMap.set g.freed (ratClass b) 0 (FMap.get g.freed (ratClass b) 0 + 1)
  (s.setFlow d side { g with next := n + 1, nak := false, freed := freed }).emit .ratline (ratKey d side) 0
    ⟨b.fill, b.body % 2 ^ (8 * b.fill)⟩

/-- The receiver's side of a data flit, by its CRC and its number. -/
theorem State.ratReceive_eq : s.ratReceive d side e n b flips =
    if (!ratCrcOk (s.ratArrival e side n b flips)) = true then (s.ratBadFlit d side n flips).ratDiscard d side e
    else if n = (s.flow d side).next ∧ field (s.ratArrival e side n b flips) 25 17 = (s.flow d side).next % 512 then
      (s.ratGoodFlit d side e n).ratHandOn d side n b
    else if n < (s.flow d side).next then s.ratGoodFlit d side e n
    else (s.ratGoodFlit d side e n).ratDiscard d side e := rfl

theorem State.ratBadFlit_takes : s.ratTakes d side (s.ratBadFlit d side n flips) :=
  ((State.ratTakes.of_setRat (RatDir.advance_settled _)).trans (.of_frame (State.bump_frame _ _ _ _))).trans
    (.of_setFlow d side fun _ => by rfl)

theorem State.ratHandOn_takes : s.ratTakes d side (s.ratHandOn d side n b) :=
  (State.ratTakes.of_setFlow d side fun _ => by rfl).trans (.of_frame (State.emit_frame _ _ _ _ _))

theorem State.ratGoodFlit_takes (hkey : ratKey e (oppositeSide side) ≠ ratKey d side) :
    s.ratTakes d side (s.ratGoodFlit d side e n) :=
  ((State.ratTakes.of_setRat (RatDir.advance_settled _)).trans (State.ratCompare_takes _ d side n)).trans
    (.of_setFlow e _ fun h => absurd h.symm hkey)

theorem State.ratReceive_takes (hkey : ratKey e (oppositeSide side) ≠ ratKey d side) :
    s.ratTakes d side (s.ratReceive d side e n b flips) := by
  have hgood := s.ratGoodFlit_takes d side e n hkey
  rw [State.ratReceive_eq]
  split_ifs
  · exact (s.ratBadFlit_takes d side n flips).trans (State.ratDiscard_takes ..)
  · exact hgood.trans (State.ratHandOn_takes ..)
  · exact hgood
  · exact hgood.trans (State.ratDiscard_takes ..)

theorem State.ratGoodFlit_frame : changesOnly [.rats, .flows] s (s.ratGoodFlit d side e n) :=
  ((((s.setRat_frame d side _).mono (by decide)).andThen (State.setRat_frame _ d side _)).andThen
    (State.setFlow_frame _ d side _)).andThen (State.ratAcked_frame _ e (oppositeSide side))

theorem State.ratHandOn_frame : changesOnly [.flows, .outbox] s (s.ratHandOn d side n b) :=
  ((s.setFlow_frame d side _).mono (by decide)).andThen (State.emit_frame _ _ _ _ _)

/-- The receiver counts the flits that it discards, and the NAKs as recoveries. -/
theorem State.ratReceive_registers (hside : side < 4) :
    registersBut [(0x4800 + d, 0x0D + side), (0x7170, 1)] s (s.ratReceive d side e n b flips) := by
  have hgood : registersBut [] s (s.ratGoodFlit d side e n) := .of_dict (s.ratGoodFlit_frame d side e n .dict (by decide))
  have hbad : registersBut [(0x4800 + d, 0x0D + side)] s (s.ratBadFlit d side n flips) := by
    let t := s.setRat d side (s.rat d side).advance
    have hcount := t.bump_registers (i := 0x4800 + d) (j := 0x0D + side) 1 (by omega)
    exact (hcount.trans (.of_dict (State.setFlow_frame _ d side _ .dict (by decide))) :)
  rw [State.ratReceive_eq]
  split_ifs
  · exact (hbad.mono (by simp)).trans ((State.ratDiscard_registers _ d side e).mono (by simp))
  · exact (hgood.mono (by simp)).trans (.of_dict (State.ratHandOn_frame _ d side n b .dict (by decide)))
  · exact hgood.mono (by simp)
  · exact (hgood.mono (by simp)).trans ((State.ratDiscard_registers _ d side e).mono (by simp))

/-- Of the flow, a good flit changes the note of failed copies alone before it is handed on. -/
theorem State.flow_ratGoodFlit (hkey : ratKey e (oppositeSide side) ≠ ratKey d side) :
    ∃ failed, (s.ratGoodFlit d side e n).flow d side = { s.flow d side with failed := failed } := by
  obtain ⟨failed, h⟩ := (s.setRat d side (s.rat d side).advance).flow_ratCompare d side n
  exact ⟨failed, (State.flow_setFlow_other _ hkey.symm _).trans h⟩

/-- A flit that comes in as it was sent. -/
theorem State.ratArrival_whole : ratCrcOk (s.ratArrival e side n b 0) = true ∧
    field (s.ratArrival e side n b 0) 25 17 = n % 512 := by
  obtain ⟨ack, ackv, h⟩ : ∃ ack ackv, s.ratArrival e side n b 0 = ratFlit n ack ackv b :=
    ⟨_, _, by rw [State.ratArrival, Nat.zero_mod, Nat.xor_zero]⟩
  rw [h]
  exact ⟨ratCrcOk_ratWord .., field_ratWord ..⟩

end

/-- Flit `n` was handed on, and the receiver expects the next. -/
def State.ratHanded (s : State) (d side n : Nat) (b : RatBody) (u : State) : Prop :=
  (u.flow d side).next = n + 1 ∧ (u.flow d side).nak = false ∧
    u.outbox = ⟨.ratline, 4 * d + side, 0, ⟨b.fill, b.body % 2 ^ (8 * b.fill)⟩⟩ :: s.outbox

theorem State.ratHandOn_handed (s : State) (d side n : Nat) (b : RatBody) :
    s.ratHanded d side n b (s.ratHandOn d side n b) := by
  unfold State.ratHanded State.ratHandOn
  rw [State.flow_emit, State.flow_setFlow_same]
  exact ⟨rfl, rfl, rfl⟩

theorem State.ratHanded.of_outbox {s t u : State} {d side n : Nat} {b : RatBody} (h : t.ratHanded d side n b u)
    (hout : t.outbox = s.outbox) : s.ratHanded d side n b u := by
  rw [State.ratHanded, ← hout]
  exact h

section
variable {s : State} {d side e n flips : Nat} {b : RatBody}

/-- A flit whose CRC fails is discarded, counted, and asked for again once. -/
theorem State.ratReceive_bad (hside : side < 4) (hcrc : ratCrcOk (s.ratArrival e side n b flips) = false) :
    let f := s.flow d side
    let u := s.ratReceive d side e n b flips
    (u.flow d side).next = f.next ∧ (u.flow d side).nak = true ∧
      (u.flow d side).naks = (if f.nak then f.naks else f.naks ++ [f.next]) ∧ counts s u (0x4800 + d) (0x0D + side) 1 := by
  intro f u
  have hfails : (!ratCrcOk (s.ratArrival e side n b flips)) = true := by rw [hcrc]; rfl
  have hu : u = (s.ratBadFlit d side n flips).ratDiscard d side e := (s.ratReceive_eq d side e n b flips).trans (if_pos hfails)
  have hflow : (s.ratBadFlit d side n flips).flow d side =
      { f with failed := f.failed ++ [(n, (s.rat d side).lanesOf flips)] } := State.flow_setFlow_same ..
  have hcounts : counts s (s.ratBadFlit d side n flips) (0x4800 + d) (0x0D + side) 1 :=
    (State.bump_counts ..).of_dict rfl rfl
  rw [hu, State.flow_ratDiscard, hflow]
  exact ⟨rfl, rfl, rfl, hcounts.registersBut (State.ratDiscard_registers _ d side e) (by omega) (by simp; omega)⟩

/-- The flit expected, whole, is handed on. -/
theorem State.ratReceive_expected (hn : n = (s.flow d side).next) :
    s.ratHanded d side n b (s.ratReceive d side e n b 0) := by
  obtain ⟨hcrc, hfield⟩ := s.ratArrival_whole side e n b
  have hwhole : ¬(!ratCrcOk (s.ratArrival e side n b 0)) = true := by rw [hcrc]; decide
  have hnext : n = (s.flow d side).next ∧ field (s.ratArrival e side n b 0) 25 17 = (s.flow d side).next % 512 :=
    ⟨hn, by rw [hfield, hn]⟩
  rw [State.ratReceive_eq, if_neg hwhole, if_pos hnext]
  exact (State.ratHandOn_handed ..).of_outbox (s.ratGoodFlit_frame d side e n .outbox (by decide))

/-- One that came before, whole, changes nothing that the receiver expects. -/
theorem State.ratReceive_old (hkey : ratKey e (oppositeSide side) ≠ ratKey d side) (hn : n < (s.flow d side).next) :
    ((s.ratReceive d side e n b 0).flow d side).next = (s.flow d side).next ∧
      (s.ratReceive d side e n b 0).outbox = s.outbox := by
  obtain ⟨hcrc, -⟩ := s.ratArrival_whole side e n b
  have hwhole : ¬(!ratCrcOk (s.ratArrival e side n b 0)) = true := by rw [hcrc]; decide
  have hnext : ¬(n = (s.flow d side).next ∧ field (s.ratArrival e side n b 0) 25 17 = (s.flow d side).next % 512) :=
    fun h => Nat.ne_of_lt hn h.1
  obtain ⟨failed, hflow⟩ := s.flow_ratGoodFlit d side e n hkey
  rw [State.ratReceive_eq, if_neg hwhole, if_neg hnext, if_pos hn, hflow]
  exact ⟨rfl, s.ratGoodFlit_frame d side e n .outbox (by decide)⟩

end

/-! ### RATLINE_DATA_FLIT (R289, R291, R303) -/

/-- A new flit is held by its sender until it is acknowledged, and uses credit. -/
def State.ratHold (s : State) (d side : Nat) (b : RatBody) : State :=
  let f := s.flow d side
  s.setFlow d side { f with
    sent := f.sent + 1, held := f.held ++ [(f.sent, b)]
    used := FMap.set f.used (ratClass b) 0 (FMap.get f.used (ratClass b) 0 + 1)
    moved := if f.held.isEmpty then s.tick else f.moved }

/-- The next flit of a replay is counted. -/
def State.ratReplay (s : State) (d side : Nat) (rest : List (Nat × RatBody)) : State :=
  (s.setFlow d side { s.flow d side with replay := rest }).bump (0x4800 + d) (0x11 + side) 1

section
variable {s : State} {d side e flips : Nat} (hd : d < 16) (he : neighbourDie d side = some e)
include hd he

theorem exec_ratlineDataFlit_new {b : RatBody} (hreplay : (s.flow d side).replay = [])
    (hlink : s.val 0x4830 (linkOf d side + 1) ≠ 1) (hlive : (s.rat d side).live = true)
    (hroom : (s.flow d side).held.length < 256) (hcredit : (s.flow d side).credit b = true) (hvc : b.vc < 15) :
    exec (.ratlineDataFlit d side (some b) flips) s =
      .next ((s.ratHold d side b).ratReceive d side e (s.flow d side).sent b flips) := by
  change execRatlineDataFlit d side (some b) flips s = _
  unfold execRatlineDataFlit
  rw [onDirection_eq hd he]
  dsimp only
  rw [hreplay]
  dsimp only
  rw [hlive, bne_iff_ne.mpr hlink, decide_eq_true hroom, decide_eq_true hvc, hcredit]
  simp only [Bool.and_self, guardEvent_true]
  rw [State.ratHold, hreplay]

theorem exec_ratlineDataFlit_replay {n : Nat} {b : RatBody} {rest : List (Nat × RatBody)}
    (hreplay : (s.flow d side).replay = (n, b) :: rest) (hcarries : (s.rat d side).carries = true) :
    exec (.ratlineDataFlit d side none flips) s = .next ((s.ratReplay d side rest).ratReceive d side e n b flips) := by
  change execRatlineDataFlit d side none flips s = _
  unfold execRatlineDataFlit
  rw [onDirection_eq hd he]
  dsimp only
  rw [hreplay]
  dsimp only
  rw [hcarries, guardEvent_true]
  rfl

end

/-- From `s` to `t` the sender of a direction noted what it is about to send: for the receiver nothing changed, nor for the
direction back, and of the objects only one that is not the receiver's count. -/
structure State.ratOffers (d side e : Nat) (s t : State) : Prop where
  frame : changesOnly [.flows, .dict] s t
  registers : registersBut [(0x4800 + d, 0x11 + side)] s t
  back : t.flow e (oppositeSide side) = s.flow e (oppositeSide side)
  next : (t.flow d side).next = (s.flow d side).next
  nak : (t.flow d side).nak = (s.flow d side).nak
  naks : (t.flow d side).naks = (s.flow d side).naks

section
variable {s t : State} {d side e n flips : Nat} {b : RatBody} (hd : d < 16) (he : neighbourDie d side = some e)
include hd he

theorem State.ratHold_offers (s : State) (b : RatBody) : s.ratOffers d side e (s.ratHold d side b) := by
  have hflow : (s.ratHold d side b).flow d side = _ := State.flow_setFlow_same ..
  exact ⟨(s.setFlow_frame d side _).mono (by decide), .of_dict rfl, State.flow_setFlow_other s (ratKey_opposite_ne hd he) _,
    by rw [hflow], by rw [hflow], by rw [hflow]⟩

theorem State.ratReplay_offers (s : State) (rest : List (Nat × RatBody)) : s.ratOffers d side e (s.ratReplay d side rest) := by
  have hflow : (s.ratReplay d side rest).flow d side = _ := State.flow_setFlow_same ..
  obtain ⟨hside, -⟩ := neighbourDie_spec hd he
  exact ⟨((s.setFlow_frame d side _).mono (by decide)).andThen (State.bump_frame _ _ _ _),
    .trans (.of_dict rfl) (State.bump_registers _ 1 (by omega)), State.flow_setFlow_other s (ratKey_opposite_ne hd he) _,
    by rw [hflow], by rw [hflow], by rw [hflow]⟩

omit hd he in
theorem State.ratOffers.arrival (hoffer : s.ratOffers d side e t) :
    t.ratArrival e side n b flips = s.ratArrival e side n b flips := by
  rw [State.ratArrival, hoffer.back, ← State.ratArrival]

variable (hoffer : s.ratOffers d side e t)
include hoffer

/-- What the receiver's work leaves of what the sender keeps, of the directions and of everything else. -/
theorem State.ratOffers.receive_leaves :
    let u := t.ratReceive d side e n b flips
    (u.flow d side).sending = (t.flow d side).sending ∧ ratsSteady s u ∧ changesOnly flitPieces s u := by
  have htakes := t.ratReceive_takes d side e n b flips (ratKey_opposite_ne hd he)
  exact ⟨htakes.sending, (ratsSteady.of_frame hoffer.frame).trans htakes.steady,
    (hoffer.frame.mono (by decide)).trans htakes.frame⟩

theorem State.ratOffers.receive_bad (hcrc : ratCrcOk (s.ratArrival e side n b flips) = false) :
    let f := s.flow d side
    let u := t.ratReceive d side e n b flips
    (u.flow d side).next = f.next ∧ (u.flow d side).nak = true ∧
      (u.flow d side).naks = (if f.nak then f.naks else f.naks ++ [f.next]) ∧ counts s u (0x4800 + d) (0x0D + side) 1 := by
  obtain ⟨hside, -⟩ := neighbourDie_spec hd he
  have hval : t.val (0x4800 + d) (0x0D + side) = s.val (0x4800 + d) (0x0D + side) :=
    hoffer.registers.val (by omega) (by simp)
  rw [← hoffer.arrival] at hcrc
  obtain ⟨hnext, hnak, hnaks, hcounts⟩ := State.ratReceive_bad (d := d) hside hcrc
  rw [hoffer.nak, hoffer.naks, hoffer.next] at hnaks
  rw [counts, hval] at hcounts
  exact ⟨hnext.trans hoffer.next, hnak, hnaks, hcounts⟩

omit hd he in
theorem State.ratOffers.receive_expected (hflips : flips = 0) (hn : n = (s.flow d side).next) :
    s.ratHanded d side (s.flow d side).next b (t.ratReceive d side e n b flips) := by
  subst hflips hn
  exact (State.ratReceive_expected hoffer.next.symm).of_outbox (hoffer.frame .outbox (by decide))

theorem State.ratOffers.receive_old (hflips : flips = 0) (hn : n < (s.flow d side).next) :
    let u := t.ratReceive d side e n b flips
    (u.flow d side).next = (s.flow d side).next ∧ u.outbox = s.outbox := by
  subst hflips
  obtain ⟨hnext, hout⟩ := State.ratReceive_old (b := b) (ratKey_opposite_ne hd he) (hoffer.next.symm ▸ hn)
  exact ⟨hnext.trans hoffer.next, hout.trans (hoffer.frame .outbox (by decide))⟩

end

/-- Settles O32: the sender notes a new flit or the next of a replay (`State.ratOffers`), and the receiver does its work. -/
theorem ratlineDataFlits : Obligations.RatlineDataFlits := by
  intro s d side e flips hd he f back word handed bad good
  obtain ⟨hside, -⟩ := neighbourDie_spec hd he
  refine ⟨fun b hreplay hlink hlive hroom hcredit hvc => ?new, fun n b rest hreplay hcarries => ?again⟩
  case new =>
    have hoffer := State.ratHold_offers hd he s b
    have hflow : (s.ratHold d side b).flow d side = _ := State.flow_setFlow_same ..
    obtain ⟨hsending, hsteady, hframe⟩ := hoffer.receive_leaves hd he (n := f.sent) (b := b) (flips := flips)
    rw [hflow] at hsending
    obtain ⟨hsent, hheld, -⟩ := RatFlow.sending_eq.mp hsending
    exact ⟨_, exec_ratlineDataFlit_new hd he hreplay hlink hlive hroom hcredit hvc, hsent,
      hheld, hoffer.receive_bad hd he, hoffer.receive_expected, hsteady, hframe⟩
  case again =>
    have hoffer := State.ratReplay_offers hd he s rest
    have hflow : (s.ratReplay d side rest).flow d side = _ := State.flow_setFlow_same ..
    obtain ⟨hsending, hsteady, hframe⟩ := hoffer.receive_leaves hd he (n := n) (b := b) (flips := flips)
    rw [hflow] at hsending
    obtain ⟨hsent, -, hreplays⟩ := RatFlow.sending_eq.mp hsending
    have hcounted : counts s (s.ratReplay d side rest) (0x4800 + d) (0x11 + side) 1 := (State.bump_counts ..).of_dict rfl rfl
    exact ⟨_, exec_ratlineDataFlit_replay hd he hreplay hcarries, hsent, hreplays,
      hcounted.registersBut (State.ratReceive_registers _ d side e n b flips hside) (by omega) (by simp; omega),
      hoffer.receive_bad hd he, hoffer.receive_expected, hoffer.receive_old hd he, hsteady, hframe⟩

end Sys2Proof.Machine

/-! SUPPORT. What the traffic of an external port leaves as it was: what is sent, freed, sent elsewhere or lost with a port, and
the records and verdicts that follow (O33, O37).

`s.traffics may t` says that from `s` to `t` only `portPieces` changed, no object below 5000h, and of each port at most what it
sends and receives and its note of starvation; what a port holds for retry only where `may` names it. Each operation has one
lemma that says so, as the equation of `State.Led`: `simp` peels an operation's body from the outside by it. -/

namespace Sys2Proof.Machine

-- One proof at a time: each waits for the lemmas that it rewrites by.
set_option Elab.async false

/-! ### The relation -/

/-- A port after traffic; `may` says whether what it holds for retry may be another. -/
structure Port.steady (may : Prop) (x y : Port) : Prop where
  rest : y = { x with tx := y.tx, rx := y.rx, stalled := y.stalled }
  tagFail : y.rx.tagFail = x.rx.tagFail
  held : ¬may → y.tx.held = x.tx.held

section
variable {may : Prop} {x y z : Port}

@[simp] theorem Port.steady.refl (x : Port) : x.steady may x := ⟨rfl, rfl, fun _ => rfl⟩

theorem Port.steady.trans (h : x.steady may y) (h' : y.steady may z) : x.steady may z :=
  ⟨h'.rest.trans (by rw [h.rest]), h'.tagFail.trans h.tagFail, fun hm => (h'.held hm).trans (h.held hm)⟩

/-- A port put back with another state of what it sends and receives. -/
@[simp] theorem Port.steady_mk (x : Port) (tx : PortTx) (rx : PortRx) (stalled : Bool) :
    x.steady may { x with tx := tx, rx := rx, stalled := stalled } ↔
      rx.tagFail = x.rx.tagFail ∧ (¬may → tx.held = x.tx.held) :=
  ⟨fun h => ⟨h.tagFail, h.held⟩, fun h => ⟨rfl, h.1, h.2⟩⟩

end

/-- From `s` to `t` ports carried traffic: see above. -/
structure State.traffics (may : Nat → Prop) (s t : State) : Prop where
  frame : changesOnly portPieces s t
  objects : ∀ i j, i < 0x5000 → j < 256 → t.obj i j = s.obj i j
  ports : ∀ n, (s.port n).steady (may n) (t.port n)

/-- The relation under a name that no rule rewrites: what stands to the right of an `orElse`. -/
def State.trafficsElse (may : Nat → Prop) (s t : State) : Prop := s.traffics may t

/-- What traffic may have done from `ρ` to `s`, it may have done from `ρ` to `t`: an equation to rewrite by. -/
@[reducible] def State.Trafficked (may : Nat → Prop) (ρ s t : State) : Prop :=
  ρ.traffics may t = orElse (ρ.traffics may s) (ρ.trafficsElse may t)

theorem State.port_of_frame {fs : List Piece} {s t : State} (h : changesOnly fs s t) (hp : Piece.ports ∉ fs := by decide)
    (n : Nat) : t.port n = s.port n := by
  rw [State.port, h .ports hp]; rfl

theorem State.obj_of_frame {fs : List Piece} {s t : State} (h : changesOnly fs s t) (hd : Piece.dict ∉ fs := by decide)
    (i j : Nat) : t.obj i j = s.obj i j := by
  rw [State.obj, h .dict hd]; rfl

section
variable {may : Nat → Prop} {ρ s t u : State}

@[simp ↓] theorem State.traffics_refl (s : State) : s.traffics may s := ⟨.refl _ s, fun _ _ _ _ => rfl, fun _ => .refl _⟩

theorem State.traffics.trans (h : s.traffics may t) (h' : t.traffics may u) : s.traffics may u :=
  ⟨h.frame.trans h'.frame, fun i j hi hj => (h'.objects i j hi hj).trans (h.objects i j hi hj),
    fun n => (h.ports n).trans (h'.ports n)⟩

theorem State.trafficked_of (h : s.traffics may t) : State.Trafficked may ρ s t := by
  simpa [State.Trafficked, State.trafficsElse, orElse] using fun h' : ρ.traffics may s => h'.trans h

/-- An operation that leaves the ports and the dictionary. -/
theorem State.traffics_of_frame {fs : List Piece} (h : changesOnly fs s t) (hs : fs ⊆ portPieces := by decide)
    (hp : Piece.ports ∉ fs := by decide) (hd : Piece.dict ∉ fs := by decide) : s.traffics may t :=
  ⟨h.mono hs, fun i j _ _ => State.obj_of_frame h hd i j, fun n => by rw [State.port_of_frame h hp]; exact .refl _⟩

@[simp ↓] theorem State.mk_trafficked {free draws outbox rings limits sent sentNum} :
    State.Trafficked may ρ s
      { s with free := free, draws := draws, outbox := outbox, rings := rings, limits := limits, sent := sent,
               sentNum := sentNum } :=
  State.trafficked_of (State.traffics_of_frame (fs := [.free, .draws, .outbox, .rings, .limits, .sent, .sentNum])
    (fun f hf => by cases f <;> first | rfl | simp at hf))

@[simp ↓] theorem State.traffics_ite {c : Prop} [Decidable c] (s t u : State) :
    s.traffics may (if c then t else u) = if c then s.traffics may t else s.traffics may u := apply_ite ..

theorem State.foldl_traffics {β : Type} {f : State → β → State} (l : List β)
    (hf : ∀ (s : State) b, b ∈ l → s.traffics may (f s b)) (s : State) : s.traffics may (l.foldl f s) :=
  List.foldlRecOn (motive := fun t => s.traffics may t) l f s.traffics_refl fun t ht b hb => ht.trans (hf t b hb)

@[simp ↓] theorem State.foldl_trafficked {β : Type} (f : State → β → State) (hf : ∀ (s : State) b, s.traffics may (f s b))
    (l : List β) (s : State) : State.Trafficked may ρ s (l.foldl f s) :=
  State.trafficked_of (State.foldl_traffics l (fun s b _ => hf s b) s)

end

/-! ### Sending (R313, R314, R317, R318, R345) -/

section
variable {may : Nat → Prop} {ρ : State} (s : State) (p n vc cls kind : Nat) (q : Queued)

theorem State.setPort_traffics {x : Port} (hx : (s.port p).steady (may p) x) : s.traffics may (s.setPort p x) := by
  refine ⟨(s.setPort_frame p x).mono (by decide), fun _ _ _ _ => rfl, fun n => ?_⟩
  rw [State.port_setPort]
  split
  · next h => rw [h]; exact hx
  · exact .refl _

@[simp ↓] theorem State.setPort_trafficked {x : Port} (hx : (s.port p).steady (may p) x) :
    State.Trafficked may ρ s (s.setPort p x) := State.trafficked_of (s.setPort_traffics p hx)

@[simp ↓] theorem State.emit_trafficked (k : OutKind) (a b : Nat) (o : Octets) : State.Trafficked may ρ s (s.emit k a b o) :=
  State.trafficked_of (State.traffics_of_frame (s.emit_frame k a b o))

@[simp ↓] theorem State.post_trafficked (e : Event) : State.Trafficked may ρ s (s.post e) :=
  State.trafficked_of (State.traffics_of_frame (s.post_frame e))

@[simp ↓] theorem State.bump_trafficked {i j : Nat} (hi : 0x5000 ≤ i) (hj : j < 256) :
    State.Trafficked may ρ s (s.bump i j n) :=
  State.trafficked_of ⟨(s.bump_frame i j n).mono (by decide),
    fun k l hk hl => s.bump_registers n hj k l hl (by simp; omega), fun _ => .refl _⟩

@[simp ↓] theorem State.emitFlit_trafficked (f : StayFlit) : State.Trafficked may ρ s (s.emitFlit p f) :=
  State.trafficked_of (by simp [State.emitFlit])

@[simp ↓] theorem State.sendControl_trafficked (contents : Nat) : State.Trafficked may ρ s (s.sendControl p kind contents) :=
  State.trafficked_of (by simp [State.sendControl])

theorem State.grantShared_traffics : s.traffics may (s.grantShared p) := by
  unfold State.grantShared
  dsimp only
  split
  · exact s.traffics_refl
  · next vs _ =>
    refine State.setPort_traffics s p ⟨rfl, ?_, fun _ => rfl⟩
    dsimp only
    exact List.foldlRecOn (motive := fun r : PortRx => r.tagFail = (s.port p).rx.tagFail) _ _ rfl fun _ hr _ _ => hr

@[simp ↓] theorem State.grantShared_trafficked : State.Trafficked may ρ s (s.grantShared p) :=
  State.trafficked_of (s.grantShared_traffics p)

@[simp ↓] theorem State.freeCredit_trafficked : State.Trafficked may ρ s (s.freeCredit p vc cls n) :=
  State.trafficked_of (by simp [State.freeCredit, State.sendCredit])

theorem State.noteStarved_traffics : s.traffics may (s.noteStarved p) := by simp [State.noteStarved]

section
variable (hp : may p)
include hp

@[simp ↓] theorem State.sendPiece_trafficked : State.Trafficked may ρ s (s.sendPiece p q) :=
  State.trafficked_of (by simp [State.sendPiece, hp])

@[simp ↓] theorem State.sendFlit_trafficked : State.Trafficked may ρ s (s.sendFlit p q) :=
  State.trafficked_of (by simp [State.sendFlit, hp])

theorem State.pumpFrom_traffics (fuel : Nat) : s.traffics may (s.pumpFrom p fuel) := by
  induction fuel generalizing s with
  | zero => exact s.traffics_refl
  | succ fuel ih =>
    rw [State.pumpFrom]
    split
    · exact s.traffics_refl
    · refine State.traffics.trans ?_ (ih _)
      simp [hp]

@[simp ↓] theorem State.pump_trafficked : State.Trafficked may ρ s (s.pump p) :=
  State.trafficked_of ((s.pumpFrom_traffics p hp _).trans (State.noteStarved_traffics _ p))

@[simp ↓] theorem State.enqueue_trafficked (qs : List Queued) : State.Trafficked may ρ s (s.enqueue p qs) :=
  State.trafficked_of (by simp [State.enqueue, hp])

@[simp ↓] theorem State.sendPort_trafficked (msg : Octets) : State.Trafficked may ρ s (s.sendPort p vc msg) :=
  State.trafficked_of (by simp [State.sendPort, hp])

end

@[simp ↓] theorem State.sendTo_trafficked (hall : ∀ n, may n) (dst mark : Nat) (msg : Octets) :
    State.Trafficked may ρ s (s.sendTo vc dst mark msg) := by
  refine State.trafficked_of ?_
  unfold State.sendTo
  split <;> simp [hall]

end

/-! ### What a port loses (R331, R369, R471) -/

section
variable {may : Nat → Prop} {ρ : State} (s : State) (p k : Nat)

@[simp ↓] theorem State.postPort_trafficked (code : Nat) (detail : List (Nat × Nat)) :
    State.Trafficked may ρ s (s.postPort code p detail) := State.trafficked_of (by simp [State.postPort])

@[simp ↓] theorem State.climb_trafficked {level : Nat} (hlevel : level < 256) :
    State.Trafficked may ρ s (s.climb level) := State.trafficked_of (by simp [State.climb, hlevel])

@[simp ↓] theorem State.postCompound_trafficked (kind num : Nat) (e : FaultPair) :
    State.Trafficked may ρ s (s.postCompound kind num e) := State.trafficked_of (by simp [State.postCompound])

@[simp ↓] theorem State.readmit_trafficked : State.Trafficked may ρ s s.readmit :=
  State.trafficked_of ⟨s.readmit_frame.mono (by decide), fun i j hi hj => s.readmit_obj (.inl (by omega)) hj,
    fun n => by rw [State.port_of_frame s.readmit_frame]; exact .refl _⟩

/-- Flits of port `p` that go elsewhere leave by other ports. -/
@[simp ↓] theorem State.rerouteQueue_trafficked (hothers : ∀ n, n ≠ p → may n) :
    State.Trafficked may ρ s (s.rerouteQueue p) := by
  refine State.trafficked_of ?_
  unfold State.rerouteQueue
  dsimp only
  refine State.traffics.trans (State.traffics.trans (s.setPort_traffics p ?_) (State.foldl_traffics _ ?_ _))
    (State.noteStarved_traffics _ p)
  · simp
  intro t e he
  obtain ⟨q, -, hq⟩ := List.mem_filterMap.mp he
  obtain ⟨o, ho, rfl⟩ := Option.map_eq_some_iff.mp hq
  have hne : o.1 ≠ p := by
    split_ifs at ho
    split at ho
    · split_ifs at ho with hop
      obtain rfl := Option.some.inj ho
      exact hop
    · cases ho
  simp [hothers _ hne]

@[simp ↓] theorem State.cutMessage_trafficked (lock : Nat) : State.Trafficked may ρ s (s.cutMessage p k lock) :=
  State.trafficked_of (by simp [State.cutMessage])

section
variable (hall : ∀ n, may n)
include hall

@[simp ↓] theorem State.failRequest_trafficked (kind tid src : Nat) :
    State.Trafficked may ρ s (s.failRequest kind tid src) := State.trafficked_of (by simp [State.failRequest, hall])

@[simp ↓] theorem State.loseChunk_trafficked (mark : Nat) : State.Trafficked may ρ s (s.loseChunk p mark) := by
  refine State.trafficked_of ?_
  unfold State.loseChunk
  split <;> simp [State.sendChunk, hall]

@[simp ↓] theorem State.loseHeld_trafficked : State.Trafficked may ρ s (s.loseHeld p) :=
  State.trafficked_of (by simp [State.loseHeld, hall])

end
/-- A port of which the messages that came in by port `p` end. -/
def Port.released (p : Nat) (x : Port) : Port :=
  let queue := dropOpen p x.tx.queue
  let ended := fun (l : Nat × Nat) => (l.2 - 1) / 4 == p &&
    !(queue.any fun q => q.inp == p && q.flit.vc == l.1 / 4 && q.inCls == (l.2 - 1) % 4)
  { x with tx := { x.tx with
      queue := queue
      lock := x.tx.lock.filter fun l => !ended l
      spill := x.tx.spill.filter fun b => !(x.tx.lock.any fun l => l.1 == b.1 && ended l) } }

theorem State.port_releaseLocks (n : Nat) : (s.releaseLocks p).port n = (s.port n).released p :=
  FMap.get_map (fun _ => Port.released p) (fun _ => rfl) s.ports n

theorem State.releaseLocks_traffics : s.traffics may (s.releaseLocks p) := by
  refine ⟨fun f hf => by cases f <;> first | rfl | exact absurd (by decide) hf, fun _ _ _ _ => rfl, fun n => ?_⟩
  rw [State.port_releaseLocks]
  simp [Port.released]

end

/-! ### Work on a port: traffic, and the port put back -/

/-- From `s` to `t` only `portPieces` changed, and no object below 5000h. -/
structure State.portWork (s t : State) : Prop where
  frame : changesOnly portPieces s t
  objects : ∀ i j, i < 0x5000 → j < 256 → t.obj i j = s.obj i j

section
variable {may : Nat → Prop} {s t u : State}

theorem State.portWork.trans (h : s.portWork t) (h' : t.portWork u) : s.portWork u :=
  ⟨h.frame.trans h'.frame, fun i j hi hj => (h'.objects i j hi hj).trans (h.objects i j hi hj)⟩

theorem State.portWork.refl (s : State) : s.portWork s := ⟨.refl _ s, fun _ _ _ _ => rfl⟩

theorem State.portWork.ite {c : Prop} [Decidable c] (ht : s.portWork t) (hu : s.portWork u) :
    s.portWork (if c then t else u) := by
  split <;> assumption

theorem State.traffics.work (h : s.traffics may t) : s.portWork t := ⟨h.frame, h.objects⟩

theorem State.portWork.val (h : s.portWork t) {i j : Nat} (hi : i < 0x5000) (hj : j < 256) : t.val i j = s.val i j :=
  congrArg Octets.bits (h.objects i j hi hj)

theorem State.traffics.link (h : s.traffics may t) (n : Nat) : (t.port n).link = (s.port n).link := by rw [(h.ports n).rest]

theorem State.traffics.ask (h : s.traffics may t) (n : Nat) : (t.port n).ask = (s.port n).ask := by rw [(h.ports n).rest]

end

section
variable (s : State) (p : Nat)

theorem State.setPort_work (x : Port) : s.portWork (s.setPort p x) :=
  ⟨(s.setPort_frame p x).mono (by decide), fun _ _ _ _ => rfl⟩

theorem State.setLink_work (l : PortLink) : s.portWork (s.setLink p l) := s.setPort_work p _

theorem State.portGo_work (st : Nat) : s.portWork (s.portGo p st) := s.setPort_work p _

@[simp] theorem State.port_setLink (l : PortLink) : (s.setLink p l).port p = { s.port p with link := l } :=
  State.port_setPort_same ..

@[simp] theorem State.port_portGo (st : Nat) :
    (s.portGo p st).port p = { s.port p with link := { (s.port p).link with st := st }, since := s.tick } :=
  State.port_setPort_same ..

/-! ### A port that falls back or fails (R331, R333) -/

/-- The port after what it held is lost. -/
def Port.fallen (x : Port) (st : Nat) (clear : Bool) (tick : Nat) : Port :=
  { link := { st := st, retired := if clear then 0 else x.link.retired }, tx := { queue := x.tx.queue }, since := tick,
    heard := x.heard, stalled := x.stalled, fecAt := x.fecAt, tagAt := x.tagAt }

/-- What a port held is lost, and then the port is put back as it falls. -/
theorem State.portFalls_eq (st : Nat) (clear : Bool) : ∃ t, s.traffics (fun _ => True) t ∧
    s.portFalls p st clear = (t.setPort p ((t.port p).fallen st clear t.tick)).rerouteQueue p :=
  ⟨_, State.traffics.trans (by simp) (State.releaseLocks_traffics _ p), rfl⟩

theorem State.portFalls_work (st : Nat) (clear : Bool) : s.portWork (s.portFalls p st clear) := by
  obtain ⟨t, ht, he⟩ := s.portFalls_eq p st clear
  have hreroute (u : State) : u.traffics (fun _ => True) (u.rerouteQueue p) := by simp
  exact he ▸ (ht.work.trans (t.setPort_work p _)).trans (hreroute _).work

theorem State.portFalls_link (st : Nat) (clear : Bool) : ((s.portFalls p st clear).port p).link =
    { st := st, retired := if clear then 0 else (s.port p).link.retired } := by
  obtain ⟨t, ht, he⟩ := s.portFalls_eq p st clear
  have hreroute (u : State) : u.traffics (fun _ => True) (u.rerouteQueue p) := by simp
  rw [he, (hreroute _).link, State.port_setPort_same, Port.fallen, ht.link]

/-- What comes before a port that fails goes Down: the record of the recovery and the event. -/
theorem State.portFails_eq (cause : Nat) : ∃ t, s.traffics (fun _ => True) t ∧
    s.portFails p cause = t.portFalls p portDown false := ⟨_, by simp, rfl⟩

theorem State.portFails_work (cause : Nat) : s.portWork (s.portFails p cause) := by
  obtain ⟨t, ht, he⟩ := s.portFails_eq p cause
  exact he ▸ ht.work.trans (t.portFalls_work p _ _)

theorem State.portFails_link (cause : Nat) :
    ((s.portFails p cause).port p).link = { st := portDown, retired := (s.port p).link.retired } := by
  obtain ⟨t, ht, he⟩ := s.portFails_eq p cause
  rw [he, State.portFalls_link, ht.link]
  rfl

theorem State.readmit_work : s.portWork s.readmit :=
  ⟨s.readmit_frame.mono (by decide), fun i j hi hj => s.readmit_obj (.inl (by omega)) hj⟩

@[simp] theorem State.port_readmit : s.readmit.port p = s.port p := State.port_of_frame s.readmit_frame (by decide) p

/-! ### Lanes that are retired (R333, R334) -/

/-- The physical part of a port in Retrain. -/
def PortLink.retraining (l : PortLink) : PortLink :=
  { l with st := portRetrain, oldW := if l.oldW = 0 then l.width else l.oldW }

/-- A port goes into Retrain, and its width word goes out. -/
theorem State.retrain_eq : ∃ t, s.portWork t ∧ (t.port p).link = (s.port p).link.retraining ∧
    t.traffics (fun _ => True) (s.retrain p) := by
  have hsend (u : State) (c : Nat) : u.traffics (fun _ => True) (u.sendControl p 3 c) := by simp
  unfold State.retrain
  exact ⟨_, ((s.setLink_work p _).trans (State.portGo_work _ p _)).trans (State.setPort_work _ p _),
    by simp [PortLink.retraining], hsend _ _⟩

theorem State.retrain_work : s.portWork (s.retrain p) := by
  obtain ⟨t, ht, -, hsend⟩ := s.retrain_eq p
  exact ht.trans hsend.work

theorem State.retrain_link : ((s.retrain p).port p).link = (s.port p).link.retraining := by
  obtain ⟨t, -, hlink, hsend⟩ := s.retrain_eq p
  rw [hsend.link, hlink]

/-- What a port's lanes that are lost leave of its physical part: it retrains, or it is Down. -/
theorem State.dropLanes_link : ((s.dropLanes p).port p).link = { st := portDown, retired := (s.port p).link.retired } ∨
    ((s.dropLanes p).port p).link = (s.port p).link.retraining := by
  unfold State.dropLanes
  split
  · rw [State.port_readmit, State.portFails_link]
    exact .inl rfl
  · rw [State.retrain_link]
    exact .inr rfl

theorem State.dropLanes_work : s.portWork (s.dropLanes p) := by
  unfold State.dropLanes
  split
  · exact (s.portFails_work p 1).trans (State.readmit_work _)
  · have hclimb : s.traffics (fun _ => True) (s.climb 3) := by simp
    exact hclimb.work.trans (State.retrain_work _ p)

theorem State.lanesLost_work : s.portWork (s.lanesLost p) := by
  have hpairs (u : State) (es : List FaultPair) :
      u.traffics (fun _ => True) (es.foldl (fun s e => s.postCompound 4 p e) u) := by simp
  have hdrop (x : Port) : s.portWork ((s.setPort p x).dropLanes p) := (s.setPort_work p x).trans (State.dropLanes_work _ p)
  exact .ite (.ite ((hdrop _).trans (hpairs _ _).work) (hdrop _)) (.ite (hdrop _) (.refl s))

theorem State.loseDieLanes_work (d : Nat) : s.portWork (s.loseDieLanes d) :=
  List.foldlRecOn (motive := s.portWork) _ _ (.refl s) fun t ht q _ => ht.trans (t.lanesLost_work q)

/-! ### Quarantine (R328, R335) -/

/-- A port as it goes into quarantine. -/
def Port.shunned (x : Port) (cause tick : Nat) : Port :=
  { x with link := { x.link with st := portQuarantined, cause := cause, keep := false }, since := tick }

/-- A port goes into quarantine: what a retraining had kept is lost, and what waits to leave is sent elsewhere. -/
theorem State.quarantine_eq (cause : Nat) (h : (s.port p).link.st ≠ portQuarantined) : ∃ t u,
    s.traffics (fun _ => True) t ∧ t.portWork u ∧ u.port p = (t.port p).shunned cause t.tick ∧
      u.traffics (fun _ => True) (s.quarantine p cause) := by
  have hkeep : s.traffics (fun _ => True) (if (s.port p).link.keep then s.loseHeld p else s) := by
    split <;> simp
  have hlast (u : State) (code : Nat) (detail : List (Nat × Nat)) (c : Prop) [Decidable c] : u.traffics (fun _ => True)
      (if c then ((u.postPort code p detail).rerouteQueue p).readmit else (u.postPort code p detail).rerouteQueue p) := by
    split <;> simp
  unfold State.quarantine
  dsimp only
  rw [if_neg fun hc => h hc.1]
  exact ⟨_, _, hkeep, (State.portGo_work _ p _).trans (State.setLink_work _ p _),
    by rw [State.port_setLink, State.port_portGo]; rfl, hlast _ _ _ _⟩

theorem State.quarantine_work (cause : Nat) (h : (s.port p).link.st ≠ portQuarantined) :
    s.portWork (s.quarantine p cause) := by
  obtain ⟨t, u, ht, hu, -, hlast⟩ := s.quarantine_eq p cause h
  exact (ht.work.trans hu).trans hlast.work

/-- What quarantine leaves of the port. -/
theorem State.quarantine_port (cause : Nat) (h : (s.port p).link.st ≠ portQuarantined) :
    let y := (s.quarantine p cause).port p
    y.link.st = portQuarantined ∧ y.link.cause = cause ∧ y.rx.tagFail = (s.port p).rx.tagFail ∧
      y.tagAt = (s.port p).tagAt := by
  obtain ⟨t, u, ht, -, hu, hlast⟩ := s.quarantine_eq p cause h
  refine ⟨?_, ?_, ?_, ?_⟩
  · rw [hlast.link, hu]; rfl
  · rw [hlast.link, hu]; rfl
  · rw [(hlast.ports p).tagFail, hu]; exact (ht.ports p).tagFail
  · rw [(hlast.ports p).rest, hu]; dsimp only [Port.shunned]; rw [(ht.ports p).rest]

end
end Sys2Proof.Machine

/-! SUPPORT. The timers of an external port, its windows, and how it leaves service and comes back (O37). -/

namespace Sys2Proof.Machine

-- One proof at a time: each waits for the lemmas that it rewrites by.
set_option Elab.async false

/-! ### Control words that go out again (R290) -/

/-- A port that sent so many control words. -/
def Port.controlled (x : Port) (n : Nat) : Port := { x with tx := { x.tx with ctl := x.tx.ctl + n } }

/-- From `s` to `t` port `p` sent so many control words. -/
structure State.controls (p n : Nat) (s t : State) : Prop where
  port : t.port p = (s.port p).controlled n
  sent : t.outbox.length = s.outbox.length + n
  frame : changesOnly [.ports, .outbox] s t

section
variable {s t u : State} {p m n : Nat}

theorem State.controls.trans (h : s.controls p m t) (h' : t.controls p n u) : s.controls p (m + n) u := by
  refine ⟨?_, ?_, h.frame.trans h'.frame⟩
  · rw [h'.port, h.port]
    simp [Port.controlled, Nat.add_assoc]
  · rw [h'.sent, h.sent, Nat.add_assoc]

theorem State.sendControl_controls (s : State) (p kind contents : Nat) : s.controls p 1 (s.sendControl p kind contents) :=
  ⟨State.port_setPort_same .., rfl, s.sendControl_sends p kind contents⟩

/-- A control word that goes out where it is asked for. -/
theorem State.controls.iff {c : Prop} [Decidable c] (h : s.controls p 1 t) :
    s.controls p (if c then 1 else 0) (if c then t else s) := by
  split
  · exact h
  · exact ⟨rfl, rfl, .refl _ s⟩

/-- Every unanswered control word of a port goes out again. -/
theorem exec_stayControlResend (hp : p < 7) (s : State) : ∃ u, s.controls p (popCount (s.port p).ask 3) u ∧
    exec (.stayControlResend p) s = .next u := by
  change ∃ u, _ ∧ execStayControlResend p s = _
  unfold execStayControlResend
  rw [onPort_eq hp]
  refine ⟨_, ?_, rfl⟩
  have hcount : popCount (s.port p).ask 3 = (if bitOf (s.port p).ask 0 then 1 else 0) +
      (if bitOf (s.port p).ask 1 then 1 else 0) + (if bitOf (s.port p).ask 2 then 1 else 0) := by
    simp only [popCount, Nat.zero_add]
    rfl
  rw [hcount]
  exact ((s.sendControl_controls p 3 _).iff.trans (State.sendControl_controls _ p 4 0).iff).trans
    (State.sendControl_controls _ p 5 _).iff

end

/-! ### Retry (R317) -/

/-- What a replay of all that port `x` holds sends: in bring-up and quarantine only what the state lets out. -/
def Port.replays (x : Port) : List (Nat × Queued) :=
  x.tx.held.filter fun q => decide (portRetrain ≤ x.link.st) || stateAllows x.link.st q.2

/-- The port after a replay of all that it holds. -/
def Port.retried (x : Port) (tick : Nat) : Port := { x with tx := { x.tx with moved := tick, tries := x.tx.tries + 1 } }

/-- A replay of all that a port holds, sent. -/
theorem State.replayFrom_zero (s : State) (p : Nat) : ∃ t, s.replayFrom p 0 = t ∧
    changesOnly [.outbox] (s.bump (0x4010 + p) 0xD (s.port p).replays.length) t := by
  unfold State.replayFrom
  simp only [Nat.zero_le, decide_true, Bool.true_and]
  exact ⟨_, rfl, changesOnly.foldl _ (fun t q => t.emit_frame _ _ _ _) _ _⟩

section
variable {s : State} {p : Nat} (hp : p < 7) (hcarries : (s.port p).carries = true) (hheld : (s.port p).tx.held ≠ [])
  (hlate : (s.port p).tx.moved + 100 ≤ s.tick)
include hp hcarries hheld hlate

/-- What the timeout of a port runs: the recovery is counted, and what is held is replayed from number 0. -/
theorem exec_stayRetryTimeout : exec (.stayRetryTimeout p) s =
    .next (((s.setPort p { s.port p with tx := { (s.port p).tx with moved := s.tick } }).climb 1).replay p 0) := by
  have hempty : (s.port p).tx.held.isEmpty = false := by simpa using hheld
  change execStayRetryTimeout p s = _
  unfold execStayRetryTimeout
  rw [onPort_eq hp]
  dsimp only
  rw [hcarries, hempty, decide_eq_true hlate]
  rfl

end

/-- Where the oldest flit was not replayed 16 times, or the port does not train again, the replay counts its try. -/
theorem State.replay_zero {s : State} {p : Nat} (hheld : (s.port p).tx.held ≠ [])
    (hgoes : (s.port p).tx.tries < 16 ∨ (s.port p).link.st = portQuarantined ∨ portDown ≤ (s.port p).link.st) :
    s.replay p 0 =
      (s.setPort p { s.port p with tx := { (s.port p).tx with tries := (s.port p).tx.tries + 1 } }).replayFrom p 0 := by
  obtain ⟨q, qs, hq⟩ := List.exists_cons_of_ne_nil hheld
  unfold State.replay
  dsimp only
  rw [hq]
  dsimp only
  rw [if_neg (by rintro ⟨-, htries, hst, hdown⟩; omega)]
  simp

/-- Where it was, and the port is in service, it trains again. -/
theorem State.replay_zero_worn {s : State} {p : Nat} (hheld : (s.port p).tx.held ≠ [])
    (hworn : ¬((s.port p).tx.tries < 16 ∨ (s.port p).link.st = portQuarantined ∨ portDown ≤ (s.port p).link.st)) :
    s.replay p 0 = s.retrainKept p := by
  obtain ⟨q, qs, hq⟩ := List.exists_cons_of_ne_nil hheld
  obtain ⟨htries, hst, hdown⟩ : 16 ≤ (s.port p).tx.tries ∧ (s.port p).link.st ≠ portQuarantined ∧
      (s.port p).link.st < portDown := by
    simpa [not_or] using hworn
  unfold State.replay
  dsimp only
  rw [hq]
  exact if_pos ⟨decide_eq_true (Nat.zero_le q.1), htries, hst, hdown⟩

/-- A port that trains again with what it holds kept. -/
def Port.kept (x : Port) (tick : Nat) : Port :=
  { x with link := { x.link with st := portElectrical, keep := true, kept := x.peer.digest, trials := 0, slow := false },
           tx := { x.tx with tries := 0, moved := tick }, keys := { epoch := 0 }, since := tick }

theorem State.retrainKept_eq (s : State) (p : Nat) : ∃ t, s.portWork t ∧ t.port p = (s.port p).kept s.tick ∧
    t.traffics (· ≠ p) (s.retrainKept p) := by
  have hclimb : s.traffics (fun _ => True) (s.climb 3) := by simp
  have hlast (u : State) : u.traffics (· ≠ p) (u.rerouteQueue p).readmit := by simp
  exact ⟨_, (hclimb.work.trans (State.setPort_work _ p _)).trans (State.portGo_work _ p _),
    by rw [State.port_portGo, State.port_setPort_same]; rfl, hlast _⟩

section
variable {s : State} {p : Nat} (hp : p < 7)
  (hlate : (s.port p).carries = true ∧ (s.port p).tx.held ≠ [] ∧ (s.port p).tx.moved + 100 ≤ s.tick)
include hp hlate

/-- A timeout that replays what is held. -/
theorem stayRetryTimeout_goesOn (hgoes : (s.port p).tx.tries < 16 ∨ (s.port p).link.st = portQuarantined ∨
      portDown ≤ (s.port p).link.st) :
    ∃ u, exec (.stayRetryTimeout p) s = .next u ∧ u.port p = (s.port p).retried s.tick ∧ counts s u 0x7170 1 1 ∧
      counts s u (0x4010 + p) 0xD (s.port p).replays.length ∧ registersBut [(0x7170, 1), (0x4010 + p, 0xD)] s u ∧
      changesOnly [.ports, .outbox, .dict] s u := by
  obtain ⟨hcarries, hheld, hmoved⟩ := hlate
  let y : Port := { s.port p with tx := { (s.port p).tx with moved := s.tick } }
  let t := (s.setPort p y).climb 1
  have hty : t.port p = y := State.port_setPort_same ..
  let r := t.setPort p { t.port p with tx := { (t.port p).tx with tries := (t.port p).tx.tries + 1 } }
  have hry : r.port p = (s.port p).retried s.tick := by
    rw [State.port_setPort_same, hty]; rfl
  obtain ⟨u, hu, hframe⟩ := r.replayFrom_zero p
  rw [hry] at hframe
  have hreplays : ((s.port p).retried s.tick).replays = (s.port p).replays := rfl
  rw [hreplays] at hframe
  have hclimb : registersBut [(0x7170, 1)] s r := State.climb_registers (s.setPort p y) (level := 1) (by decide)
  have hbump : registersBut [(0x4010 + p, 0xD)] r u :=
    (r.bump_registers (i := 0x4010 + p) (j := 0xD) _ (by decide)).trans (.of_dict (hframe .dict (by decide)))
  refine ⟨u, ?_, ?_, ?_, ?_, (hclimb.mono (by simp)).trans (hbump.mono (by simp)), ?_⟩
  · rw [exec_stayRetryTimeout hp hcarries hheld hmoved, ← hu]
    exact congrArg _ (State.replay_zero (s := t) (by rw [hty]; exact hheld) (by rw [hty]; exact hgoes))
  · rw [State.port_of_frame hframe]
    exact hry
  · have hcount : counts s r 0x7170 1 1 := State.bump_counts (s.setPort p y) 0x7170 1 1
    exact hcount.registersBut hbump (by decide) (by simp)
  · exact (hclimb.counts (i := 0x4010 + p) (j := 0xD) (s.port p).replays.length (by decide) (by simp)).of_dict
      rfl (hframe .dict (by decide))
  · have hset : changesOnly [.ports, .outbox, .dict] s r :=
      (((s.setPort_frame p y).mono (by decide)).andThen (State.climb_frame _ 1)).andThen (State.setPort_frame _ p _)
    exact (hset.andThen (State.bump_frame _ _ _ _)).andThen hframe

/-- A timeout after 16 replays of the oldest flit. -/
theorem stayRetryTimeout_worn (hworn : ¬((s.port p).tx.tries < 16 ∨ (s.port p).link.st = portQuarantined ∨
      portDown ≤ (s.port p).link.st)) :
    ∃ u, exec (.stayRetryTimeout p) s = .next u ∧ u.portState p = portElectrical ∧
      (u.port p).tx.held = (s.port p).tx.held ∧ (u.port p).link.keep = true ∧
      (u.port p).link.kept = (s.port p).peer.digest ∧ changesOnly portPieces s u := by
  obtain ⟨hcarries, hheld, hmoved⟩ := hlate
  let y : Port := { s.port p with tx := { (s.port p).tx with moved := s.tick } }
  let t := (s.setPort p y).climb 1
  have hty : t.port p = y := State.port_setPort_same ..
  have ht : changesOnly portPieces s t := ((s.setPort_frame p y).mono (by decide)).andThen (State.climb_frame _ 1)
  obtain ⟨u, hwork, hport, hlast⟩ := t.retrainKept_eq p
  have hlink : ((t.retrainKept p).port p).link = ((s.port p).kept t.tick).link := by rw [hlast.link, hport, hty]; rfl
  refine ⟨t.retrainKept p, ?_, ?_, ?_, ?_, ?_, (ht.trans hwork.frame).trans hlast.frame⟩
  · rw [exec_stayRetryTimeout hp hcarries hheld hmoved]
    exact congrArg _ (State.replay_zero_worn (s := t) (by rw [hty]; exact hheld) (by rw [hty]; exact hworn))
  · exact congrArg PortLink.st hlink
  · rw [(hlast.ports p).held (by simp), hport, hty]; rfl
  · rw [hlink]; rfl
  · rw [hlink]; rfl

end

/-! ### Keys that are due, channels without credit (R316, R332) -/

/-- A new agreement begins: its secret is drawn, and KEYING goes out under its epoch. -/
theorem State.sendKeying_eq (s : State) (p epoch : Nat) : ∃ t n,
    t.port p = { s.port p with keys := { (s.port p).keys with secret := n, epoch := epoch } } ∧
    changesOnly [.ports, .draws] s t ∧ t.traffics (fun _ => True) (s.sendKeying p epoch) ∧
    changesOnly sendPieces t (s.sendKeying p epoch) := by
  have hsend (u : State) (msg : Octets) : u.traffics (fun _ => True) (u.sendPort p 0 msg) := by simp
  unfold State.sendKeying
  exact ⟨_, _, State.port_setPort_same .., ((s.draw_frame 448).mono (by decide)).andThen (State.setPort_frame _ p _),
    hsend _ _, State.sendPort_sends _ _ _ _⟩

theorem stayKeyRefresh_due {s : State} {p : Nat} (hp : p < 7) (hlive : (s.port p).link.st = portLive)
    (htagged : (s.port p).tagged = true) (hasked : (s.port p).keys.asked = false)
    (hdue : (s.port p).keys.flits + 2 ^ 40 ≤ (s.port p).tx.next + (s.port p).rx.next ∨
      (s.port p).keys.keyed + 2160000000000 ≤ s.tick) :
    ∃ u, exec (.stayKeyRefresh p) s = .next u ∧ (u.port p).keys.asked = true ∧
      (u.port p).keys.epoch = (s.port p).keys.epoch + 1 ∧ u.portState p = portLive ∧
      changesOnly [.ports, .draws, .outbox] s u := by
  let y : Port := { s.port p with keys := { (s.port p).keys with asked := true } }
  have hy : (s.setPort p y).port p = y := State.port_setPort_same ..
  obtain ⟨t, n, hport, hframe, htraffic, hsends⟩ := (s.setPort p y).sendKeying_eq p ((s.port p).keys.epoch + 1)
  have hkeys : (((s.setPort p y).sendKeying p ((s.port p).keys.epoch + 1)).port p).keys = (t.port p).keys := by
    rw [(htraffic.ports p).rest]
  refine ⟨_, ?_, ?_, ?_, ?_, (((s.setPort_frame p y).mono (by decide)).andThen hframe).andThen hsends⟩
  · change execStayKeyRefresh p s = _
    unfold execStayKeyRefresh
    rw [onPort_eq hp]
    dsimp only
    rw [hlive, htagged, hasked, Bool.or_eq_true_iff.mpr (hdue.imp decide_eq_true decide_eq_true)]
    rfl
  · rw [hkeys, hport, hy]
  · rw [hkeys, hport]
  · rw [State.portState, htraffic.link, hport, hy]
    exact hlive

theorem stayCreditStarved_due {s : State} {p vc : Nat} (hp : p < 7) (hvc : vc ∈ s.starvedVcs p)
    (hsince : FMap.get (s.port p).rx.wait vc 0 ≠ 0) (hdue : FMap.get (s.port p).rx.wait vc 0 + msTicks ≤ s.tick + 1) :
    ∃ u, exec (.stayCreditStarved p vc) s = .next u ∧ FMap.get (u.port p).rx.wait vc 0 = s.tick + 1 ∧
      changesOnly [.ports, .rings, .limits] s u := by
  let y : Port := { s.port p with rx := { (s.port p).rx with wait := FMap.put (s.port p).rx.wait vc (s.tick + 1) } }
  have hexec : ∃ e, exec (.stayCreditStarved p vc) s = .next ((s.setPort p y).postLimited (16 * p + vc) msTicks e) := by
    change ∃ e, execStayCreditStarved p vc s = _
    unfold execStayCreditStarved
    rw [onPort_eq hp]
    dsimp only
    rw [List.contains_iff_mem.mpr hvc, bne_iff_ne.mpr hsince, decide_eq_true hdue]
    exact ⟨_, rfl⟩
  obtain ⟨e, hexec⟩ := hexec
  have hlast := (s.setPort p y).postLimited_frame (16 * p + vc) msTicks e
  refine ⟨_, hexec, ?_, ((s.setPort_frame p y).mono (by decide)).andThen hlast⟩
  rw [State.port_of_frame hlast, State.port_setPort_same]
  exact FMap.get_put_same ..

/-! ### Windows of codewords and tags (R333, R335) -/

/-- A Live port whose lanes were retired retrains, or is Down; they stay retired. -/
theorem State.lanesLost_live {s : State} {p : Nat} (h : (s.port p).link.st = portLive) :
    (((s.lanesLost p).port p).link.st = portRetrain ∨ ((s.lanesLost p).port p).link.st = portDown) ∧
      ((s.lanesLost p).port p).link.retired = (s.port p).link.retired := by
  unfold State.lanesLost
  dsimp only
  rw [if_neg (by rw [h]; decide), if_pos h]
  obtain hlink | hlink := State.dropLanes_link
    (s.setPort p { s.port p with recov := some ⟨3, 0x210C, s.tick⟩ }) p <;> rw [hlink, State.port_setPort_same]
  · exact ⟨.inr rfl, rfl⟩
  · exact ⟨.inl rfl, rfl⟩

section
variable {s : State} {p corrected : Nat} {words : List Nat} (hp : p < 7)

/-- The lanes of port `p` that a window's codewords wear out. -/
def State.wornLanes (s : State) (p : Nat) (words : List Nat) : List Nat :=
  (lanesIn (portLanes p)).filter fun l => bitOf (s.port p).link.map l && decide (s.val 0x4020 1 ≤ words.getD l 0)

/-- Those of them that a port still counts on. -/
def State.newlyWorn (s : State) (p : Nat) (words : List Nat) : Nat :=
  without (laneMask (s.wornLanes p words)) (s.deadLanes p)

/-- The counts of a window, added. -/
def State.windowCounted (s : State) (p : Nat) (words : List Nat) (corrected : Nat) : State :=
  ((s.setPort p { s.port p with fecAt := s.tick }).bump (0x4010 + p) 0xA corrected).bump (0x4010 + p) 0xB
    (words.foldl (· + ·) 0)

@[simp] theorem State.port_windowCounted : (s.windowCounted p words corrected).port p = { s.port p with fecAt := s.tick } :=
  State.port_setPort_same ..

theorem State.windowCounted_frame : changesOnly [.ports, .dict] s (s.windowCounted p words corrected) :=
  (((s.setPort_frame p _).mono (by decide)).andThen (State.bump_frame _ _ _ _)).andThen (State.bump_frame _ _ _ _)

theorem State.windowCounted_registers :
    registersBut [(0x4010 + p, 0xA), (0x4010 + p, 0xB)] s (s.windowCounted p words corrected) := by
  have hset : registersBut [] s (s.setPort p { s.port p with fecAt := s.tick }) := .of_dict rfl
  have hbump (t : State) (j n : Nat) (hj : j < 256) : registersBut [(0x4010 + p, j)] t (t.bump (0x4010 + p) j n) :=
    t.bump_registers n hj
  exact ((hset.mono (by simp)).trans ((hbump _ 0xA _ (by decide)).mono (by simp))).trans
    ((hbump _ 0xB _ (by decide)).mono (by simp))

theorem State.windowCounted_counts : counts s (s.windowCounted p words corrected) (0x4010 + p) 0xA corrected ∧
    counts s (s.windowCounted p words corrected) (0x4010 + p) 0xB (words.foldl (· + ·) 0) := by
  let t := s.setPort p { s.port p with fecAt := s.tick }
  have hbump (t : State) (j n : Nat) (hj : j < 256) : registersBut [(0x4010 + p, j)] t (t.bump (0x4010 + p) j n) :=
    t.bump_registers n hj
  have hfirst : counts s (t.bump (0x4010 + p) 0xA corrected) (0x4010 + p) 0xA corrected := t.bump_counts ..
  refine ⟨hfirst.registersBut (hbump _ 0xB _ (by decide)) (by decide) (by simp), ?_⟩
  exact (hbump t 0xA corrected (by decide)).counts (i := 0x4010 + p) (j := 0xB) _ (by decide) (by simp)

include hp

theorem State.val_windowCounted {i j : Nat} (hi : i < 0x4010 ∨ 0x4017 ≤ i) (hj : j < 256) :
    (s.windowCounted p words corrected).val i j = s.val i j :=
  State.windowCounted_registers.val hj (by simp; omega)

theorem State.deadLanes_windowCounted : (s.windowCounted p words corrected).deadLanes p = s.deadLanes p := by
  have hfenced (d : Nat) : (s.windowCounted p words corrected).dieFenced d = s.dieFenced d :=
    congrArg (bitOf · d) (State.val_windowCounted hp (.inr (by decide)) (by decide))
  unfold State.deadLanes
  simp only [hfenced, State.port_windowCounted]

variable (hcarries : (s.port p).carries = true) (hdue : (s.port p).fecAt + 25000000 ≤ s.tick)
include hcarries hdue

theorem exec_stayFecWindowEnd : exec (.stayFecWindowEnd p words corrected) s =
    .next (if s.newlyWorn p words = 0 then s.windowCounted p words corrected
      else ((s.windowCounted p words corrected).setLink p
        { (s.port p).link with retired := (s.port p).link.retired ||| s.newlyWorn p words }).lanesLost p) := by
  have hms : (s.port p).fecAt + 1000 * msTicks ≤ s.tick := hdue
  have hnew : without (laneMask ((lanesIn (portLanes p)).filter fun l => bitOf (s.port p).link.map l &&
      decide ((s.windowCounted p words corrected).val 0x4020 1 ≤ words.getD l 0)))
      ((s.windowCounted p words corrected).deadLanes p) = s.newlyWorn p words := by
    rw [State.deadLanes_windowCounted hp, State.val_windowCounted hp (.inr (by decide)) (by decide)]; rfl
  change execStayFecWindowEnd p words corrected s = _
  unfold execStayFecWindowEnd
  rw [onPort_eq hp]
  dsimp only
  rw [hcarries, decide_eq_true hms, Bool.and_self, guardEvent_true, ← hnew]
  exact (apply_ite ..).symm

/-- A window in which no lane wears out. -/
theorem stayFecWindowEnd_steady (hnew : s.newlyWorn p words = 0) :
    ∃ u, exec (.stayFecWindowEnd p words corrected) s = .next u ∧ u.port p = { s.port p with fecAt := s.tick } ∧
      (counts s u (0x4010 + p) 0xA corrected ∧ counts s u (0x4010 + p) 0xB (words.foldl (· + ·) 0)) ∧
      registersBut [(0x4010 + p, 0xA), (0x4010 + p, 0xB)] s u ∧ changesOnly [.ports, .dict] s u := by
  refine ⟨_, exec_stayFecWindowEnd hp hcarries hdue, ?_⟩
  rw [if_pos hnew]
  exact ⟨State.port_windowCounted, State.windowCounted_counts, State.windowCounted_registers, State.windowCounted_frame⟩

/-- A window that wears out lanes of a Live port: it retrains without them, or is Down. -/
theorem stayFecWindowEnd_worn (hlive : (s.port p).link.st = portLive) (hnew : s.newlyWorn p words ≠ 0) :
    ∃ u, exec (.stayFecWindowEnd p words corrected) s = .next u ∧
      (counts s u (0x4010 + p) 0xA corrected ∧ counts s u (0x4010 + p) 0xB (words.foldl (· + ·) 0)) ∧
      (u.portState p = portRetrain ∨ u.portState p = portDown) ∧
      (u.port p).link.retired = (s.port p).link.retired ||| s.newlyWorn p words ∧ changesOnly portPieces s u := by
  let t := s.windowCounted p words corrected
  let l : PortLink := { (s.port p).link with retired := (s.port p).link.retired ||| s.newlyWorn p words }
  let u := (t.setLink p l).lanesLost p
  have hlink : ((t.setLink p l).port p).link = l := by rw [State.port_setLink]
  have hwork : t.portWork u := (t.setLink_work p l).trans (State.lanesLost_work _ p)
  obtain ⟨hcorrected, htotal⟩ := State.windowCounted_counts (s := s) (p := p) (corrected := corrected) (words := words)
  obtain ⟨hst, hretired⟩ : ((u.port p).link.st = portRetrain ∨ (u.port p).link.st = portDown) ∧
      (u.port p).link.retired = l.retired := by
    rw [← hlink]
    exact State.lanesLost_live (by rw [hlink]; exact hlive)
  refine ⟨u, ?_, ⟨?_, ?_⟩, hst, hretired, (State.windowCounted_frame.mono (by decide)).trans hwork.frame⟩
  · rw [exec_stayFecWindowEnd hp hcarries hdue, if_neg hnew]
  · exact (hwork.val (by omega) (by decide)).trans hcorrected
  · exact (hwork.val (by omega) (by decide)).trans htotal

/-- The port when its window of tags begins anew. -/
def Port.newTagWindow (x : Port) (tick : Nat) : Port := { x with rx := { x.rx with tagFail := 0 }, tagAt := tick }

omit hdue in
theorem exec_stayTagWindowEnd (htag : (s.port p).tagAt + 25000000 ≤ s.tick) : exec (.stayTagWindowEnd p) s =
    .next (if s.val 0x4020 2 ≤ (s.port p).rx.tagFail ∧ (s.port p).link.st ≠ portQuarantined then
      (s.setPort p ((s.port p).newTagWindow s.tick)).quarantine p 11 else s.setPort p ((s.port p).newTagWindow s.tick)) := by
  have hms : (s.port p).tagAt + 1000 * msTicks ≤ s.tick := htag
  change execStayTagWindowEnd p s = _
  unfold execStayTagWindowEnd
  rw [onPort_eq hp]
  dsimp only
  rw [hcarries, decide_eq_true hms]
  rfl

omit hdue in
/-- The end of a window of tags: too many failures quarantine the port. -/
theorem stayTagWindowEnd_due (htag : (s.port p).tagAt + 25000000 ≤ s.tick) :
    ∃ u, exec (.stayTagWindowEnd p) s = .next u ∧ (u.port p).rx.tagFail = 0 ∧ (u.port p).tagAt = s.tick ∧
      (s.val 0x4020 2 ≤ (s.port p).rx.tagFail → (s.port p).link.st ≠ portQuarantined →
        u.portState p = portQuarantined ∧ (u.port p).link.cause = 11) ∧
      ((s.port p).rx.tagFail < s.val 0x4020 2 → u.portState p = (s.port p).link.st ∧ changesOnly [.ports] s u) ∧
      changesOnly portPieces s u := by
  let y := (s.port p).newTagWindow s.tick
  have hy : (s.setPort p y).port p = y := State.port_setPort_same ..
  have hset : changesOnly [.ports] s (s.setPort p y) := s.setPort_frame p y
  refine ⟨_, exec_stayTagWindowEnd hp hcarries htag, ?_⟩
  split
  · next h =>
    obtain ⟨hmany, hst⟩ := h
    have hst' : ((s.setPort p y).port p).link.st ≠ portQuarantined := by rw [hy]; exact hst
    obtain ⟨hquarantined, hcause, hfail, hat⟩ := (s.setPort p y).quarantine_port p 11 hst'
    exact ⟨hfail.trans (by rw [hy]; rfl), hat.trans (by rw [hy]; rfl), fun _ _ => ⟨hquarantined, hcause⟩,
      fun hfew => absurd hmany (Nat.not_le.mpr hfew),
      (hset.mono (by decide)).trans ((s.setPort p y).quarantine_work p 11 hst').frame⟩
  · next h =>
    exact ⟨by rw [hy]; rfl, by rw [hy]; rfl, fun hmany hst => absurd ⟨hmany, hst⟩ h,
      fun _ => ⟨by rw [State.portState, hy]; rfl, hset⟩, hset.mono (by decide)⟩

end

/-! ### Retraining done (R333, R334) -/

theorem testBit_zero_setBit_zero (w : Nat) : (setBit w 0 false).testBit 0 = false := by
  unfold setBit
  simp only [Nat.testBit_zero, decide_eq_true_eq]
  split <;> simp <;> omega

theorem testBit_zero_setBit_one (w : Nat) : (setBit w 1 true).testBit 0 = w.testBit 0 := by
  unfold setBit
  simp only [Nat.testBit_zero, ite_true]
  split
  · rfl
  · congr 2
    omega

/-- A width that is latched leaves the port's other words. -/
theorem State.latchWidth_eq (s : State) (p : Nat) (a b : WidthWord) : ∃ t, s.portWork t ∧
    (t.port p).link.width = (settlePort p a b).2 ∧ t.traffics (fun _ => True) (s.latchWidth p a b) := by
  have hlast (t : State) (c : Prop) [Decidable c] (code : Nat) (detail : List (Nat × Nat)) :
      t.traffics (fun _ => True) (if c then t else t.postPort code p detail) := by
    split <;> simp
  unfold State.latchWidth
  exact ⟨_, s.setLink_work p _, by rw [State.port_setLink]; rfl, hlast _ _ _ _⟩

/-- A port whose compound records are posted waits for none. -/
theorem State.settlePortPairs_traffics (s : State) (p : Nat) :
    (s.setPort p { s.port p with pairs := [], recov := none }).traffics (fun _ => True) (s.settlePortPairs p) := by
  have hposts (t : State) (es : List FaultPair) :
      t.traffics (fun _ => True) (es.foldl (fun s e => s.postCompound 4 p e) t) := by simp
  exact hposts _ _

/-- The port that is Live again, with WIDTH answered and SWITCH asked for. -/
def Port.retrained (x : Port) : Port :=
  { x with link := { x.link with oldW := 0 }, claim := none, ask := setBit (setBit x.ask 0 false) 1 true }

section
variable {s : State} {p : Nat} {w : WidthWord} (hp : p < 7) (hst : (s.port p).link.st = portRetrain)
include hp hst

/-- No width was agreed: the port is Down. -/
theorem exec_stayRetrainDone_none (h : (settlePort p (s.portWord p (portLanes p)) ((s.port p).claim.getD w)).2 = 0) :
    exec (.stayRetrainDone p w) s = .next (s.portFails p 1).readmit := by
  change execStayRetrainDone p w s = _
  unfold execStayRetrainDone
  rw [onPort_eq hp]
  dsimp only
  rw [hst, beq_self_eq_true, guardEvent_true, if_pos h]

/-- A width was agreed: the port is put back Live with it, and traffic follows. -/
theorem exec_stayRetrainDone_settled (h : (settlePort p (s.portWord p (portLanes p)) ((s.port p).claim.getD w)).2 ≠ 0) :
    let own := s.portWord p (portLanes p)
    let t := (s.latchWidth p own ((s.port p).claim.getD w)).portGo p portLive
    ∃ v u, exec (.stayRetrainDone p w) s = .next u ∧ (t.setPort p (t.port p).retrained).traffics (fun _ => True) v ∧
      (v.setPort p { v.port p with pairs := [], recov := none }).traffics (fun _ => True) u := by
  intro own t
  have hsend (t : State) (c : Prop) [Decidable c] (code : Nat) (detail : List (Nat × Nat)) : t.traffics (fun _ => True)
      (if c then (t.sendControl p 4 0).postPort code p detail else t.sendControl p 4 0) := by
    split <;> simp
  have hlast (v : State) : (v.settlePortPairs p).traffics (fun _ => True) ((v.settlePortPairs p).pump p).readmit := by
    simp
  change ∃ v u, execStayRetrainDone p w s = _ ∧ _
  unfold execStayRetrainDone
  rw [onPort_eq hp]
  dsimp only
  rw [hst, beq_self_eq_true, guardEvent_true, if_neg h]
  exact ⟨_, _, rfl, hsend _ _ _ _, (State.settlePortPairs_traffics _ p).trans (hlast _)⟩

/-- A retraining that is done: Live with the width agreed, or Down where none is. -/
theorem stayRetrainDone_leaves :
    let settled := (settlePort p (s.portWord p (portLanes p)) ((s.port p).claim.getD w)).2
    ∃ u, exec (.stayRetrainDone p w) s = .next u ∧ u.portState p = (if settled = 0 then portDown else portLive) ∧
      (settled ≠ 0 → (u.port p).link.width = settled ∧ bitOf (u.port p).ask 0 = false ∧ bitOf (u.port p).ask 1 = true) ∧
      changesOnly portPieces s u := by
  intro settled
  by_cases h : settled = 0
  · refine ⟨_, exec_stayRetrainDone_none hp hst h, ?_, fun hne => absurd h hne,
      ((s.portFails_work p 1).trans (State.readmit_work _)).frame⟩
    rw [if_pos h, State.portState, State.port_readmit, State.portFails_link]
  · obtain ⟨v, u, hexec, hfirst, hlast⟩ := exec_stayRetrainDone_settled hp hst h
    obtain ⟨t, ht, hwidth, hlatch⟩ := s.latchWidth_eq p (s.portWord p (portLanes p)) ((s.port p).claim.getD w)
    have hlatched := ht.trans hlatch.work
    generalize s.latchWidth p _ _ = latched at hfirst hlatch hlatched
    have hlive : (latched.portGo p portLive).port p = { latched.port p with
      link := { (latched.port p).link with st := portLive }, since := latched.tick } := State.port_portGo ..
    have hgo := hlatched.trans (latched.portGo_work p portLive)
    generalize latched.portGo p portLive = live at hfirst hlive hgo
    have hlink : (u.port p).link = (live.port p).retrained.link := by
      rw [hlast.link, State.port_setPort_same]
      dsimp only
      rw [hfirst.link, State.port_setPort_same]
    have hask : (u.port p).ask = (live.port p).retrained.ask := by
      rw [hlast.ask, State.port_setPort_same]
      dsimp only
      rw [hfirst.ask, State.port_setPort_same]
    refine ⟨u, hexec, ?_, fun _ => ⟨?_, ?_, ?_⟩, ?_⟩
    · rw [if_neg h, State.portState, hlink, hlive]
      rfl
    · rw [hlink, hlive]
      exact (congrArg PortLink.width (hlatch.link p)).trans hwidth
    · rw [hask]
      exact (testBit_zero_setBit_one _).trans (testBit_zero_setBit_zero _)
    · rw [hask]
      exact testBit_setBit_true _ _
    · exact (((hgo.trans (live.setPort_work p _)).trans hfirst.work).trans ((v.setPort_work p _).trans hlast.work)).frame

end

/-! ### Out of service and back (R331, R346) -/

section
variable {s : State} {p : Nat} (hp : p < 7)

/-- A port whose enable is held comes back where its axis, the dictionary and the package allow it. -/
theorem State.enablePort_presence {t : State} (hoff : t.portState p = portOff) (haxis : t.hasAxis p = true)
    (hon : t.val (0x4010 + p) 1 = 1) (hpkg : t.pkg = pkgReady ∨ t.pkg = pkgBooting) :
    t.enablePort p = t.portGo p portPresence := if_pos ⟨hoff, haxis, hon, hpkg⟩

theorem State.portWork.hasAxis {t : State} (h : s.portWork t) : t.hasAxis p = s.hasAxis p := by
  have hsizes : t.sizes = s.sizes := by
    unfold State.sizes
    rw [h.val (by decide) (by decide), h.val (by decide) (by decide), h.val (by decide) (by decide)]
  unfold State.hasAxis
  rw [hsizes]

include hp

theorem exec_stayShutdownEnd (hst : (s.port p).link.st = portClosing ∨ (s.port p).link.st = portPending)
    (hdrained : (s.port p).tx.held = [] ∨ (s.port p).since + msTicks ≤ s.tick) (hreset : s.resetting 4 (p + 1) = false) :
    exec (.stayShutdownEnd p) s = .next (if (s.port p).link.st = portPending then (s.portFalls p portOff false).enablePort p
      else s.portFalls p portOff false) := by
  have hguard : (((s.port p).link.st == portClosing || (s.port p).link.st == portPending) &&
      ((s.port p).tx.held.isEmpty || decide ((s.port p).since + msTicks ≤ s.tick))) = true := by
    simpa using ⟨hst, hdrained⟩
  change execStayShutdownEnd p s = _
  unfold execStayShutdownEnd
  rw [onPort_eq hp]
  dsimp only
  rw [hguard, hreset, guardEvent_true]
  simp

theorem exec_stayPartnerLost (hlow : 1 ≤ (s.port p).link.st) (hhigh : (s.port p).link.st ≤ portRetrain) :
    ∃ t v u, exec (.stayPartnerLost p) s = .next u ∧
      t = (if (s.port p).link.st = portPresence then s else s.bump (0x4010 + p) 0x11 1) ∧ t.traffics (fun _ => True) v ∧
      (u = v.portFalls p portPresence true ∨ u = (v.portFalls p portPresence true).readmit) := by
  have hguard : ((s.port p).link.st != portOff && decide ((s.port p).link.st ≤ portRetrain)) = true := by
    have hon : (s.port p).link.st ≠ portOff := Nat.ne_of_gt hlow
    rw [bne_iff_ne.mpr hon, decide_eq_true hhigh]; rfl
  have hlost (t : State) (code : Nat) (detail : List (Nat × Nat)) :
      t.traffics (fun _ => True) ((t.climb 4).postPort code p detail) := by simp
  change ∃ t v u, execStayPartnerLost p s = _ ∧ _
  unfold execStayPartnerLost
  rw [onPort_eq hp]
  dsimp only
  rw [hguard, guardEvent_true]
  by_cases h : (s.port p).link.st = portLive ∨ (s.port p).link.st = portRetrain
  · rw [if_pos h]
    exact ⟨_, _, _, rfl, rfl, hlost _ _ _, .inr rfl⟩
  · rw [if_neg h]
    exact ⟨_, _, _, rfl, rfl, State.traffics_refl _, .inl rfl⟩

/-- A drained port is Off, and one whose enable was held waits for presence again. -/
theorem stayShutdownEnd_drained (hdrained : (s.port p).tx.held = [] ∨ (s.port p).since + msTicks ≤ s.tick)
    (hreset : s.resetting 4 (p + 1) = false) :
    ((s.port p).link.st = portClosing → ∃ u, exec (.stayShutdownEnd p) s = .next u ∧ u.portState p = portOff ∧
      changesOnly portPieces s u) ∧
    ((s.port p).link.st = portPending → s.hasAxis p = true → s.val (0x4010 + p) 1 = 1 →
      (s.pkg = pkgReady ∨ s.pkg = pkgBooting) → ∃ u, exec (.stayShutdownEnd p) s = .next u ∧
        u.portState p = portPresence ∧ changesOnly portPieces s u) := by
  have hwork := s.portFalls_work p portOff false
  have hoff : (s.portFalls p portOff false).portState p = portOff := by rw [State.portState, State.portFalls_link]
  refine ⟨fun hclosing => ⟨_, exec_stayShutdownEnd hp (.inl hclosing) hdrained hreset, ?_⟩,
    fun hpending haxis hon hpkg => ⟨_, exec_stayShutdownEnd hp (.inr hpending) hdrained hreset, ?_⟩⟩
  · rw [if_neg (by rw [hclosing]; decide)]
    exact ⟨hoff, hwork.frame⟩
  · have hpkg' : (s.portFalls p portOff false).pkg = s.pkg := hwork.val (by decide) (by decide)
    rw [if_pos hpending, State.enablePort_presence hoff (hwork.hasAxis.trans haxis)
      ((hwork.val (by omega) (by decide)).trans hon) (by rw [hpkg']; exact hpkg)]
    exact ⟨by rw [State.portState, State.port_portGo], (hwork.trans (State.portGo_work _ p _)).frame⟩

/-- A lost partner leaves the port waiting for presence, and a loss after that state is counted. -/
theorem stayPartnerLost_leaves (hlow : 1 ≤ (s.port p).link.st) (hhigh : (s.port p).link.st ≤ portRetrain) :
    ∃ u, exec (.stayPartnerLost p) s = .next u ∧ u.portState p = portPresence ∧
      ((s.port p).link.st ≠ portPresence → counts s u (0x4010 + p) 0x11 1) ∧ changesOnly portPieces s u := by
  obtain ⟨t, v, u, hexec, ht, htraffic, hlast⟩ := exec_stayPartnerLost hp hlow hhigh
  have hfalls := htraffic.work.trans (v.portFalls_work p portPresence true)
  have hu : t.portWork u ∧ (u.port p).link = ((v.portFalls p portPresence true).port p).link := by
    obtain rfl | rfl := hlast
    · exact ⟨hfalls, rfl⟩
    · exact ⟨hfalls.trans (State.readmit_work _), by rw [State.port_readmit]⟩
  obtain ⟨hwork, hlink⟩ := hu
  refine ⟨u, hexec, ?_, fun hne => ?_, ?_⟩
  · rw [State.portState, hlink, State.portFalls_link]
  · rw [if_neg hne] at ht
    have hcount : counts s t (0x4010 + p) 0x11 1 := ht ▸ s.bump_counts ..
    exact (hwork.val (by omega) (by decide)).trans hcount
  · have hbump : changesOnly portPieces s t :=
      ht ▸ changesOnly.ite (.refl _ s) ((s.bump_frame _ _ _).mono (by decide))
    exact hbump.trans hwork.frame

end

/-- Settles O37: each timer and each window by what it runs, in terms of what the traffic of a port leaves
(`State.traffics`). -/
theorem stayUpkeep : Obligations.StayUpkeep := by
  refine ⟨fun s p vc hp => ?_, fun s p corrected words w hp => ?_⟩
  · intro x since late goesOn'
    refine ⟨?resend, stayRetryTimeout_goesOn hp, stayRetryTimeout_worn hp, stayKeyRefresh_due hp, stayCreditStarved_due hp⟩
    obtain ⟨u, hu, hexec⟩ := exec_stayControlResend hp s
    exact ⟨u, hexec, hu.port, hu.sent, hu.frame⟩
  · intro x settled worn new total counted
    exact ⟨fun hcarries hdue => stayFecWindowEnd_steady hp hcarries hdue,
      fun hlive hdue => stayFecWindowEnd_worn hp (by rw [Port.carries, hlive]; rfl) hdue hlive,
      fun hst => stayRetrainDone_leaves hp hst, fun hcarries htag => stayTagWindowEnd_due hp hcarries htag,
      stayShutdownEnd_drained hp, stayPartnerLost_leaves hp⟩

end Sys2Proof.Machine

/-! SUPPORT. What the loss of a ratline link leaves as it was, with the fences and stops that it can lead to (O33).

`s.sinks t` says that from `s` to `t` only `linkPieces` changed, and that each direction of a ratline is in the state that it
was in, or Down. Each operation has one lemma that says so, as the equation of `State.Led`: `simp` peels an operation's body
from the outside by it. The work of plans and trims stands before it, by what it `stirs`. -/

namespace Sys2Proof.Machine

-- One proof at a time: each waits for the lemmas that it rewrites by.
set_option Elab.async false

/-! ### Trims, plans and panes that end (R240, R272 to R274, R376) -/

section
variable {ρ : State} (s : State) (p e d k step : Nat)

@[simp ↓] theorem State.dropTrim_worked : State.Worked ρ s (s.dropTrim p e) :=
  State.stirred_of (by simp [State.dropTrim, State.bump])

@[simp ↓] theorem State.postRefused_worked (entry cause : Nat) : State.Worked ρ s (s.postRefused d p entry step cause) :=
  State.stirred_of (by simp [State.postRefused])

@[simp ↓] theorem State.refuseTrim_worked (cause : Nat) : State.Worked ρ s (s.refuseTrim p e cause) :=
  State.stirred_of (by simp [State.refuseTrim])

@[simp ↓] theorem State.trimAbort_worked : State.Worked ρ s (s.trimAbort p step) := by
  refine State.stirred_of ?_
  unfold State.trimAbort; dsimp only; split <;> simp

@[simp ↓] theorem State.refuseRunning_worked (es : List Nat) : State.Worked ρ s (s.refuseRunning p step es) := by
  refine State.stirred_of ?_
  unfold State.refuseRunning; split <;> simp

@[simp ↓] theorem State.countTrim_worked (x : TrimElem) : State.Worked ρ s (s.countTrim d x) :=
  State.stirred_of (by simp [State.countTrim, State.bump])

/-- The elements of an update, interrupted or not. -/
@[simp ↓] theorem State.trimSpan_worked (who slotAddr first n g j : Nat) (x : Trim) (f : TrimFactors) (interrupted : Bool) :
    State.Worked ρ s (s.trimSpan who x f d slotAddr first n g j interrupted) :=
  State.stirred_of (by simp [State.trimSpan])

@[simp ↓] theorem State.trimRun_worked (x : Trim) (interrupted : Bool) : State.Worked ρ s (s.trimRun p e x interrupted) :=
  State.stirred_of (by simp [State.trimRun, State.bump])

@[simp ↓] theorem State.trimReset_worked (hit : Nat → Nat → Trim → Bool) : State.Worked ρ s (s.trimReset hit) :=
  State.stirred_of (by simp [State.trimReset])

@[simp ↓] theorem State.clearPoison_worked : State.Worked ρ s (s.clearPoison p) :=
  State.stirred_of (by simp [State.clearPoison, State.setPart])

@[simp ↓] theorem State.postAborted_worked : State.Worked ρ s (s.postAborted k) :=
  State.stirred_of (by simp [State.postAborted])

@[simp ↓] theorem State.dropUnsent_worked : State.Worked ρ s (s.dropUnsent k) :=
  State.stirred_of (by simp [State.dropUnsent])

@[simp ↓] theorem State.abortPlan_worked : State.Worked ρ s (s.abortPlan k) := State.stirred_of (by simp [State.abortPlan])

@[simp ↓] theorem State.abortPlans_worked : State.Worked ρ s (s.abortPlans p) := State.stirred_of (by simp [State.abortPlans])

@[simp ↓] theorem State.zeroPanes_worked : State.Worked ρ s (s.zeroPanes p d) :=
  State.stirred_of (by simp [State.zeroPanes, State.setPane])

@[simp ↓] theorem State.zeroDie_worked : State.Worked ρ s (s.zeroDie d) := State.stirred_of (by simp [State.zeroDie])

@[simp ↓] theorem State.goPart_worked (st : PartState) : State.Worked ρ s (s.goPart p st) :=
  State.stirred_of (by simp [State.goPart, State.setPart])

@[simp ↓] theorem State.flushAgent_worked : State.Worked ρ s (s.flushAgent d) :=
  State.stirred_of (by simp [State.flushAgent])

end

/-! ### The relation -/

/-- From `s` to `t` links may have been lost: see above. -/
structure State.sinks (s t : State) : Prop where
  frame : changesOnly linkPieces s t
  states : ∀ d side, (t.rat d side).st = (s.rat d side).st ∨ (t.rat d side).st = ratDown

/-- The relation under a name that no rule rewrites: what stands to the right of an `orElse`. -/
def State.sinksElse (s t : State) : Prop := s.sinks t

/-- Where links may have been lost from `ρ` to `s`, they may from `ρ` to `t`: an equation to rewrite by. -/
@[reducible] def State.Sunk (ρ s t : State) : Prop := ρ.sinks t = orElse (ρ.sinks s) (ρ.sinksElse t)

section
variable {ρ s t u : State}

@[simp ↓] theorem State.sinks_refl (s : State) : s.sinks s := ⟨.refl _ s, fun _ _ => .inl rfl⟩

theorem State.sinks.trans (h : s.sinks t) (h' : t.sinks u) : s.sinks u :=
  ⟨h.frame.trans h'.frame, fun d side => by
    obtain hu | hu := h'.states d side
    · rw [hu]; exact h.states d side
    · exact .inr hu⟩

theorem State.sunk_of (h : s.sinks t) : State.Sunk ρ s t := by
  simpa [State.Sunk, State.sinksElse, orElse] using fun h' : ρ.sinks s => h'.trans h

/-- An operation that leaves the directions. -/
theorem State.sinks_of_frame {fs : List Piece} (h : changesOnly fs s t) (hs : fs ⊆ linkPieces := by decide)
    (hr : Piece.rats ∉ fs := by decide) : s.sinks t :=
  ⟨h.mono hs, fun d side => .inl (congrArg RatDir.st (State.rat_of_frame h hr d side))⟩

theorem State.stirs.sinks (h : s.stirs workPieces false t) : s.sinks t := State.sinks_of_frame h.planFrame

theorem State.portWork.sinks (h : s.portWork t) : s.sinks t := State.sinks_of_frame h.frame

/-- An update of these pieces. -/
@[simp ↓] theorem State.mk_sunk {lines holds ports remote flows resets domains} :
    State.Sunk ρ s { s with lines := lines, holds := holds, ports := ports, remote := remote, flows := flows,
                            resets := resets, domains := domains } :=
  State.sunk_of (State.sinks_of_frame (fs := [.lines, .holds, .ports, .remote, .flows, .resets, .domains])
    (fun f hf => by cases f <;> first | rfl | simp at hf))

@[simp ↓] theorem State.sinks_ite {c : Prop} [Decidable c] (s t u : State) :
    s.sinks (if c then t else u) = if c then s.sinks t else s.sinks u := apply_ite ..

@[simp ↓] theorem State.foldl_sunk {β : Type} (f : State → β → State) (hf : ∀ (s : State) b, s.sinks (f s b))
    (l : List β) (s : State) : State.Sunk ρ s (l.foldl f s) :=
  State.sunk_of (List.foldlRecOn (motive := s.sinks) l f s.sinks_refl fun t ht b _ => ht.trans (hf t b))

end

/-! ### Fences, stops and lost links (R285, R298, R304, R468, R472) -/

section
variable {ρ : State} (s : State) (p d l m cause : Nat)

@[simp ↓] theorem State.setVal_sunk (i j v : Nat) : State.Sunk ρ s (s.setVal i j v) :=
  State.sunk_of (State.sinks_of_frame (s.setVal_frame i j v))

@[simp ↓] theorem State.bump_sunk (i j n : Nat) : State.Sunk ρ s (s.bump i j n) :=
  State.sunk_of (State.sinks_of_frame (s.bump_frame i j n))

@[simp ↓] theorem State.post_sunk (e : Event) : State.Sunk ρ s (s.post e) :=
  State.sunk_of (State.sinks_of_frame (s.post_frame e))

@[simp ↓] theorem State.setMast_sunk (x : Mast) : State.Sunk ρ s (s.setMast m x) :=
  State.sunk_of (State.sinks_of_frame (s.setMast_frame m x))

@[simp ↓] theorem State.setPort_sunk (x : Port) : State.Sunk ρ s (s.setPort p x) :=
  State.sunk_of (State.sinks_of_frame (s.setPort_frame p x))

@[simp ↓] theorem State.climb_sunk (level : Nat) : State.Sunk ρ s (s.climb level) :=
  State.sunk_of (State.sinks_of_frame (s.climb_frame level))

@[simp ↓] theorem State.readmit_sunk : State.Sunk ρ s s.readmit := State.sunk_of (State.sinks_of_frame s.readmit_frame)

@[simp ↓] theorem State.postCompound_sunk (kind num : Nat) (e : FaultPair) : State.Sunk ρ s (s.postCompound kind num e) :=
  State.sunk_of (State.sinks_of_frame (State.postCompound_frame _ _ _ _))

@[simp ↓] theorem State.darken_sunk : State.Sunk ρ s (s.darken m) := State.sunk_of (State.sinks_of_frame (s.darken_frame m))

@[simp ↓] theorem State.fenceMast_sunk : State.Sunk ρ s (s.fenceMast m cause) :=
  State.sunk_of (State.sinks_of_frame (State.fenceMast_retires m s cause).frame)

@[simp ↓] theorem State.setPoison_sunk : State.Sunk ρ s (s.setPoison p cause d) :=
  State.sunk_of (State.stirs.sinks (by simp))

@[simp ↓] theorem State.abortPlans_sunk : State.Sunk ρ s (s.abortPlans p) := State.sunk_of (State.stirs.sinks (by simp))

@[simp ↓] theorem State.trimReset_sunk (hit : Nat → Nat → Trim → Bool) : State.Sunk ρ s (s.trimReset hit) :=
  State.sunk_of (State.stirs.sinks (by simp))

@[simp ↓] theorem State.goPart_sunk (st : PartState) : State.Sunk ρ s (s.goPart p st) :=
  State.sunk_of (State.stirs.sinks (by simp))

@[simp ↓] theorem State.zeroDie_sunk : State.Sunk ρ s (s.zeroDie d) := State.sunk_of (State.stirs.sinks (by simp))

@[simp ↓] theorem State.flushAgent_sunk : State.Sunk ρ s (s.flushAgent d) := State.sunk_of (State.stirs.sinks (by simp))

@[simp ↓] theorem State.freeCredit_sunk (vc cls n : Nat) : State.Sunk ρ s (s.freeCredit p vc cls n) :=
  State.sunk_of (State.sinks_of_frame (s.freeCredit_sends p vc cls n))

@[simp ↓] theorem State.failRequest_sunk (kind tid src : Nat) : State.Sunk ρ s (s.failRequest kind tid src) :=
  State.sunk_of (State.traffics.work (may := fun _ => True) (by simp)).sinks

@[simp ↓] theorem State.loseChunk_sunk (mark : Nat) : State.Sunk ρ s (s.loseChunk p mark) :=
  State.sunk_of (State.traffics.work (may := fun _ => True) (by simp)).sinks

@[simp ↓] theorem State.loseHeld_sunk : State.Sunk ρ s (s.loseHeld p) :=
  State.sunk_of (State.traffics.work (may := fun _ => True) (by simp)).sinks

@[simp ↓] theorem State.releaseLocks_sunk : State.Sunk ρ s (s.releaseLocks p) :=
  State.sunk_of (State.traffics.work (may := fun _ => True) (s.releaseLocks_traffics p)).sinks

@[simp ↓] theorem State.dropPort_sunk (st : Nat) : State.Sunk ρ s (s.dropPort p st) :=
  State.sunk_of (by simp [State.dropPort])

@[simp ↓] theorem State.loseDieLanes_sunk : State.Sunk ρ s (s.loseDieLanes d) :=
  State.sunk_of (s.loseDieLanes_work d).sinks

@[simp ↓] theorem State.reportReset_sunk (r : Reset) (counted : Bool) : State.Sunk ρ s (s.reportReset r counted) :=
  State.sunk_of (by simp [State.reportReset, State.postReset])

@[simp ↓] theorem State.stopPart_sunk : State.Sunk ρ s (s.stopPart p cause) := by
  refine State.sunk_of ?_
  unfold State.stopPart
  split <;> simp

@[simp ↓] theorem State.cutDomain_sunk : State.Sunk ρ s (s.cutDomain d) :=
  State.sunk_of (by simp [State.cutDomain, State.goDomain])

@[simp ↓] theorem State.poisonLines_sunk : State.Sunk ρ s (s.poisonLines d) := State.sunk_of (by simp [State.poisonLines])

@[simp ↓] theorem State.failAccess_sunk (who : Nat) : State.Sunk ρ s (s.failAccess who) := by
  refine State.sunk_of ?_
  unfold State.failAccess
  dsimp only
  (repeat' split) <;> simp

@[simp ↓] theorem State.loseRat_sunk (b : RatBody) : State.Sunk ρ s (s.loseRat d b) := by
  refine State.sunk_of ?_
  unfold State.loseRat
  split <;> simp

@[simp ↓] theorem State.loseFlow_sunk (side : Nat) : State.Sunk ρ s (s.loseFlow d side) :=
  State.sunk_of (by simp [State.loseFlow, State.setFlow])

theorem State.setRat_sinks (side : Nat) {x : RatDir} (hx : x.st = ratDown) : s.sinks (s.setRat d side x) := by
  refine ⟨(s.setRat_frame d side x).mono (by decide), fun d' side' => ?_⟩
  rw [State.rat_setRat]
  split
  · exact .inr hx
  · exact .inl rfl

/-- One direction of a link goes Down. -/
def State.directionFails (s : State) (e : Nat × Nat) : State :=
  (s.setRat e.1 e.2 { s.rat e.1 e.2 with st := ratDown, width := 0, map := 0, since := s.tick, before := 0 }).loseFlow e.1 e.2

theorem State.directionFails_sinks (e : Nat × Nat) : s.sinks (s.directionFails e) := by
  have hflow (t : State) : t.sinks (t.loseFlow e.1 e.2) := by simp
  exact (s.setRat_sinks e.1 e.2 (by rfl)).trans (hflow _)

@[simp ↓] theorem State.linkFails_sunk : State.Sunk ρ s (s.linkFails l cause) := by
  refine State.sunk_of ?_
  unfold State.linkFails
  split
  · exact s.sinks_refl
  · have hall : s.sinks ((linkDirs l).foldl State.directionFails s) := by simp [State.directionFails_sinks]
    exact hall.trans (State.sinks_of_frame (State.post_frame _ _))

@[simp ↓] theorem State.fenceDie_sunk : State.Sunk ρ s (s.fenceDie d cause) := State.sunk_of (by simp [State.fenceDie])

theorem State.fenceUntil_sinks (fuel : Nat) : s.sinks (s.fenceUntil fuel) := by
  induction fuel generalizing s with
  | zero => exact s.sinks_refl
  | succ fuel ih =>
    rw [State.fenceUntil]
    split
    · exact s.sinks_refl
    · split
      · exact State.sinks.trans (by simp) (ih _)
      · simp

end

/-! ### A link that is lost (R298, R304) -/

/-- A direction that is Down stays so while links are lost. -/
theorem State.sinks.down {s t : State} (h : s.sinks t) {d side : Nat} (hd : (s.rat d side).st = ratDown) :
    (t.rat d side).st = ratDown := by
  obtain hst | hst := h.states d side
  · exact hst.trans hd
  · exact hst

theorem State.directionFails_down (s : State) (e : Nat × Nat) : ((s.directionFails e).rat e.1 e.2).st = ratDown := by
  have hflow (t : State) : t.sinks (t.loseFlow e.1 e.2) := by simp
  exact (hflow _).down (by rw [State.rat_setRat_same])

theorem State.foldl_directionFails_down (s : State) {l : List (Nat × Nat)} {e : Nat × Nat} (he : e ∈ l) :
    ((l.foldl State.directionFails s).rat e.1 e.2).st = ratDown := by
  induction l generalizing s with
  | nil => cases he
  | cons b l ih =>
    obtain rfl | he := List.mem_cons.mp he
    · have hrest (t : State) : t.sinks (l.foldl State.directionFails t) := by simp [State.directionFails_sinks]
      exact (hrest _).down (s.directionFails_down e)
    · exact ih _ he

/-- A link none of whose directions was Down is Down in both. -/
theorem State.linkFails_down {s : State} {l : Nat} (cause : Nat) (hup : ∀ e ∈ linkDirs l, (s.rat e.1 e.2).st ≠ ratDown)
    {e : Nat × Nat} (he : e ∈ linkDirs l) : ((s.linkFails l cause).rat e.1 e.2).st = ratDown := by
  have hany : ((linkDirs l).any fun e => (s.rat e.1 e.2).st == 5) = false := by
    simpa [ratDown] using fun a b h => hup (a, b) h
  unfold State.linkFails
  rw [hany, if_neg Bool.false_ne_true]
  dsimp only
  rw [State.rat_of_frame (State.post_frame _ _)]
  exact s.foldl_directionFails_down he

theorem State.fenceUntil_readmit_sinks (s : State) : s.sinks (s.fenceUntil 15).readmit :=
  (s.fenceUntil_sinks 15).trans (State.sinks_of_frame (State.readmit_frame _))

theorem State.linkLost_sinks (s : State) (l cause : Nat) : s.sinks (s.linkLost l cause) := by
  have hfails : s.sinks ((s.climb 4).linkFails l cause) := by simp
  exact hfails.trans (State.fenceUntil_readmit_sinks _)

theorem State.linkLost_down {s : State} {l : Nat} (cause : Nat) (hup : ∀ e ∈ linkDirs l, (s.rat e.1 e.2).st ≠ ratDown)
    {e : Nat × Nat} (he : e ∈ linkDirs l) : ((s.linkLost l cause).rat e.1 e.2).st = ratDown :=
  (State.fenceUntil_readmit_sinks _).down (State.linkFails_down (s := s.climb 4) cause (by simpa using hup) he)

theorem linkDirs_linkOf : ∀ d < 16, ∀ side < 4, ∀ e ∈ neighbourDie d side,
    linkDirs (linkOf d side) = [(d, side), (e, oppositeSide side)] ∨
      linkDirs (linkOf d side) = [(e, oppositeSide side), (d, side)] := by
  decide

/-- The two directions of the link between two neighbours. -/
theorem mem_linkDirs {d side e : Nat} (hd : d < 16) (he : neighbourDie d side = some e) {x : Nat × Nat} :
    x ∈ linkDirs (linkOf d side) ↔ x = (d, side) ∨ x = (e, oppositeSide side) := by
  obtain ⟨hside, -, -, -⟩ := neighbourDie_spec hd he
  obtain h | h := linkDirs_linkOf d hd side hside e he <;> rw [h]
  · simp
  · simp [or_comm]

end Sys2Proof.Machine

/-! SUPPORT. Training, lanes that wear out and the shut-down of the ratlines (O33). -/

namespace Sys2Proof.Machine

-- One proof at a time: each waits for the lemmas that it rewrites by.
set_option Elab.async false

/-! ### Training (R298 to R301) -/

/-- A direction that fails its training for the first or second time in a row trains again. -/
theorem State.ratFail_again {s : State} {d side : Nat} (hside : side < 4) (h : (s.rat d side).fails < 2) :
    let u := s.ratFail d side
    (u.rat d side).st = ratElectrical ∧ (u.rat d side).fails = (s.rat d side).fails + 1 ∧
      counts s u (0x4800 + d) (0x15 + side) 1 ∧ registersBut [(0x4800 + d, 0x15 + side)] s u ∧
      changesOnly [.rats, .dict] s u := by
  intro u
  let t := (s.bump (0x4800 + d) (0x15 + side) 1).setRat d side
    { s.rat d side with fails := (s.rat d side).fails + 1, st := ratElectrical, since := s.tick }
  have hu : u = t := if_neg (by omega)
  have hrat : t.rat d side = { s.rat d side with
      fails := (s.rat d side).fails + 1, st := ratElectrical, since := s.tick } := State.rat_setRat_same ..
  rw [hu, hrat]
  exact ⟨rfl, rfl, State.bump_counts .., s.bump_registers 1 (by omega),
    ((s.bump_frame _ _ _).mono (by decide)).andThen (State.setRat_frame _ d side _)⟩

/-- One that fails for the third time takes both directions of its link down. -/
theorem State.ratFail_down {s : State} {d side e : Nat} (hd : d < 16) (he : neighbourDie d side = some e)
    (h : 2 ≤ (s.rat d side).fails) (hback : (s.rat e (oppositeSide side)).st ≠ ratDown) :
    let u := s.ratFail d side
    (u.rat d side).st = ratDown ∧ (u.rat e (oppositeSide side)).st = ratDown ∧ changesOnly linkPieces s u := by
  intro u
  let t := (s.bump (0x4800 + d) (0x15 + side) 1).setRat d side
    { s.rat d side with fails := (s.rat d side).fails + 1, st := ratElectrical, since := s.tick }
  have hu : u = t.linkLost (linkOf d side) 2 := if_pos (by omega)
  have hup : ∀ n ∈ linkDirs (linkOf d side), (t.rat n.1 n.2).st ≠ ratDown := by
    intro n hn
    obtain rfl | rfl := (mem_linkDirs hd he).mp hn
    · rw [State.rat_setRat_same]
      exact (by decide : ratElectrical ≠ ratDown)
    · rw [State.rat_setRat_other _ (ratKey_opposite_ne hd he)]
      exact hback
  have hdown (n : Nat × Nat) (hn : n = (d, side) ∨ n = (e, oppositeSide side)) : (u.rat n.1 n.2).st = ratDown := by
    rw [hu]
    exact State.linkLost_down 2 hup ((mem_linkDirs hd he).mpr hn)
  refine ⟨hdown _ (.inl rfl), hdown _ (.inr rfl), hu ▸ ?_⟩
  exact (((s.bump_frame _ _ _).mono (by decide)).andThen (State.setRat_frame _ d side _)).trans
    (State.linkLost_sinks _ _ _).frame

/-- Map exchange begins. -/
def RatDir.exchanging (x : RatDir) (old tick : Nat) : RatDir := { x with st := ratMapping, old := old, since := tick }

section
variable (s : State) (d side old : Nat)

@[simp] theorem State.rat_ratMap : (s.ratMap d side old).rat d side = (s.rat d side).exchanging old s.tick :=
  (State.rat_setFlow ..).trans (State.rat_setRat_same ..)

theorem State.ratMap_frame : changesOnly [.rats, .flows] s (s.ratMap d side old) :=
  ((s.setRat_frame d side _).mono (by decide)).andThen (State.setFlow_frame _ d side _)

end

section
variable {s : State} {d side e bad : Nat} {w : WidthWord} (hd : d < 16) (he : neighbourDie d side = some e)
include hd he

/-- A command that fails the training: at first the direction trains again, then the link is lost. -/
theorem training_fails {c : Instr} {t : State} (ht : changesOnly [.rats] s t)
    (hfails : (t.rat d side).fails = (s.rat d side).fails)
    (hback : t.rat e (oppositeSide side) = s.rat e (oppositeSide side)) (hexec : exec c s = .next (t.ratFail d side)) :
    ((s.rat d side).fails < 2 → ∃ u, exec c s = .next u ∧ (u.rat d side).st = ratElectrical ∧
      (u.rat d side).fails = (s.rat d side).fails + 1 ∧ counts s u (0x4800 + d) (0x15 + side) 1 ∧
      registersBut [(0x4800 + d, 0x15 + side)] s u ∧ changesOnly [.rats, .dict] s u) ∧
    (2 ≤ (s.rat d side).fails → (s.rat e (oppositeSide side)).st ≠ ratDown → ∃ u, exec c s = .next u ∧
      (u.rat d side).st = ratDown ∧ (u.rat e (oppositeSide side)).st = ratDown ∧ changesOnly linkPieces s u) := by
  obtain ⟨hside, -, -, -⟩ := neighbourDie_spec hd he
  have hdict : t.dict = s.dict := ht .dict (by decide)
  refine ⟨fun hfew => ?_, fun hmany hup => ?_⟩
  · obtain ⟨hst, hcount, hcounts, hregs, hframe⟩ := State.ratFail_again (s := t) hside (hfails ▸ hfew)
    exact ⟨_, hexec, hst, hcount.trans (by rw [hfails]), hcounts.of_dict hdict.symm rfl,
      (registersBut.of_dict hdict).trans hregs,
      (ht.mono (by decide)).trans hframe⟩
  · obtain ⟨hst, hst', hframe⟩ := State.ratFail_down hd he (hfails ▸ hmany) (hback ▸ hup)
    exact ⟨_, hexec, hst, hst', (ht.mono (by decide)).trans hframe⟩

/-- The electrical test ends: with 16 healthy lanes map exchange begins, with fewer the training has failed. -/
theorem exec_ratlineElectricalDone (hst : (s.rat d side).st = ratElectrical) :
    let x : RatDir := { s.rat d side with bad := bad % 2 ^ 34 }
    let t := s.setRat d side x
    exec (.ratlineElectricalDone d side bad) s =
      .next (if popCount x.healthy 34 < 16 then t.ratFail d side else t.ratMap d side x.old) := by
  change execRatlineElectricalDone d side bad s = _
  unfold execRatlineElectricalDone
  rw [onDirection_eq hd he]
  dsimp only
  rw [hst, beq_self_eq_true, guardEvent_true]
  rfl

theorem exec_ratlineWidth (hst : (s.rat d side).st = ratMapping) : exec (.ratlineWidth d side w) s =
    .next (if w.gen ≠ 2 then s.ratFail d side
      else s.setFlow d side { s.flow d side with claimed := some ((s.rat d side).drives w) }) := by
  change execRatlineWidth d side w s = _
  unfold execRatlineWidth
  rw [onDirection_eq hd he, hst, beq_self_eq_true, guardEvent_true]

theorem exec_ratlineMapTimeout (hst : (s.rat d side).st = ratMapping) (hlate : (s.rat d side).since + 2500 ≤ s.tick) :
    exec (.ratlineMapTimeout d side) s = .next (s.ratFail d side) := by
  change execRatlineMapTimeout d side s = _
  unfold execRatlineMapTimeout
  rw [onDirection_eq hd he]
  dsimp only
  rw [hst, beq_self_eq_true, decide_eq_true hlate, Bool.true_or, Bool.true_and, guardEvent_true]

theorem exec_ratlineTrainingFramesSeen (hlive : (s.rat d side).live = true) :
    exec (.ratlineTrainingFramesSeen d side) s = .next (s.ratMap d side 0) := by
  change execRatlineTrainingFramesSeen d side s = _
  unfold execRatlineTrainingFramesSeen
  rw [onDirection_eq hd he, hlive, guardEvent_true]

end

/-! ### Compound records (R471) -/

section
variable (s : State) (d side : Nat)

/-- What posting the compound records of a flow changes. -/
theorem State.settlePairs_eq : ∃ t, t = s.setFlow d side { s.flow d side with pairs := [], recov := none } ∧
    changesOnly [.dict, .rings] t (s.settlePairs d side) :=
  ⟨_, rfl, changesOnly.foldl _ (fun _ _ => State.postCompound_frame _ _ _ _) _ _⟩

theorem State.settlePairs_frame : changesOnly [.flows, .dict, .rings] s (s.settlePairs d side) := by
  obtain ⟨t, rfl, ht⟩ := s.settlePairs_eq d side
  exact ((s.setFlow_frame d side _).mono (by decide)).andThen ht

theorem State.flow_settlePairs : (s.settlePairs d side).flow d side = { s.flow d side with pairs := [], recov := none } := by
  obtain ⟨t, rfl, ht⟩ := s.settlePairs_eq d side
  rw [State.flow_of_frame ht]
  exact State.flow_setFlow_same ..

end

/-! ### Map exchange that is done (R287, R300) -/

/-- A direction that is Live with the map and width on which two words agree. -/
structure RatDir.settles (x y : RatDir) (w : WidthWord) : Prop where
  st : y.st = ratLive
  width : y.width = (settleWords x.word w).2
  agreed : y.agreed = (settleWords x.word w).1
  fails : y.fails = 0

section
variable {s : State} {d side e : Nat} {w : WidthWord} (hd : d < 16) (he : neighbourDie d side = some e)
include hd he

theorem exec_ratlineMapExchangeDone (hst : (s.rat d side).st = ratMapping) (hclaimed : (s.flow d side).claimed = some w)
    (hwidth : (settleWords (s.rat d side).word w).2 ≠ 0) : ∃ y t v, (s.rat d side).settles y w ∧
      t = (s.setRat d side y).setFlow d side { s.flow d side with claimed := none, asked := 0 } ∧ changesOnly [.rings] t v ∧
      exec (.ratlineMapExchangeDone d side) s = .next (v.settlePairs d side).readmit := by
  have hpost (t : State) (c : Prop) [Decidable c] (ev : Event) : changesOnly [.rings] t (if c then t.post ev else t) :=
    .ite (t.post_frame ev) (.refl _ t)
  change ∃ y t v, _ ∧ _ ∧ _ ∧ execRatlineMapExchangeDone d side s = _
  unfold execRatlineMapExchangeDone
  rw [onDirection_eq hd he]
  dsimp only
  rw [hclaimed]
  dsimp only
  rw [hst, beq_self_eq_true, bne_iff_ne.mpr hwidth, Bool.and_self, guardEvent_true]
  exact ⟨_, _, _, ⟨rfl, rfl, rfl, rfl⟩, rfl, (hpost _ _ _).trans (hpost _ _ _), rfl⟩

/-- Where two words agree on a width the direction is Live with it. -/
theorem ratlineMapExchangeDone_leaves (hst : (s.rat d side).st = ratMapping) (hclaimed : (s.flow d side).claimed = some w)
    (hwidth : (settleWords (s.rat d side).word w).2 ≠ 0) :
    ∃ u, exec (.ratlineMapExchangeDone d side) s = .next u ∧ (u.rat d side).st = ratLive ∧
      (u.rat d side).width = (settleWords (s.rat d side).word w).2 ∧
      (u.rat d side).agreed = (settleWords (s.rat d side).word w).1 ∧ (u.rat d side).fails = 0 ∧
      (u.flow d side).asked = 0 ∧ changesOnly [.rats, .flows, .dict, .rings] s u := by
  obtain ⟨y, t, v, hy, ht, hv, hexec⟩ := exec_ratlineMapExchangeDone hd he hst hclaimed hwidth
  have hrat : t.rat d side = y := by rw [ht]; exact (State.rat_setFlow ..).trans (State.rat_setRat_same ..)
  have hflow : (t.flow d side).asked = 0 := by rw [ht, State.flow_setFlow_same]
  have htframe : changesOnly [.rats, .flows] s t := by
    rw [ht]; exact ((s.setRat_frame d side y).mono (by decide)).andThen (State.setFlow_frame _ d side _)
  have hpairs := v.settlePairs_frame d side
  have hlast := (v.settlePairs d side).readmit_frame
  have hu : (v.settlePairs d side).readmit.rat d side = y := by
    rw [State.rat_of_frame hlast, State.rat_of_frame hpairs, State.rat_of_frame hv, hrat]
  refine ⟨_, hexec, ?_, ?_, ?_, ?_, ?_, ?_⟩
  · rw [hu, hy.st]
  · rw [hu, hy.width]
  · rw [hu, hy.agreed]
  · rw [hu, hy.fails]
  · rw [State.flow_of_frame hlast, State.flow_settlePairs]
    dsimp only
    rw [State.flow_of_frame hv]
    exact hflow
  · exact (((htframe.mono (by decide)).andThen hv).andThen hpairs).andThen hlast

end

/-! ### Lanes that wear out (R294 to R298) -/

section
variable {s t : State} (h : ratsSteady s t) (d side : Nat)
include h

theorem ratsSteady.st : (t.rat d side).st = (s.rat d side).st := by
  have hsettled := congrArg RatDir.st (h d side)
  exact hsettled

theorem ratsSteady.retT : (t.rat d side).retT = (s.rat d side).retT := by
  have hsettled := congrArg RatDir.retT (h d side)
  exact hsettled

end

/-- The lanes that a direction has left without some. -/
def RatDir.leftWithout (x : RatDir) (gone : List Nat) : Nat := without (without x.agreed (x.retR ||| laneMask gone)) x.bad

/-- A direction with 16 lanes left trains again without the others. -/
theorem State.ratDrop_leaves {s : State} {d side : Nat} {gone : List Nat}
    (h : 16 ≤ popCount ((s.rat d side).leftWithout gone) 34) :
    let u := s.ratDrop d side gone
    (u.rat d side).st = ratMapping ∧ (u.rat d side).retR = (s.rat d side).retR ||| laneMask gone ∧
      counts s u 0x7170 3 1 ∧ changesOnly [.rats, .flows, .dict] s u := by
  intro u
  have hfew : ¬popCount (without (without (s.rat d side).agreed ((s.rat d side).retR ||| laneMask gone))
      (s.rat d side).bad) 34 < 16 := Nat.not_lt.mpr h
  obtain ⟨t, old, hret, hframe, hu⟩ : ∃ t old, (t.rat d side).retR = (s.rat d side).retR ||| laneMask gone ∧
      changesOnly [.rats, .flows] s t ∧ u = (t.climb 3).ratMap d side old := by
    refine ⟨_, _, ?_, ?_, if_neg hfew⟩
    · rw [State.rat_setFlow, State.rat_setRat_same]
    · exact ((s.setRat_frame d side _).mono (by decide)).andThen (State.setFlow_frame _ d side _)
  have hmap := (t.climb 3).ratMap_frame d side old
  have hlast : u.rat d side = (t.rat d side).exchanging old t.tick := by rw [hu, State.rat_ratMap]; rfl
  rw [hlast]
  refine ⟨rfl, hret, ?_, ?_⟩
  · have hcount : counts t (t.climb 3) 0x7170 3 1 := t.bump_counts ..
    exact hcount.of_dict (hframe .dict (by decide)).symm (hu ▸ hmap .dict (by decide))
  · exact hu ▸ ((hframe.mono (by decide)).andThen (t.climb_frame 3)).andThen hmap

/-- The lanes of a direction that reached the threshold in its window. -/
def State.wornRats (s : State) (d side : Nat) : List Nat :=
  (lanesIn (s.rat d side).map).filter fun n => decide (s.val 0x4820 1 ≤ FMap.get (s.rat d side).errors n 0)

/-- A direction whose window begins anew. -/
def RatDir.newWindow (x : RatDir) (tick : Nat) : RatDir := { x with errors := [], window := tick }

section
variable (s : State) (d side lane sp : Nat) (rest : List Nat)

/-- The flow of a direction that gives up a lane for a spare, while others wait. -/
def RatFlow.swapping (f : RatFlow) (lane sp : Nat) (rest : List Nat) (tick : Nat) : RatFlow :=
  { f with swap := some (lane, sp), swapSeq := f.next, asked := 1, waiting := rest, recov := some ⟨2, 0x2230, tick⟩ }

/-- The replacement of a lane begins. -/
def State.swapBegun : State :=
  ((s.climb 2).setRat d side { s.rat d side with st := ratSwitching, since := s.tick }).setFlow d side
    ((s.flow d side).swapping lane sp rest s.tick)

@[simp] theorem State.rat_swapBegun : (s.swapBegun d side lane sp rest).rat d side =
    { s.rat d side with st := ratSwitching, since := s.tick } := (State.rat_setFlow ..).trans (State.rat_setRat_same ..)

@[simp] theorem State.flow_swapBegun :
    (s.swapBegun d side lane sp rest).flow d side = (s.flow d side).swapping lane sp rest s.tick := State.flow_setFlow_same ..

theorem State.swapBegun_apart : changesOnly [.rats, .flows] (s.climb 2) (s.swapBegun d side lane sp rest) :=
  ((State.setRat_frame _ d side _).mono (by decide)).andThen (State.setFlow_frame _ d side _)

variable {s d side sp}

/-- A direction with a spare gives up its first lane: RETIRE goes out. -/
theorem State.ratRetire_spare (h : (s.rat d side).spare = some sp) :
    s.ratRetire d side (lane :: rest) = (s.swapBegun d side lane sp rest).ratAsk d side := by
  unfold State.ratRetire
  dsimp only
  rw [h]
  rfl

/-- One without a spare gives up all of them. -/
theorem State.ratRetire_none (h : (s.rat d side).spare = none) :
    s.ratRetire d side (lane :: rest) = s.ratDrop d side (lane :: rest) := by
  unfold State.ratRetire
  dsimp only
  rw [h]

/-- What the replacement of a lane leaves as it begins. -/
theorem State.ratRetire_spare_leaves {e : Nat} (he : neighbourDie d side = some e) (h : (s.rat d side).spare = some sp) :
    let u := s.ratRetire d side (lane :: rest)
    (u.rat d side).st = ratSwitching ∧ u.flow d side = (s.flow d side).swapping lane sp rest s.tick ∧
      counts s u 0x7170 2 1 ∧ changesOnly [.rats, .flows, .dict, .outbox] s u := by
  intro u
  let t := s.swapBegun d side lane sp rest
  have hflow : t.flow d side = (s.flow d side).swapping lane sp rest s.tick := State.flow_swapBegun ..
  have hasked : (t.flow d side).asked = 1 := by rw [hflow]; rfl
  have hsends : t.ratSends 1 u := by
    have hask := t.ratAsk_sends d side e he (by rw [hasked]) (by rw [hasked]; decide)
    rwa [← State.ratRetire_spare lane rest h] at hask
  have hapart := s.swapBegun_apart d side lane sp rest
  refine ⟨?_, (hsends.flow d side).trans hflow, ?_, ?_⟩
  · rw [hsends.steady.st, State.rat_swapBegun]
  · exact (s.bump_counts 0x7170 2 1).of_dict rfl ((hsends.frame .dict (by decide)).trans (hapart .dict (by decide)))
  · exact (((s.climb_frame 2).mono (by decide)).andThen hapart).andThen hsends.frame

end

/-- The state at the beginning of a direction's window. -/
theorem State.newWindow_eq (s : State) (d side : Nat) : ∃ t, t = s.setRat d side ((s.rat d side).newWindow s.tick) ∧
    t.rat d side = (s.rat d side).newWindow s.tick ∧ t.dict = s.dict ∧ t.flow d side = s.flow d side ∧
    changesOnly [.rats] s t := ⟨_, rfl, State.rat_setRat_same .., rfl, rfl, s.setRat_frame d side _⟩

section
variable {s : State} {d side e : Nat} (hd : d < 16) (he : neighbourDie d side = some e)
  (hdue : (s.rat d side).window + 25000000 ≤ s.tick)
include hd he hdue

theorem exec_ratlineLaneWindowEnd_steady (hworn : s.wornRats d side = []) : exec (.ratlineLaneWindowEnd d side) s =
    .next (s.setRat d side ((s.rat d side).newWindow s.tick)) := by
  have hms : (s.rat d side).window + 1000 * msTicks ≤ s.tick := hdue
  change execRatlineLaneWindowEnd d side s = _
  unfold execRatlineLaneWindowEnd
  rw [onDirection_eq hd he]
  dsimp only
  rw [decide_eq_true hms, guardEvent_true]
  exact if_pos (List.isEmpty_iff.mpr hworn)

theorem exec_ratlineLaneWindowEnd_worn (hworn : s.wornRats d side ≠ []) (hlive : (s.rat d side).st = ratLive) :
    exec (.ratlineLaneWindowEnd d side) s =
      .next ((s.setRat d side ((s.rat d side).newWindow s.tick)).ratRetire d side (s.wornRats d side)) := by
  have hms : (s.rat d side).window + 1000 * msTicks ≤ s.tick := hdue
  have hempty : ¬(s.wornRats d side).isEmpty = true := fun h => hworn (List.isEmpty_iff.mp h)
  change execRatlineLaneWindowEnd d side s = _
  unfold execRatlineLaneWindowEnd
  rw [onDirection_eq hd he]
  dsimp only
  rw [decide_eq_true hms, guardEvent_true]
  exact (if_neg hempty).trans ((if_neg (by simp [hlive, ratLive, ratSwitching, ratMapping])).trans (if_pos hlive))

theorem ratlineLaneWindowEnd_spare {lane sp : Nat} {rest : List Nat} (hworn : s.wornRats d side = lane :: rest)
    (hlive : (s.rat d side).st = ratLive) (hspare : (s.rat d side).spare = some sp) :
    ∃ u, exec (.ratlineLaneWindowEnd d side) s = .next u ∧ (u.rat d side).st = ratSwitching ∧
      (u.flow d side).swap = some (lane, sp) ∧ (u.flow d side).asked = 1 ∧ (u.flow d side).waiting = rest ∧
      counts s u 0x7170 2 1 ∧ changesOnly [.rats, .flows, .dict, .outbox] s u := by
  have hexec := exec_ratlineLaneWindowEnd_worn hd he hdue (by rw [hworn]; exact List.cons_ne_nil _ _) hlive
  obtain ⟨t, ht, hrat, hdict, -, hframe⟩ := s.newWindow_eq d side
  rw [hworn, ← ht] at hexec
  obtain ⟨hst, hflow, hcount, hlast⟩ := t.ratRetire_spare_leaves lane rest he (sp := sp) (by rw [hrat]; exact hspare)
  refine ⟨_, hexec, hst, ?_, ?_, ?_, hcount.of_dict hdict.symm rfl, (hframe.mono (by decide)).trans hlast⟩ <;>
    rw [hflow] <;> rfl

theorem ratlineLaneWindowEnd_none (hworn : s.wornRats d side ≠ []) (hlive : (s.rat d side).st = ratLive)
    (hspare : (s.rat d side).spare = none) (hleft : 16 ≤ popCount ((s.rat d side).leftWithout (s.wornRats d side)) 34) :
    ∃ u, exec (.ratlineLaneWindowEnd d side) s = .next u ∧ (u.rat d side).st = ratMapping ∧
      (u.rat d side).retR = (s.rat d side).retR ||| laneMask (s.wornRats d side) ∧ counts s u 0x7170 3 1 ∧
      changesOnly [.rats, .flows, .dict] s u := by
  have hexec := exec_ratlineLaneWindowEnd_worn hd he hdue hworn hlive
  obtain ⟨t, ht, hrat, hdict, -, hframe⟩ := s.newWindow_eq d side
  obtain ⟨lane, rest, hcons⟩ := List.exists_cons_of_ne_nil hworn
  rw [← ht] at hexec
  have hdrop : t.ratRetire d side (s.wornRats d side) = t.ratDrop d side (s.wornRats d side) := by
    rw [hcons]
    exact State.ratRetire_none lane rest (by rw [hrat]; exact hspare)
  rw [hdrop] at hexec
  obtain ⟨hst, hret, hcount, hlast⟩ := State.ratDrop_leaves (s := t) (d := d) (side := side) (gone := s.wornRats d side)
    (by rw [hrat]; exact hleft)
  exact ⟨_, hexec, hst, hret.trans (by rw [hrat]; rfl), hcount.of_dict hdict.symm rfl, (hframe.mono (by decide)).trans hlast⟩

end

/-! ### RETIRE and SWITCH (R295, R470) -/

section
variable {s : State} {d side e lane sp : Nat} (hd : d < 16) (he : neighbourDie d side = some e)
include hd he

/-- The sender takes up the retirement of a lane. -/
def State.retireTaken (s : State) (d side lane : Nat) : State :=
  (s.setRat d side { s.rat d side with retT := setBit (s.rat d side).retT lane true }).setFlow d side
    { s.flow d side with asked := 3 }

theorem exec_ratlineRetire (hasked : (s.flow d side).asked = 1) (hswap : (s.flow d side).swap = some (lane, sp))
    (hsent : (s.flow d side).swapSeq ≤ (s.flow d side).sent) :
    exec (.ratlineRetire d side) s = .next (((s.retireTaken d side lane).ratAsk d side).ratAcked d side) := by
  change execRatlineRetire d side s = _
  unfold execRatlineRetire
  rw [onDirection_eq hd he]
  dsimp only
  split
  case h_2 hno => exact absurd hswap (hno _ _ hasked)
  case h_1 _ hsome =>
    obtain ⟨rfl, rfl⟩ := Prod.mk.inj (Option.some.inj (hswap.symm.trans hsome))
    rw [decide_eq_true hsent, guardEvent_true]
    rfl

theorem ratlineRetire_leaves (hasked : (s.flow d side).asked = 1) (hswap : (s.flow d side).swap = some (lane, sp))
    (hsent : (s.flow d side).swapSeq ≤ (s.flow d side).sent) :
    ∃ u, exec (.ratlineRetire d side) s = .next u ∧ (u.rat d side).retT = setBit (s.rat d side).retT lane true ∧
      (u.flow d side).asked = 3 ∧ changesOnly [.rats, .flows, .outbox] s u := by
  let t := s.retireTaken d side lane
  have hflow : t.flow d side = { s.flow d side with asked := 3 } := State.flow_setFlow_same ..
  have hrat : t.rat d side = { s.rat d side with retT := setBit (s.rat d side).retT lane true } :=
    (State.rat_setFlow ..).trans (State.rat_setRat_same ..)
  have htframe : changesOnly [.rats, .flows] s t :=
    ((s.setRat_frame d side _).mono (by decide)).andThen (State.setFlow_frame _ d side _)
  have hthree : (t.flow d side).asked = 3 := by rw [hflow]
  have hsends : t.ratSends 1 (t.ratAsk d side) := t.ratAsk_sends d side e he (by rw [hthree]; decide) (Nat.le_of_eq hthree)
  obtain ⟨-, hsteady, hlast⟩ := hsends.acked d side
  refine ⟨_, exec_ratlineRetire hd he hasked hswap hsent, ?_, ?_, (htframe.mono (by decide)).trans (hlast.mono (by decide))⟩
  · rw [hsteady.retT, hrat]
  · rw [State.flow_ratAcked, hsends.flow, hflow]
    rfl

/-- The direction with the spare in the place of the lane. -/
def RatDir.switched (x : RatDir) (lane sp tick : Nat) : RatDir :=
  { x with st := ratLive, map := setBit (setBit x.map lane false) sp true, retR := setBit x.retR lane true, since := tick,
           phase := 0 }

/-- The receiver applies the new map, and no other lane waits. -/
theorem exec_ratlineSwitch_locks (hasked : (s.flow d side).asked = 3) (hswap : (s.flow d side).swap = some (lane, sp))
    (hwaiting : (s.flow d side).waiting = []) : ∃ t u, t = (s.setRat d side ((s.rat d side).switched lane sp s.tick)).setFlow
        d side { s.flow d side with swap := none, asked := 0, waiting := [], recov := none } ∧
      changesOnly [.rings] t u ∧ exec (.ratlineSwitch d side true) s = .next (u.ratAcked e (oppositeSide side)) := by
  change ∃ t u, _ ∧ _ ∧ execRatlineSwitch d side true s = _
  unfold execRatlineSwitch
  rw [onDirection_eq hd he]
  dsimp only
  split
  case h_2 hno => exact absurd hswap (hno _ _ hasked)
  case h_1 _ hsome =>
    obtain ⟨rfl, rfl⟩ := Prod.mk.inj (Option.some.inj (hswap.symm.trans hsome))
    rw [hwaiting, if_neg (by decide)]
    exact ⟨_, _, rfl, State.post_frame _ _, rfl⟩

theorem ratlineSwitch_locks (hasked : (s.flow d side).asked = 3) (hswap : (s.flow d side).swap = some (lane, sp))
    (hwaiting : (s.flow d side).waiting = []) :
    ∃ u, exec (.ratlineSwitch d side true) s = .next u ∧ (u.rat d side).st = ratLive ∧
      (u.rat d side).map = setBit (setBit (s.rat d side).map lane false) sp true ∧
      (u.rat d side).retR = setBit (s.rat d side).retR lane true ∧ (u.flow d side).asked = 0 ∧
      (u.flow d side).swap = none ∧ changesOnly [.rats, .flows, .rings] s u := by
  obtain ⟨t, v, ht, hv, hexec⟩ := exec_ratlineSwitch_locks hd he hasked hswap hwaiting
  have hacked := v.ratAcked_frame e (oppositeSide side)
  have hrat : (v.ratAcked e (oppositeSide side)).rat d side = (s.rat d side).switched lane sp s.tick := by
    rw [State.rat_of_frame hacked, State.rat_of_frame hv, ht, State.rat_setFlow, State.rat_setRat_same]
  have hflow : (v.ratAcked e (oppositeSide side)).flow d side =
      { s.flow d side with swap := none, asked := 0, waiting := [], recov := none } := by
    rw [State.ratAcked_eq, State.flow_setFlow_other _ (ratKey_opposite_ne hd he).symm, State.flow_of_frame hv, ht,
      State.flow_setFlow_same]
  have htframe : changesOnly [.rats, .flows] s t := by
    rw [ht]; exact ((s.setRat_frame d side _).mono (by decide)).andThen (State.setFlow_frame _ d side _)
  refine ⟨_, hexec, ?_, ?_, ?_, ?_, ?_, ((htframe.mono (by decide)).andThen hv).andThen hacked⟩
  · rw [hrat]; rfl
  · rw [hrat]; rfl
  · rw [hrat]; rfl
  · rw [hflow]
  · rw [hflow]

/-- A spare that does not lock is given up too, with the lane and those that waited. -/
theorem exec_ratlineSwitch_fails (hasked : (s.flow d side).asked = 3) (hswap : (s.flow d side).swap = some (lane, sp)) :
    ∃ f, exec (.ratlineSwitch d side false) s =
      .next ((s.setFlow d side f).ratDrop d side (lane :: ((s.flow d side).waiting ++ [sp]))) := by
  change ∃ f, execRatlineSwitch d side false s = _
  unfold execRatlineSwitch
  rw [onDirection_eq hd he]
  dsimp only
  split
  case h_2 hno => exact absurd hswap (hno _ _ hasked)
  case h_1 _ hsome =>
    obtain ⟨rfl, rfl⟩ := Prod.mk.inj (Option.some.inj (hswap.symm.trans hsome))
    rw [if_pos (by decide)]
    unfold State.ratCompound
    dsimp only
    rw [hswap]
    exact ⟨_, rfl⟩

theorem ratlineSwitch_fails (hasked : (s.flow d side).asked = 3) (hswap : (s.flow d side).swap = some (lane, sp))
    (hleft : 16 ≤ popCount ((s.rat d side).leftWithout (lane :: ((s.flow d side).waiting ++ [sp]))) 34) :
    ∃ u, exec (.ratlineSwitch d side false) s = .next u ∧ (u.rat d side).st = ratMapping ∧
      (u.rat d side).retR = (s.rat d side).retR ||| laneMask (lane :: ((s.flow d side).waiting ++ [sp])) ∧
      changesOnly [.rats, .flows, .dict] s u := by
  obtain ⟨f, hexec⟩ := exec_ratlineSwitch_fails hd he hasked hswap
  obtain ⟨hst, hret, -, hlast⟩ := State.ratDrop_leaves (s := s.setFlow d side f) (d := d) (side := side)
    (gone := lane :: ((s.flow d side).waiting ++ [sp])) hleft
  exact ⟨_, hexec, hst, hret, ((s.setFlow_frame d side f).mono (by decide)).trans hlast⟩

end

/-! ### A link that is disabled (R305) -/

/-- A direction that is shut down. -/
def State.directionOff (s : State) (e : Nat × Nat) : State :=
  (s.setRat e.1 e.2 { s.rat e.1 e.2 with st := ratOff, width := 0, map := 0, since := s.tick, before := 0 }).setFlow e.1 e.2 {}

theorem State.directionOff_frame (s : State) (e : Nat × Nat) : changesOnly [.rats, .flows] s (s.directionOff e) :=
  ((s.setRat_frame e.1 e.2 _).mono (by decide)).andThen (State.setFlow_frame _ e.1 e.2 _)

theorem State.directionOff_st (s : State) (e : Nat × Nat) (d side : Nat) :
    ((s.directionOff e).rat d side).st = if ratKey d side = ratKey e.1 e.2 then ratOff else (s.rat d side).st := by
  unfold State.directionOff
  rw [State.rat_setFlow, State.rat_setRat]
  split <;> rfl

theorem State.foldl_directionOff_st (s : State) {l : List (Nat × Nat)} {d side : Nat}
    (h : (d, side) ∈ l ∨ (s.rat d side).st = ratOff) : ((l.foldl State.directionOff s).rat d side).st = ratOff := by
  induction l generalizing s with
  | nil => exact h.resolve_left List.not_mem_nil
  | cons e l ih =>
    refine ih _ ?_
    rw [State.directionOff_st]
    split
    · exact .inr rfl
    · next hne => exact h.imp_left fun hm => (List.mem_cons.mp hm).resolve_left fun he => hne (by rw [← he])

/-- A direction of a link that no reset has asked for is shut down for good. -/
theorem State.foldl_directionOff {s : State} {scope : Nat} (hreset : s.resetting 4 scope = false) (l : List (Nat × Nat)) :
    l.foldl (fun s e =>
      let x := s.rat e.1 e.2
      let x := { x with st := ratOff, width := 0, map := 0, since := s.tick, before := 0 }
      (s.setRat e.1 e.2 (if s.resetting 4 scope then { x with retR := 0, retT := 0, bad := 0, fails := 0 } else x)).setFlow
        e.1 e.2 {}) s = l.foldl State.directionOff s := by
  induction l generalizing s with
  | nil => rfl
  | cons e l ih =>
    have hkept : (s.directionOff e).resetting 4 scope = false := by
      rw [← hreset, State.resetting, State.resetting, s.directionOff_frame e .resets (by decide)]
    rw [List.foldl_cons, List.foldl_cons, ← ih hkept, hreset]
    rfl

theorem exec_ratlineLinkOff {s : State} {l : Nat} (hl : l < 24) (hoff : s.val 0x4830 (l + 1) = 1)
    (hdrained : ∀ n, n ∈ linkDirs l → (s.flow n.1 n.2).held = [] ∧ (s.rat n.1 n.2).st ≠ ratPending)
    (hup : ∃ n, n ∈ linkDirs l ∧ (s.rat n.1 n.2).st ≠ ratOff ∧ (s.rat n.1 n.2).st ≠ ratDown)
    (hreset : s.resetting 4 (l + 8) = false) : exec (.ratlineLinkOff l) s =
      .next ((((linkDirs l).foldl State.directionOff s).fenceUntil 15).readmit) := by
  have hpending : ((linkDirs l).any fun e => (s.rat e.1 e.2).st == ratPending) = false := by
    simpa using fun a b h => (hdrained (a, b) h).2
  have hsome : ((linkDirs l).any fun e => (s.rat e.1 e.2).st != ratOff && (s.rat e.1 e.2).st != ratDown) = true := by
    simpa using hup
  have hheld : ((linkDirs l).all fun e => (s.flow e.1 e.2).held.isEmpty) = true := by
    simpa using fun a b h => (hdrained (a, b) h).1
  change execRatlineLinkOff l s = _
  unfold execRatlineLinkOff
  dsimp only
  rw [← State.foldl_directionOff hreset, hpending, hsome, hheld, hoff, decide_eq_true hl]
  simp only [hreset, beq_self_eq_true, Bool.or_self, Bool.or_false, Bool.and_self, guardEvent_true,
    Bool.false_eq_true, if_false]

theorem ratlineLinkOff_leaves {s : State} {l : Nat} (hl : l < 24) (hoff : s.val 0x4830 (l + 1) = 1)
    (hdrained : ∀ n, n ∈ linkDirs l → (s.flow n.1 n.2).held = [] ∧ (s.rat n.1 n.2).st ≠ ratPending)
    (hup : ∃ n, n ∈ linkDirs l ∧ (s.rat n.1 n.2).st ≠ ratOff ∧ (s.rat n.1 n.2).st ≠ ratDown)
    (hreset : s.resetting 4 (l + 8) = false) : ∃ u, exec (.ratlineLinkOff l) s = .next u ∧
      (∀ n, n ∈ linkDirs l → (u.rat n.1 n.2).st = ratOff ∨ (u.rat n.1 n.2).st = ratDown) ∧ changesOnly linkPieces s u := by
  have hall : changesOnly [.rats, .flows] s ((linkDirs l).foldl State.directionOff s) :=
    changesOnly.foldl _ State.directionOff_frame _ s
  have hst (n : Nat × Nat) (hn : n ∈ linkDirs l) := s.foldl_directionOff_st (.inl hn)
  generalize hv : (linkDirs l).foldl State.directionOff s = v at hall hst
  have hlast := v.fenceUntil_readmit_sinks
  refine ⟨_, exec_ratlineLinkOff hl hoff hdrained hup hreset, fun n hn => ?_, ?_⟩ <;> rw [hv]
  · obtain h | h := hlast.states n.1 n.2
    · exact .inl (h.trans (hst n hn))
    · exact .inr h
  · exact (hall.mono (by decide)).trans hlast.frame

/-- Settles O33: the training by what each command puts back of its direction, a lost link by the fences that follow
(`State.sinks`), the lanes by their replacement and the loss of width. -/
theorem ratlineStates : Obligations.RatlineStates := by
  refine ⟨fun s d side e bad w hd he => ?training, fun s d side e lane sp hd he => ?lanes,
    fun s l hl hoff hdrained hup hreset => ratlineLinkOff_leaves hl hoff hdrained hup hreset⟩
  case training =>
    intro x tested again down fails
    have hset : changesOnly [.rats] s (s.setRat d side tested) := s.setRat_frame d side tested
    have hrat : (s.setRat d side tested).rat d side = tested := State.rat_setRat_same ..
    have hself (c : Instr) (hexec : exec c s = .next (s.ratFail d side)) : fails c :=
      training_fails hd he (.refl _ s) rfl rfl hexec
    refine ⟨fun hst hmany => ?_, fun hst hfew => ?_, fun hst hgen => ?_, fun hst hgen => ?_, fun hst hlate => ?_,
      fun hlive => ?_, ratlineMapExchangeDone_leaves hd he⟩
    · refine ⟨_, (exec_ratlineElectricalDone hd he hst).trans (congrArg _ (if_neg (Nat.not_lt.mpr hmany))), ?_, ?_, ?_⟩
      · rw [State.rat_ratMap]; rfl
      · rw [State.rat_ratMap, hrat]; rfl
      · exact (hset.mono (by decide)).trans (State.ratMap_frame _ d side _)
    · exact training_fails hd he hset (by rw [hrat]) (State.rat_setRat_other _ (ratKey_opposite_ne hd he) tested)
        ((exec_ratlineElectricalDone hd he hst).trans (congrArg _ (if_pos hfew)))
    · refine ⟨_, (exec_ratlineWidth hd he hst).trans (congrArg _ (if_neg (not_not.mpr hgen))), ?_, s.setFlow_frame d side _⟩
      rw [State.flow_setFlow_same]
    · exact hself _ ((exec_ratlineWidth hd he hst).trans (congrArg _ (if_pos hgen)))
    · exact hself _ (exec_ratlineMapTimeout hd he hst hlate)
    · refine ⟨_, exec_ratlineTrainingFramesSeen hd he hlive, ?_, ?_, ?_, s.ratMap_frame d side 0⟩ <;>
        rw [State.rat_ratMap] <;> rfl
  case lanes =>
    intro x f worn due left
    refine ⟨fun hdue hworn => ?_, fun rest hdue hworn hlive hspare => ratlineLaneWindowEnd_spare hd he hdue hworn hlive hspare,
      fun hdue hworn hlive hspare hleft => ratlineLaneWindowEnd_none hd he hdue hworn hlive hspare hleft,
      ratlineRetire_leaves hd he, ratlineSwitch_locks hd he, ratlineSwitch_fails hd he⟩
    exact ⟨_, exec_ratlineLaneWindowEnd_steady hd he hdue hworn, State.rat_setRat_same .., s.setRat_frame d side _⟩

end Sys2Proof.Machine
